-- ==== Sys2Proof/Word.lean ====
section
/-! DEFINITION. Words, station times, the closed sets of names, and the contents of farm-wire frames
as plain data (spec 00_scope "Conventions" and "Causes and codes", 01 R1 to R4, 08 R153). -/

namespace Sys2Proof

/-- One byte of a frame. -/
abbrev Byte := BitVec 8

/-- A station time: a 32-bit count of ticks of 25 µs (R163). -/
abbrev Tick := BitVec 32

/-- One sample of 16-bit signed linear speech. -/
abbrev Sample := BitVec 16

/-- The samples of one 10 ms frame: 80 of them when well formed (R106). -/
abbrev Speech := List Sample

/-- A link frame, beginning with its destination and source link addresses (R3, DATA). -/
abbrev LinkFrame := List Byte

/-- The difference of two station times, taken modulo 2^32 and read signed (00_scope "Station time"). -/
def elapsed (now t : Tick) : Int := (now - t).toInt

/-- "At least d after": the present time minus `t`, read signed, is `len` or more. -/
def ranOut (now t : Tick) (len : Nat) : Bool := decide ((len : Int) ≤ elapsed now t)

/-- `n` ticks as a station-time difference. -/
def ticks (n : Nat) : Tick := BitVec.ofNat 32 n

/-- A field whose table lists some codes: one of those it lists, or another code, which the five checks of R7 let
through (log 25). -/
inductive Coded (α : Type)
  | listed (a : α)
  | unlisted (code : Byte)
  deriving DecidableEq, Repr

/-- Hold states, with the codes of R2 in their order. -/
inductive HoldState
  | listen | passive | seeking | claiming | holding | yielding | halted
  deriving DecidableEq, Repr

/-- Power states (R165). -/
inductive PowerState
  | full | battery | watch | stop
  deriving DecidableEq, Repr

/-- Supervisor states (section 4.2). -/
inductive SupState
  | off | training | synced | lost | backoff
  deriving DecidableEq, Repr

/-- Port states (R89). -/
inductive PortState
  | idle | ringing | dialing | waiting | connected | offering | cleared | parked
  deriving DecidableEq, Repr

/-- States of a track slot (R50). -/
inductive SlotState
  | empty | tentative | locked | borrowed
  deriving DecidableEq, Repr

/-- States of a fault record (R143); a record that came by frame can hold a code that R153 does not list (log 25). -/
inductive RecordState
  | new | sent | reported
  | unlisted (code : Byte)
  deriving DecidableEq, Repr

/-- Halt codes 1 to 4 (R43). -/
inductive HaltCode
  | configBad | rankClash | wireDead | noLineInterface
  deriving DecidableEq, Repr

/-- Refusal causes 1 to 11 of a REPLY (R3); `cls` is CLASS and `priv` is PRIVATE. A REPLY can hold another code (log
25). -/
inductive RefuseCause
  | noHolder | handover | degraded | cls | priv | full | lineFault | portBusy | noPort | noStation | halted
  | unlisted (code : Byte)
  deriving DecidableEq, Repr

/-- Clear causes 1 to 6 of a CLEAR (R3); a CLEAR can hold another code (log 25). -/
inductive ClearCause
  | farEnd | holderLost | lineFault | dual | partyLimit | restart
  | unlisted (code : Byte)
  deriving DecidableEq, Repr

/-- Why a port last became CLEARED (R89, last cause). -/
inductive PortCause
  | refused (c : RefuseCause)
  | cleared (c : ClearCause)
  deriving DecidableEq, Repr

/-- Request kinds 1 to 6 (R3). -/
inductive RequestKind
  | seize | answer | leave | offer | accept | endCall
  deriving DecidableEq, Repr

/-- The answer of a REPLY: GRANT, or REFUSE with its cause (R3); or a code that is neither, with the byte in the
cause's place (log 25). -/
inductive Answer
  | grant
  | refuse (c : RefuseCause)
  | unlisted (code cause : Byte)
  deriving DecidableEq, Repr

/-- Stream types 1 to 3 of a VOICE frame (R3), or another code (log 25). -/
inductive StreamType
  | toHolder | toParty | intercom
  | unlisted (code : Byte)
  deriving DecidableEq, Repr

/-- The sixteen conditions, 0 to 15 in their order (section 7.1). -/
inductive Cond
  | lineDead | lineLeaky | lineForeign | syncUnstable | modemAbsent | trainFail | noiseTracked | noiseHeavy
  | noHolder | peerLost | wireErrors | mainsOff | batteryLow | portParked | portShort | rankClash
  deriving DecidableEq, Repr

/-- A port of this station: its port number is 1 or 2. -/
inductive PortNo
  | one | two
  deriving DecidableEq, Repr

/-- Track slots A and B. -/
inductive SlotName
  | a | b
  deriving DecidableEq, Repr

/-- What a tone detector can report (R92). -/
inductive Key
  | digit (n : Fin 10)
  | star
  | hash
  deriving DecidableEq, Repr

/-- An item for outpulsing: a digit or a flash (R123). -/
inductive DialItem
  | digit (n : Fin 10)
  | flash
  deriving DecidableEq, Repr

/-- The classes of frames, which choose the queue and the slot (R1). -/
inductive FrameClass
  | voice | control | data
  deriving DecidableEq, Repr

/-- A fault record (R143); its 13-byte layout is R153. -/
structure FaultRecord where
  origin : Nat
  trigger : Nat
  severity : Nat
  snapshot : BitVec 16
  startNumber : Nat
  firstRise : Tick
  count : Nat
  sentCount : Nat
  state : RecordState
  deriving DecidableEq, Repr

/-- What every received frame's header tells the blocks (R2, R8). -/
structure Header where
  src : Nat
  dst : Nat
  hold : Coded HoldState
  deriving DecidableEq, Repr

/-- The fixed part of a BEACON or HALT, bytes 0 to 7 (R4). -/
structure BeaconFixed where
  tiebreak : BitVec 16
  power : Coded PowerState
  modem : Bool
  eligible : Bool
  cls : BitVec 2
  holdTime : BitVec 32
  deriving DecidableEq, Repr

/-- The holder block, bytes 8 and 9 of a HOLDING station's BEACON (R4, R37). -/
structure HolderBlock where
  call : Bool
  joiners : BitVec 2
  priv : Bool
  degraded : Bool
  broadband : Bool
  profile : BitVec 2
  dead : Bool
  leaky : Bool
  foreign : Bool
  deriving DecidableEq, Repr

/-- One track as frames carry it, 8 bytes (R4). -/
structure TrackMsg where
  period : BitVec 32
  conf : BitVec 8
  offset : BitVec 24
  deriving DecidableEq, Repr

structure BeaconMsg where
  fixed : BeaconFixed
  holder : Option HolderBlock
  tracks : List TrackMsg
  deriving DecidableEq, Repr

/-- A YIELD's profile is a whole byte, of which R3 lists 0 to 3 (log 25). -/
structure YieldMsg where
  profile : Byte
  tracks : List TrackMsg
  deriving DecidableEq, Repr

structure GaspMsg where
  record : FaultRecord
  held : Bool
  profile : BitVec 2
  tracks : List TrackMsg
  deriving DecidableEq, Repr

structure HaltMsg where
  fixed : BeaconFixed
  code : Coded HaltCode
  deriving DecidableEq, Repr

/-- A REQUEST's fields after its kind (R3). -/
structure RequestMsg where
  port : Nat
  cls : Nat
  target : Nat
  ref : Nat
  tag : Nat
  deriving DecidableEq, Repr

structure ReplyMsg where
  tag : Nat
  answer : Answer
  refStation : Nat
  refPort : Nat
  ref : Nat
  deriving DecidableEq, Repr

structure ClearMsg where
  ref : Nat
  port : Nat
  cause : ClearCause
  deriving DecidableEq, Repr

structure DialMsg where
  ref : Nat
  port : Nat
  item : Coded DialItem
  deriving DecidableEq, Repr

structure VoiceMsg where
  stream : StreamType
  ref : Nat
  srcPort : Nat
  dstPort : Nat
  seq : Byte
  samples : Speech
  deriving DecidableEq, Repr

/-- The thirteen kinds of frame with their contents (R1, R3). -/
inductive Payload
  | beacon (m : BeaconMsg)
  | claim (tiebreak : BitVec 16)
  | yield (m : YieldMsg)
  | lastgasp (m : GaspMsg)
  | halt (m : HaltMsg)
  | request (k : RequestKind) (m : RequestMsg)
  | reply (m : ReplyMsg)
  | clear (m : ClearMsg)
  | dial (m : DialMsg)
  | voice (m : VoiceMsg)
  | report (r : FaultRecord)
  | receipt (trigger count : Nat)
  | data (f : LinkFrame)
  deriving DecidableEq, Repr

/-- How the read of the configuration memory ended: no answer, or the bytes it gave (R178). -/
inductive ConfigRead
  | absent
  | answered (bytes : List Byte)
  deriving DecidableEq, Repr

/-- The levels of the strap pins (R177 step 1). -/
structure StrapPins where
  rank : BitVec 3
  modem : Bool
  deriving DecidableEq, Repr

/-- What the row BATTERY_LOW_CHANGE tells: battery low's level, or the fall of battery empty, which no row names (log
16). -/
inductive BatteryTold
  | low (level : Bool)
  | emptyFell
  deriving DecidableEq, Repr

/-- What the row UPSTREAM_TRANSFER_END tells: a transfer's end with SEND-OK's level at that moment, or a fall of SEND-OK
at another moment, which no row names (log 17). -/
inductive UpstreamTold
  | ended (sendOk : Bool)
  | sendOkFell
  deriving DecidableEq, Repr

/-- The levels of the inputs the station reads (00_scope "Signal summary"). They belong to the outside;
the model keeps the level last told (log 6). -/
structure Pins where
  straps : StrapPins
  mains : Bool
  battLow : Bool
  battEmpty : Bool
  ready : Bool
  sync : Bool
  sendOk : Bool
  loopCurrent : Bool
  hook1 : Bool
  hook2 : Bool
  fault1 : Bool
  fault2 : Bool
  carrier : Bool
  deriving DecidableEq, Repr

end Sys2Proof
end

