-- ==== Sys2Proof/Syntax.lean ====
section
/-! DEFINITION. The commands: one constructor for each row of spec/opcode_table.json, in the table's
order. The table gives no operands; they are the levels and contents that the row's rule says the event
carries (log 5). -/

namespace Sys2Proof

inductive Instr
  -- start and power (09, 10)
  | powerUp (levels : Pins)
  | reset (straps : StrapPins)
  | configurationReadEnd (read : ConfigRead) (interfacePresent : Bool)
  | mainsPresentFall
  | mainsPresentRise
  | batteryLowChange (told : BatteryTold)
  | batteryEmpty
  | idleTimerExpiry
  | rejoinTimerExpiry
  | settleTimerExpiry
  | lastGaspWindowEnd
  -- interval taps (09)
  | tap10ms (codec1 codec2 line : Speech)
  | tap1s
  | tap10s
  -- receiving (01)
  | carrierRise
  | fragment (bytes : List Byte)
  | damagedFrame (bytes : List Byte)
  -- checked frames
  | beacon (h : Header) (m : BeaconMsg)
  | claim (h : Header) (tiebreak : BitVec 16)
  | yield (h : Header) (m : YieldMsg)
  | lastgasp (h : Header) (m : GaspMsg)
  | halt (h : Header) (m : HaltMsg)
  | seize (h : Header) (m : RequestMsg)
  | answer (h : Header) (m : RequestMsg)
  | leave (h : Header) (m : RequestMsg)
  | offer (h : Header) (m : RequestMsg)
  | accept (h : Header) (m : RequestMsg)
  | endCall (h : Header) (m : RequestMsg)
  | reply (h : Header) (m : ReplyMsg)
  | clear (h : Header) (m : ClearMsg)
  | dial (h : Header) (m : DialMsg)
  | voice (h : Header) (m : VoiceMsg)
  | report (h : Header) (r : FaultRecord)
  | receipt (h : Header) (trigger count : Nat)
  | data (h : Header) (f : LinkFrame)
  -- medium access (01)
  | contentionPoint
  | slotBegin (slot : Nat)
  | transmissionEnd
  | collision
  | voiceDeadline
  | packetReceive (f : LinkFrame)
  -- noise (03)
  | impulseDetect
  | burst
  | captureExpiry (slot : SlotName)
  | refreshExpiry (slot : SlotName)
  | quietWindowOpen (slot : SlotName)
  | quietWindowClose (slot : SlotName)
  -- line holding (02)
  | noHolderTimeout
  | listenTimeout
  | claimFollowTimeout
  | deferralEnd
  | contestEnd
  -- modem supervision and uplink (04)
  | readyChange (level : Bool)
  | readyTimerExpiry
  | syncRise
  | syncFall
  | trainingTimeout
  | graceTimeout
  | backoffWaitEnd
  | sendOkRise
  | upstreamTransferEnd (told : UpstreamTold)
  | downstreamFrame (began : Tick) (f : LinkFrame)
  | mailboxDelivered
  | mailboxRefused
  | mailboxTimeout
  -- phone ports (05)
  | hookFall (p : PortNo)
  | hookRise (p : PortNo)
  | onHook (p : PortNo)
  | pulseCountClose (p : PortNo)
  | toneDigitEvent (p : PortNo) (k : Key)
  | firstDigitTimeout (p : PortNo)
  | portDigitTimeout (p : PortNo)
  | requestTimeout (p : PortNo)
  | ringBurst
  | exchangeRingingEnd
  | ringDriveTimeout (p : PortNo)
  | intercomRingCadence (p : PortNo)
  | offerRingTimeout (p : PortNo)
  | ringBackTimeout (p : PortNo)
  | holderSilenceTimeout (p : PortNo)
  | farSilenceTimeout (p : PortNo)
  | howlerTimeout (p : PortNo)
  | toneCadence (p : PortNo)
  | loopFaultChange (p : PortNo) (level : Bool)
  -- calls (06)
  | seizeTimeout
  | loopCurrentRise
  | loopCurrentFall
  | lossTimeout
  | partySilenceTimeout (station port : Nat)
  | outpulseBreakEnd
  | outpulseMakeEnd
  | outpulsePauseEnd
  -- line tests, reports, lamp (07, 08)
  | testStepEnd (outOfLimits : Bool)
  | receiptTimeout
  | lampCadence
  -- service port (10)
  | status
  | roster
  | tracks
  | faults
  | calls
  | lineTest
  | forget (id : Nat)
  | restart
  | unknownRequest (name : List Byte)
  | serviceResponseEnd (straps : StrapPins)
  deriving DecidableEq, Repr

end Sys2Proof
end

