-- ==== Sys2Proof/Config.lean ====
section
/-! DEFINITION. What the spec fixes as numbers (durations in ticks, bounds), and the free values it
leaves to chance. The free values are opaque: nothing in Lean can tell what they are (log 8). -/

namespace Sys2Proof.Config

/-- The n-th 16-bit draw, used for tiebreaks (R42: "chosen with equal chance"). -/
opaque draw16 : Nat → BitVec 16

/-- The n-th draw of a whole number, reduced by its user to the bound the rule gives (R15, R16), and
used for the order in which simultaneous timed events are taken (R164, log 1). -/
opaque drawNat : Nat → Nat

/-- The samples of the n-th 10 ms tap that the outside does not give itself: 80 of port 1's codec, 80 of port 2's, 80
of the line's (R106, R164; log 3). -/
opaque drawSample : Nat → Nat → Sample

/-- The 10 ms tap's period (R164). -/
def tapTen : Nat := 400
/-- The 10 s tap's period (R164). -/
def tapSlow : Nat := 400000
/-- 1 s in ticks (00_scope "Station time"), the 1 s tap's period (R164). -/
def second : Nat := 40000
/-- Voice deadline, 5 ms (R10). -/
def voiceDeadline : Nat := 200
/-- LISTEN, 3 s (R32). -/
def listenTime : Nat := 120000
/-- Following a claim, 2 s (R33). -/
def followTime : Nat := 80000
/-- Deferral for each step of rank, 250 ms (R34). -/
def deferralUnit : Nat := 10000
/-- The contest, 500 ms (R35). -/
def contestTime : Nat := 20000
/-- NO_HOLDER, 30 s (R29). -/
def noHolderTime : Nat := 1200000
/-- Refresh of a borrowed slot, 3 s (R63). -/
def refreshTime : Nat := 120000
/-- READY timer, 10 s (R70). -/
def readyTime : Nat := 400000
/-- Training timer, 90 s (R71). -/
def trainingTime : Nat := 3600000
/-- Grace timer, 2 s (R73). -/
def graceTime : Nat := 80000
/-- Backoff unit, 10 s (R74). -/
def backoffUnit : Nat := 400000
/-- Age at which a loss leaves the history, 15 min (R77). -/
def lossAge : Nat := 36000000
/-- Age at which an address leaves the map, 300 s (R84). -/
def addressAge : Nat := 12000000
/-- Mailbox timer, 5 s (R86). -/
def mailboxTime : Nat := 200000
/-- Longest dial pulse is below 140 ms (R90). -/
def pulseLimit : Nat := 5600
/-- Longest flash, 1 s (R90). -/
def flashLimit : Nat := 40000
/-- Pulse count close, 250 ms (R91). -/
def pulseClose : Nat := 10000
/-- First-digit timer, 15 s (R93). -/
def firstDigitTime : Nat := 600000
/-- Port-digit wait, 3 s (R95). -/
def portDigitTime : Nat := 120000
/-- Request timer, 500 ms (R96). -/
def requestTime : Nat := 20000
/-- Exchange ringing, 6 s after the latest burst (R98). -/
def ringingTime : Nat := 240000
/-- Intercom ringing, ring-back and howler limits, 30 s (R98, R100, R104). -/
def ringLimit : Nat := 1200000
/-- Seize timer, 1 s (R118). -/
def seizeTime : Nat := 40000
/-- Loss timer, 400 ms (R119). -/
def lossTime : Nat := 16000
/-- A silence timer, 1 s (R102, R120), and the stale-frame memory (R121). -/
def silenceTime : Nat := 40000
/-- A dial break, 60 ms (R124). -/
def dialBreak : Nat := 2400
/-- A make, 40 ms (R124). -/
def dialMake : Nat := 1600
/-- A flash, 250 ms (R124). -/
def flashBreak : Nat := 10000
/-- The pause, 700 ms (R124). -/
def dialPause : Nat := 28000
/-- A test step, 1 s (R151). -/
def testStep : Nat := 40000
/-- The first test is due 50 s after HOLDING is entered (R149). -/
def firstTest : Nat := 2000000
/-- A recent ring burst, 10 s (R150). -/
def recentRing : Nat := 400000
/-- 12 hours, the longest wait kept in one part (R149). -/
def halfDay : Nat := 1728000000
/-- One hour (R149). -/
def hour : Nat := 144000000
/-- Receipt timer, 30 s (R154). -/
def receiptTime : Nat := 1200000
/-- Idle timer, 120 s (R168). -/
def idleTime : Nat := 4800000
/-- Rejoin timer, 30 s (R167). -/
def rejoinTime : Nat := 1200000
/-- Settle timer, 50 ms (R171). -/
def settleTime : Nat := 2000
/-- Last-gasp window, 800 ticks (R172). -/
def gaspTime : Nat := 800

/-- Capacity of the voice queue (section 1.3). -/
def voiceMax : Nat := 4
/-- Capacity of the control queue (section 1.3). -/
def controlMax : Nat := 8
/-- Capacity of the data queue (section 1.3). -/
def dataMax : Nat := 32
/-- Capacity of the uplink queue, the address map and the outpulse queue (R80, R84, R123). -/
def uplinkMax : Nat := 32
/-- Capacity of the fault list (R144). -/
def faultMax : Nat := 16
/-- Capacity of the report queue (R157). -/
def reportMax : Nat := 24
/-- Shortest and longest period in eighth-ticks (R50). -/
def periodMin : Nat := 160000
/-- See `periodMin`. -/
def periodMax : Nat := 640000

end Sys2Proof.Config
end

