-- ==== Sys2Proof/Machine/State.lean ====
section
/-! DEFINITION. The state of one FL2640: every register, queue, list, counter, timer and mode the spec
gives its ten blocks, the levels of its inputs, and the queue of waiting commands. Plain data. -/

namespace Sys2Proof.Machine

/-- No command of the spec ends in a fault: what the spec calls faults are data (fault records, halt
codes, the stopped chip). The type has no constructor, so no step can end in one: safe. -/
inductive Fault
  deriving DecidableEq, Repr

/-- Why a command can be refused. -/
inductive Refusal
  /-- Raised by a refused arm of `exec` for a command that has no meaning yet; safe. No arm raises it. -/
  | notModelled (mnemonic : String)
  deriving DecidableEq, Repr

/-! ## Start-up and configuration (10) -/

/-- The three phases of the chip: stopped (R175), starting (R177), running. -/
inductive Phase
  | stopped | startUp | running
  deriving DecidableEq, Repr

/-- The configured fields of one trigger (R136). -/
structure TrigCfg where
  mask : BitVec 16
  all : Bool
  inverse : Bool
  severity : Nat
  enabled : Bool
  deriving DecidableEq, Repr

/-- The settings of one port (R178 bytes 3 and 4). -/
structure PortCfg where
  cls : BitVec 2
  rings : Bool
  deriving DecidableEq, Repr

/-- The configuration record in force (R178, R179). -/
structure Cfg where
  portCount : Nat
  stationClass : BitVec 2
  port1 : PortCfg
  port2 : PortCfg
  seizeLevel : BitVec 2
  joinLevel : BitVec 2
  privateFlags : BitVec 16
  defaultProfile : Nat
  testInterval : Nat
  triggers : List TrigCfg
  fromMemory : Bool
  deriving DecidableEq, Repr

/-- The straps as read at the start (R177 step 1). -/
structure Straps where
  id : Nat
  modem : Bool
  deriving DecidableEq, Repr

/-! ## Power controller (09) -/

/-- The farm-wire front end: down; closing, which takes nothing and lets the frame in transmission complete (R13, R169);
settling since a time; or live (R171). -/
inductive FrontEnd
  | down
  | closing
  | settling (start : Tick)
  | live
  deriving DecidableEq, Repr

/-- What has become of the LASTGASP (R174). -/
inductive GaspFate
  | notSent | offered | transmitted | dropped
  deriving DecidableEq, Repr

structure Power where
  state : PowerState
  idle : Option Tick
  rejoin : Option Tick
  frontEnd : FrontEnd
  window : Option Tick
  gasp : GaspFate
  startNumber : Nat
  deriving DecidableEq, Repr

/-! ## Wire controller (01) -/

/-- What a block hands the wire controller. A BEACON, YIELD, HALT and LASTGASP take the rest of their
contents when they start (R4, R40, R44, R174). `serial` tells one CLAIM of this station from another (log 12). -/
inductive Body
  | beacon
  | claim (tiebreak : BitVec 16) (serial : Nat)
  | yield
  | lastgasp (record : FaultRecord) (held : Bool)
  | halt
  | request (k : RequestKind) (m : RequestMsg)
  | reply (m : ReplyMsg)
  | clear (m : ClearMsg)
  | dial (m : DialMsg)
  | voice (m : VoiceMsg)
  | report (r : FaultRecord)
  | receipt (trigger count : Nat)
  | data (f : LinkFrame)
  deriving DecidableEq, Repr

/-- One frame in a transmit queue. `dst` is absent only for an upstream DATA frame that is not yet head (R12).
`sitOut` is how many rounds have still to open before the frame contends again: after a collision the rounds
it sits out, plus one (R16); it contends while this is 0. -/
structure TxEntry where
  dst : Option Nat
  body : Body
  due : Tick
  collisions : Nat
  sitOut : Nat
  backoff : Nat
  inTx : Bool
  flushed : Bool
  deriving DecidableEq, Repr

/-- The frame in transmission: its class, its bytes on the wire and its start, absent for a frame that was in
transmission when a restart began: station time has begun anew, and its end is told to no block (R1, R13, R163, log 54). -/
structure Tx where
  cls : FrameClass
  bytes : List Byte
  start : Option Tick
  deriving DecidableEq, Repr

/-- The receive in progress: the frame start, and whether that start was heard (R6). -/
structure Rx where
  start : Tick
  heard : Bool
  deriving DecidableEq, Repr

/-- The round in progress: the first slot that has not begun (R14). -/
structure Round where
  next : Nat
  deriving DecidableEq, Repr

structure Wire where
  voice : List TxEntry
  control : List TxEntry
  data : List TxEntry
  tx : Option Tx
  rx : Option Rx
  round : Option Round
  collided : Nat
  errors : Nat
  dropped : List Body
  deriving DecidableEq, Repr

/-! ## Hold controller (02) -/

/-- The beacon part of a roster entry, less its tiebreak (R22). -/
structure BeaconPart where
  power : Coded PowerState
  modem : Bool
  eligible : Bool
  cls : BitVec 2
  holdTime : BitVec 32
  deriving DecidableEq, Repr

/-- A roster entry (R22). -/
structure Peer where
  id : Nat
  hold : Coded HoldState
  miss : Nat
  lastHeard : Tick
  tiebreak : Option (BitVec 16)
  part : Option BeaconPart
  block : Option HolderBlock
  halt : Option (Coded HaltCode)
  deriving DecidableEq, Repr

/-- The followed claimer and the time its claim was heard (section 2.4). -/
structure Follow where
  id : Nat
  heard : Tick
  deriving DecidableEq, Repr

structure Hold where
  state : HoldState
  roster : List Peer
  lost : List Nat
  tiebreak : BitVec 16
  halt : Option HaltCode
  eligible : Bool
  listen : Option Tick
  follow : Option Follow
  deferral : Option Tick
  contest : Option Tick
  known : Option Nat
  noHolder : Option Tick
  degraded : Bool
  claimSerial : Nat
  deriving DecidableEq, Repr

/-! ## Noise tracker (03) -/

/-- The lender and the refresh time of a BORROWED slot (R50). -/
structure Lender where
  id : Nat
  refresh : Tick
  deriving DecidableEq, Repr

/-- A slot that is not EMPTY (R50). The slot is BORROWED while it has a lender, else TENTATIVE or LOCKED by
its confidence. `winOpen` is its quiet window (R58), `winIdle` whether the wire was idle since that window's span began:
coinciding windows of the two slots are one span (R14, R53). -/
structure Track where
  period : Nat
  tNext : Tick
  conf : Nat
  missed : Bool
  lender : Option Lender
  winOpen : Bool
  winIdle : Bool
  deriving DecidableEq, Repr

structure Noise where
  a : Option Track
  b : Option Track
  candidates : List Tick
  lastImpulse : Option Tick
  unmatched : Nat
  deriving DecidableEq, Repr

/-! ## Modem supervisor (04) -/

/-- One entry of the address map (R84). -/
structure MapEntry where
  addr : List Byte
  station : Nat
  seen : Tick
  deriving DecidableEq, Repr

/-- A mailbox offer: the copy offered and the mailbox timer's start (R86). -/
structure MailOffer where
  record : FaultRecord
  start : Tick
  deriving DecidableEq, Repr

/-- `timer` is the start of the training, grace or backoff timer, by the state. `syncedAt` is when SYNCED was last
entered, absent when no transfer in progress can have begun before it (log 18). `late` counts the offers withdrawn at the
present station time whose answer may yet arrive (R86; the model's own, log 60). -/
structure Sup where
  state : SupState
  stored : Nat
  inUse : Nat
  timer : Option Tick
  backoffLen : Nat
  losses : List Tick
  holdTime : Nat
  failures : Nat
  step : Nat
  readyTimer : Option Tick
  uplink : List LinkFrame
  map : List MapEntry
  upTransfer : Option LinkFrame
  syncedAt : Option Tick
  mailbox : Option MailOffer
  late : Nat
  deriving DecidableEq, Repr

/-! ## Phone ports (05) -/

/-- A port's call reference (R89): an outside call by holder and call id, or an intercom binding by the far
station and port, the binding reference, and the station whose binding list holds it (R127). -/
inductive CallRef
  | outside (holder id : Nat)
  | intercom (station port ref listAt : Nat)
  deriving DecidableEq, Repr

/-- A port's pending offer (R89): why it rings, or what it has offered; the reference of an offer made is
absent until the GRANT. -/
inductive Pending
  | exchange
  | offerFrom (station port ref : Nat)
  | offered (station port : Nat) (ref : Option Nat)
  deriving DecidableEq, Repr

/-- A port's outstanding request (R89). While `held` (R97) it has no tag and no timer; `target` is an
OFFER's target port. -/
structure OutReq where
  kind : RequestKind
  tag : Nat
  dst : Nat
  target : Nat
  made : Tick
  held : Bool
  deriving DecidableEq, Repr

/-- A playout buffer (R108). -/
structure Playout where
  frames : List (Byte × Speech)
  last : Option Byte
  samples : Speech
  conceal : Nat
  deriving DecidableEq, Repr

/-- The tones of R104; `silent` is no tone. -/
inductive Tone
  | silent | dial | stutter | busy | ringBack | howler | fault
  deriving DecidableEq, Repr

/-- How a tone sounds at a moment of its cadence: not at all, at one level, or rising or falling in level (R104). -/
inductive ToneLevel
  | absent | steady | rising | falling
  deriving DecidableEq, Repr

structure Port where
  state : PortState
  offHook : Bool
  breakStart : Option Tick
  pulses : Nat
  pulseEnd : Option Tick
  digit : Option Nat
  digitAt : Option Tick
  firstDigit : Option Tick
  callRef : Option CallRef
  pending : Option Pending
  outReq : Option OutReq
  playout : Playout
  tone : Tone
  toneStep : Nat
  toneAt : Tick
  lastCause : Option PortCause
  lastRef : Option (Nat × Nat)
  seq : Byte
  ringOn : Bool
  ringAt : Tick
  offerAt : Option Tick
  ringBack : Option Tick
  silence : Option Tick
  howler : Option Tick
  deriving DecidableEq, Repr

structure Ports where
  one : Port
  two : Port
  ringing : Option Tick
  tag : Nat
  deriving DecidableEq, Repr

/-! ## Call controller (06) -/

/-- A party of the outside call (R110). -/
structure Party where
  station : Nat
  port : Nat
  seq : Byte
  playout : Playout
  silence : Tick
  deriving DecidableEq, Repr

/-- The outpulse state (R124): idle; a break of `len` ticks since `start` with `left` breaks to follow; a
make since `start`; the pause since `start`. -/
inductive Outpulse
  | idle
  | breaking (left len : Nat) (start : Tick)
  | making (left : Nat) (start : Tick)
  | pausing (start : Tick)
  deriving DecidableEq, Repr

/-- The line call record (R110). `first` is the first party as it stood at creation (R115). -/
structure CallRecord where
  id : Nat
  seized : Bool
  priv : Bool
  first : Nat × Nat
  parties : List Party
  seize : Option Tick
  loss : Option Tick
  queue : List DialItem
  outpulse : Outpulse
  deriving DecidableEq, Repr

/-- The stale-frame memory (R121). -/
structure Stale where
  station : Nat
  port : Nat
  ref : Nat
  time : Tick
  deriving DecidableEq, Repr

/-- An entry of the binding list (R127). -/
structure Binding where
  ref : Nat
  station : Nat
  port : Nat
  tag : Option Nat
  locals : List PortNo
  connected : Bool
  deriving DecidableEq, Repr

structure Call where
  record : Option CallRecord
  lastId : Nat
  stale : Option Stale
  bindings : List Binding
  lastRef : Nat
  deriving DecidableEq, Repr

/-! ## Fault monitor (07) -/

/-- The runtime fields of a trigger (R136). -/
structure TrigRun where
  last : Bool
  armed : Bool
  rearm : Bool
  deriving DecidableEq, Repr

/-- The lamp's patterns (R147). -/
inductive LampPattern
  | off | steady | fast | slow | double
  deriving DecidableEq, Repr

/-- A line test in TESTING: the step 1 to 3, the results kept (out of limits), the step's start (R149). -/
structure TestRun where
  step : Nat
  results : List Bool
  start : Tick
  deriving DecidableEq, Repr

structure FaultMon where
  conds : BitVec 16
  runs : List TrigRun
  list : List FaultRecord
  gaspRecord : Option FaultRecord
  test : Option TestRun
  due : Option Tick
  rest : Nat
  lastBurst : Option Tick
  lamp : LampPattern
  lampStep : Nat
  lampAt : Tick
  deriving DecidableEq, Repr

/-! ## Report controller (08) -/

/-- The outstanding report (R154). -/
structure OutReport where
  trigger : Nat
  sentCount : Nat
  holder : Nat
  start : Tick
  deriving DecidableEq, Repr

structure Report where
  outstanding : Option OutReport
  queue : List FaultRecord
  deriving DecidableEq, Repr

/-! ## Service port (10) -/

/-- A service request (R181); an unknown one by the bytes of its name. -/
inductive SvcReq
  | status | roster | tracks | faults | calls | lineTest
  | forget (id : Nat)
  | restart
  | unknown (name : List Byte)
  deriving DecidableEq, Repr

/-- Service refusal reasons (section 10.2). -/
inductive SvcReason
  | notHolder | busy | lineInUse | unknown
  deriving DecidableEq, Repr

/-- One fitted port as STATUS shows it (R181). -/
structure PortPic where
  state : PortState
  lastCause : Option PortCause
  lastRef : Option (Nat × Nat)
  deriving DecidableEq, Repr

/-- The contents of an accepted STATUS response (R181). -/
structure StatusPic where
  id : Nat
  modem : Bool
  fromMemory : Bool
  startNumber : Nat
  now : Tick
  power : PowerState
  hold : HoldState
  halt : Option HaltCode
  known : Option Nat
  eligible : Bool
  sup : SupState
  stored : Nat
  inUse : Nat
  broadband : Bool
  holdTime : Nat
  conds : BitVec 16
  lamp : LampPattern
  ports : List PortPic
  test : Option TestRun
  due : Option Tick
  reportLength : Option Nat
  outstanding : Option OutReport
  deriving DecidableEq, Repr

/-- A track slot as TRACKS shows it (R181). -/
structure SlotPic where
  state : SlotState
  track : Option Track
  deriving DecidableEq, Repr

/-- The line call record as CALLS shows it: id, seized, privacy, parties in joining order, outpulse queue
length (R181). -/
structure CallPic where
  id : Nat
  seized : Bool
  priv : Bool
  parties : List (Nat × Nat)
  outpulse : Nat
  deriving DecidableEq, Repr

/-- A response of the service port (R181): it begins with the request it answers. -/
inductive SvcResp
  | refused (r : SvcReq) (why : SvcReason)
  | starting (startNumber : Nat)
  | status (p : StatusPic)
  | roster (peers : List Peer) (lost : List Nat)
  | tracks (a b : SlotPic) (count : Nat) (candidates : List Tick) (unmatched : Nat)
  | faults (list : List FaultRecord) (runs : List TrigRun)
  | calls (record : Option CallPic) (lastId : Nat) (bindings : List Binding)
      (ports : List (Option CallRef × Option Pending))
  | accepted (r : SvcReq)
  deriving DecidableEq, Repr

/-- A request that waits for the response being sent to end, to be taken or to be refused with BUSY (R181). -/
structure SvcWait where
  req : SvcReq
  take : Bool
  deriving DecidableEq, Repr

/-- `restart` says that a restart begins once the response is sent (R182). -/
structure Svc where
  sending : Option SvcResp
  waiting : List SvcWait
  restart : Bool
  deriving DecidableEq, Repr

/-! ## Outputs of one step -/

/-- What a step puts out beside the levels of its output lines (log 13): a frame starting on the farm wire,
a link frame leaving by the packet port, a link frame starting at the modem's upstream port, a report placed
in the mailbox, in the form of R153, or withdrawn from it, samples to the exchange codec or to a port's codec, a service response. -/
inductive Out
  | wireFrame (bytes : List Byte)
  | packet (f : LinkFrame)
  | upstream (f : LinkFrame)
  | mailOffer (bytes : List Byte)
  | mailWithdraw
  | lineCodec (x : Speech)
  | portCodec (p : PortNo) (x : Speech)
  | response (r : SvcResp)
  deriving DecidableEq, Repr

/-! ## The whole state -/

/-- The interval taps that fall on the present station time and have not been handed out (R164; the model's own, log
3). -/
structure Taps where
  ten : Bool
  one : Bool
  slow : Bool
  deriving DecidableEq, Repr

structure State where
  phase : Phase
  now : Tick
  taps : Taps
  straps : Straps
  interface : Bool
  cfg : Cfg
  pins : Pins
  power : Power
  wire : Wire
  hold : Hold
  noise : Noise
  sup : Sup
  ports : Ports
  call : Call
  fault : FaultMon
  report : Report
  svc : Svc
  draws : Nat
  outs : List Out
  pending : List Instr
  deriving DecidableEq, Repr

/-! ## The values after power-up -/

/-- The default triggers (R137). -/
def defaultTriggers : List TrigCfg :=
  [ ⟨0x0001#16, false, false, 1, true⟩, ⟨0x0006#16, false, false, 2, true⟩,
    ⟨0x0028#16, false, false, 2, true⟩, ⟨0x0100#16, false, false, 1, true⟩,
    ⟨0x0080#16, false, false, 3, true⟩, ⟨0x0800#16, false, false, 2, true⟩,
    ⟨0x6000#16, false, false, 3, true⟩, ⟨0x0600#16, false, false, 3, true⟩ ]

/-- The default configuration (R179). -/
def defaultCfg : Cfg where
  portCount := 1
  stationClass := 0
  port1 := ⟨0, true⟩
  port2 := ⟨0, true⟩
  seizeLevel := 3
  joinLevel := 3
  privateFlags := 0
  defaultProfile := 1
  testInterval := 6
  triggers := defaultTriggers
  fromMemory := false

/-- Input levels before the outside has told any: all low (log 6). -/
def lowPins : Pins where
  straps := ⟨0, false⟩
  mains := false
  battLow := false
  battEmpty := false
  ready := false
  sync := false
  sendOk := false
  loopCurrent := false
  hook1 := false
  hook2 := false
  fault1 := false
  fault2 := false
  carrier := false

/-- An empty playout buffer with no frame played (R108). -/
def Playout.fresh : Playout := ⟨[], none, [], 0⟩

/-- A port after power-up and after restart (R89). -/
def Port.start : Port where
  state := .idle
  offHook := false
  breakStart := none
  pulses := 0
  pulseEnd := none
  digit := none
  digitAt := none
  firstDigit := none
  callRef := none
  pending := none
  outReq := none
  playout := Playout.fresh
  tone := .silent
  toneStep := 0
  toneAt := 0
  lastCause := none
  lastRef := none
  seq := 0
  ringOn := false
  ringAt := 0
  offerAt := none
  ringBack := none
  silence := none
  howler := none

/-- The straps as start-up reads them: a rank strap of 0 is rank 8 (R177 step 1). -/
def readStraps (p : StrapPins) : Straps := ⟨if p.rank = 0 then 8 else p.rank.toNat, p.modem⟩

/-- Every block at its value after power-up (R13, R46, R68, R88, R89, R110, R127, R136, R144, R149, R162,
R165, R180), with the levels of the inputs, the draws taken and the waiting commands as given. The tiebreak
is the next draw (R42). The power state, the hold state and the eligibility before completion are placeholders (log
7). No frame is in transmission: a power-up finds none, and a restart puts its own back (R13, `beginRestart`). -/
def State.atStart (pins : Pins) (draws : Nat) (pending : List Instr) : State where
  phase := .startUp
  now := 0
  taps := ⟨false, false, false⟩
  straps := readStraps pins.straps
  interface := false
  cfg := defaultCfg
  pins := pins
  power := ⟨.battery, none, none, .down, none, .notSent, 0⟩
  wire := ⟨[], [], [], none, none, none, 0, 0, []⟩
  hold := ⟨.listen, [], [], Config.draw16 draws, none, false, none, none, none, none, none, none, false, 0⟩
  noise := ⟨none, none, [], none, 0⟩
  sup := ⟨.off, 1, 1, none, 0, [], 0, 0, 0, none, [], [], none, none, none, 0⟩
  ports := ⟨Port.start, Port.start, none, 1⟩
  call := ⟨none, 0, none, [], 0⟩
  fault := ⟨0, List.replicate 8 ⟨false, true, false⟩, [], none, none, none, 0, none, .off, 0, 0⟩
  report := ⟨none, []⟩
  svc := ⟨none, [], false⟩
  draws := draws + 1
  outs := []
  pending := pending

/-- The machine right after reset: just after a power-up, waiting for the configuration read (R177, log 7). -/
def State.reset : State := State.atStart lowPins 0 []

end Sys2Proof.Machine
end

