-- ==== Sys2Proof/Machine/Operands.lean ====
section
/-! DEFINITION. The layouts: farm-wire frames with their codes, check and the five checks of a received
frame (R1 to R5, R7, R19, R153), and the configuration record (R178). -/

namespace Sys2Proof.Machine

/-! ## Bytes -/

/-- A number below 256 as a byte. -/
def byteOf (n : Nat) : Byte := BitVec.ofNat 8 n

def byteOfBool (b : Bool) : Nat := if b then 1 else 0

/-- Least significant byte first (00_scope "Names and values"). -/
def le16 (w : BitVec 16) : List Byte := [w.extractLsb' 0 8, w.extractLsb' 8 8]

def le24 (w : BitVec 24) : List Byte := [w.extractLsb' 0 8, w.extractLsb' 8 8, w.extractLsb' 16 8]

def le32 (w : BitVec 32) : List Byte :=
  [w.extractLsb' 0 8, w.extractLsb' 8 8, w.extractLsb' 16 8, w.extractLsb' 24 8]

def rd16 (a b : Byte) : BitVec 16 := b ++ a

def rd24 (a b c : Byte) : BitVec 24 := c ++ b ++ a

def rd32 (a b c d : Byte) : BitVec 32 := d ++ c ++ b ++ a

/-! ## Fields with a table of codes (log 25) -/

/-- A byte read by its table. -/
def codedRead {α : Type} (of : Nat → Option α) (b : Byte) : Coded α :=
  match of b.toNat with
  | some a => .listed a
  | none => .unlisted b

def codedByte {α : Type} (code : α → Nat) : Coded α → Byte
  | .listed a => byteOf (code a)
  | .unlisted b => b

/-- The code is listed, or it is truly none of the table's. -/
def codedOk {α : Type} (of : Nat → Option α) : Coded α → Bool
  | .listed _ => true
  | .unlisted b => (of b.toNat).isNone

/-! ## The check (R5) -/

/-- One bit of the CRC-16 with polynomial 0x1021, most significant bit first. -/
def crcBit (r : BitVec 16) : BitVec 16 := if r.msb then (r <<< 1) ^^^ 0x1021#16 else r <<< 1

/-- One byte entered into the register. -/
def crcByte (r : BitVec 16) (b : Byte) : BitVec 16 :=
  crcBit (crcBit (crcBit (crcBit (crcBit (crcBit (crcBit (crcBit (r ^^^ (b ++ 0#8)))))))))

/-- The check over a list of bytes: the register starts at all ones, the result is not inverted. -/
def crc (bytes : List Byte) : BitVec 16 := bytes.foldl crcByte 0xFFFF#16

/-! ## Codes (R1, R2, R3, R4, R153) -/

def holdCode : HoldState → Nat
  | .listen => 0 | .passive => 1 | .seeking => 2 | .claiming => 3 | .holding => 4 | .yielding => 5 | .halted => 6

def holdOf : Nat → Option HoldState
  | 0 => some .listen | 1 => some .passive | 2 => some .seeking | 3 => some .claiming
  | 4 => some .holding | 5 => some .yielding | 6 => some .halted | _ => none

def powerCode : PowerState → Nat
  | .full => 0 | .battery => 1 | .watch => 2 | .stop => 3

def powerOf : Nat → Option PowerState
  | 0 => some .full | 1 => some .battery | 2 => some .watch | 3 => some .stop | _ => none

def haltNo : HaltCode → Nat
  | .configBad => 1 | .rankClash => 2 | .wireDead => 3 | .noLineInterface => 4

def haltOf : Nat → Option HaltCode
  | 1 => some .configBad | 2 => some .rankClash | 3 => some .wireDead | 4 => some .noLineInterface | _ => none

def requestCode : RequestKind → Nat
  | .seize => 1 | .answer => 2 | .leave => 3 | .offer => 4 | .accept => 5 | .endCall => 6

def requestOf : Nat → Option RequestKind
  | 1 => some .seize | 2 => some .answer | 3 => some .leave | 4 => some .offer | 5 => some .accept
  | 6 => some .endCall | _ => none

def refusalCode : RefuseCause → Nat
  | .noHolder => 1 | .handover => 2 | .degraded => 3 | .cls => 4 | .priv => 5 | .full => 6 | .lineFault => 7
  | .portBusy => 8 | .noPort => 9 | .noStation => 10 | .halted => 11 | .unlisted b => b.toNat

def refusalOf : Nat → Option RefuseCause
  | 1 => some .noHolder | 2 => some .handover | 3 => some .degraded | 4 => some .cls | 5 => some .priv
  | 6 => some .full | 7 => some .lineFault | 8 => some .portBusy | 9 => some .noPort | 10 => some .noStation
  | 11 => some .halted | _ => none

/-- The answer and cause bytes of a REPLY. -/
def answerCode : Answer → Nat × Nat
  | .grant => (1, 0)
  | .refuse c => (2, refusalCode c)
  | .unlisted a c => (a.toNat, c.toNat)

/-- A GRANT is one whatever stands in the cause's place (log 25). -/
def answerRead (a c : Byte) : Answer :=
  match a.toNat with
  | 1 => .grant
  | 2 => .refuse ((refusalOf c.toNat).getD (.unlisted c))
  | _ => .unlisted a c

def clearCode : ClearCause → Nat
  | .farEnd => 1 | .holderLost => 2 | .lineFault => 3 | .dual => 4 | .partyLimit => 5 | .restart => 6
  | .unlisted b => b.toNat

def clearOf : Nat → Option ClearCause
  | 1 => some .farEnd | 2 => some .holderLost | 3 => some .lineFault | 4 => some .dual | 5 => some .partyLimit
  | 6 => some .restart | _ => none

def dialCode : DialItem → Nat
  | .digit n => n.val
  | .flash => 10

def dialOf (n : Nat) : Option DialItem :=
  if h : n < 10 then some (.digit ⟨n, h⟩) else if n = 10 then some .flash else none

def streamCode : StreamType → Nat
  | .toHolder => 1 | .toParty => 2 | .intercom => 3 | .unlisted b => b.toNat

def streamOf : Nat → Option StreamType
  | 1 => some .toHolder | 2 => some .toParty | 3 => some .intercom | _ => none

def recordCode : RecordState → Nat
  | .new => 0 | .sent => 1 | .reported => 2 | .unlisted b => b.toNat

def recordOf : Nat → Option RecordState
  | 0 => some .new | 1 => some .sent | 2 => some .reported | _ => none

/-! ## Payloads -/

/-- The 13 bytes of a fault record (R153). -/
def recordBytes (r : FaultRecord) : List Byte :=
  [byteOf r.origin, byteOf r.trigger, byteOf r.severity] ++ le16 r.snapshot ++ [byteOf r.startNumber] ++
    le32 r.firstRise ++ [byteOf r.count, byteOf r.sentCount, byteOf (recordCode r.state)]

def recordRead : List Byte → Option FaultRecord
  | [o, t, v, c0, c1, n, t0, t1, t2, t3, k, e, st] =>
    some ⟨o.toNat, t.toNat, v.toNat, rd16 c0 c1, n.toNat, rd32 t0 t1 t2 t3, k.toNat, e.toNat,
      (recordOf st.toNat).getD (.unlisted st)⟩
  | _ => none

/-- The eight bytes of one track (R4). -/
def trackBytes (t : TrackMsg) : List Byte := le32 t.period ++ [t.conf] ++ le24 t.offset

def tracksBytes (ts : List TrackMsg) : List Byte := byteOf ts.length :: ts.flatMap trackBytes

/-- Exactly `n` tracks, nothing after them. -/
def tracksRead : Nat → List Byte → Option (List TrackMsg)
  | 0, [] => some []
  | n + 1, p0 :: p1 :: p2 :: p3 :: c :: o0 :: o1 :: o2 :: rest =>
    (tracksRead n rest).map fun ts => ⟨rd32 p0 p1 p2 p3, c, rd24 o0 o1 o2⟩ :: ts
  | _, _ => none

/-- A track count, which is at most 2 (R3), and its tracks. -/
def countedTracks : List Byte → Option (List TrackMsg)
  | n :: rest => if n.toNat ≤ 2 then tracksRead n.toNat rest else none
  | [] => none

/-- The station flags byte: bit 0 modem present, bit 1 eligible, bits 2–3 class, bits 4–7 zero (R4). -/
def flagsByte (f : BeaconFixed) : Byte :=
  0#4 ++ f.cls ++ BitVec.ofBool f.eligible ++ BitVec.ofBool f.modem

def fixedBytes (f : BeaconFixed) : List Byte :=
  le16 f.tiebreak ++ [codedByte powerCode f.power, flagsByte f] ++ le32 f.holdTime

/-- The eight bytes of the fixed part. -/
def fixedRead (t0 t1 p g h0 h1 h2 h3 : Byte) : BeaconFixed :=
  ⟨rd16 t0 t1, codedRead powerOf p, g.getLsbD 0, g.getLsbD 1, g.extractLsb' 2 2, rd32 h0 h1 h2 h3⟩

/-- Holder flags: bit 0 call, bits 1–2 joiners, bit 3 private, bit 4 degraded, bit 5 broadband, bits 6–7
profile; line status: bit 0 dead, bit 1 leaky, bit 2 foreign (R4). -/
def holderBytes (b : HolderBlock) : List Byte :=
  [b.profile ++ BitVec.ofBool b.broadband ++ BitVec.ofBool b.degraded ++ BitVec.ofBool b.priv ++ b.joiners ++
      BitVec.ofBool b.call,
    0#5 ++ BitVec.ofBool b.foreign ++ BitVec.ofBool b.leaky ++ BitVec.ofBool b.dead]

def holderRead (f l : Byte) : HolderBlock :=
  ⟨f.getLsbD 0, f.extractLsb' 1 2, f.getLsbD 3, f.getLsbD 4, f.getLsbD 5, f.extractLsb' 6 2,
    l.getLsbD 0, l.getLsbD 1, l.getLsbD 2⟩

/-- The held flag in bit 0 and the profile in bits 1–2 (R3, LASTGASP). -/
def gaspByte (held : Bool) (profile : BitVec 2) : Byte := 0#5 ++ profile ++ BitVec.ofBool held

/-- 16-bit samples, least significant byte first. -/
def speechBytes (x : Speech) : List Byte := x.flatMap le16

def speechRead : List Byte → Speech
  | a :: b :: rest => rd16 a b :: speechRead rest
  | _ => []

/-- The kind code (R1). -/
def kindCode : Payload → Nat
  | .beacon _ => 1 | .claim _ => 2 | .yield _ => 3 | .lastgasp _ => 4 | .halt _ => 5 | .request .. => 6
  | .reply _ => 7 | .clear _ => 8 | .dial _ => 9 | .voice _ => 10 | .report _ => 11 | .receipt .. => 12
  | .data _ => 13

/-- The payload's bytes in the order of R3. -/
def payloadBytes : Payload → List Byte
  | .beacon m =>
    fixedBytes m.fixed ++ (match m.holder with | some b => holderBytes b | none => []) ++ tracksBytes m.tracks
  | .claim t => le16 t
  | .yield m => m.profile :: tracksBytes m.tracks
  | .lastgasp m => recordBytes m.record ++ [gaspByte m.held m.profile] ++ tracksBytes m.tracks
  | .halt m => fixedBytes m.fixed ++ [codedByte haltNo m.code]
  | .request k m =>
    [byteOf (requestCode k), byteOf m.port, byteOf m.cls, byteOf m.target, byteOf m.ref, byteOf m.tag]
  | .reply m =>
    [byteOf m.tag, byteOf (answerCode m.answer).1, byteOf (answerCode m.answer).2, byteOf m.refStation,
      byteOf m.refPort, byteOf m.ref]
  | .clear m => [byteOf m.ref, byteOf m.port, byteOf (clearCode m.cause)]
  | .dial m => [byteOf m.ref, byteOf m.port, codedByte dialCode m.item]
  | .voice m =>
    [byteOf (streamCode m.stream), byteOf m.ref, byteOf m.srcPort, byteOf m.dstPort, m.seq] ++
      speechBytes m.samples
  | .report r => recordBytes r
  | .receipt t c => [byteOf t, byteOf c]
  | .data f => f

/-! ## Whole frames -/

/-- The six header bytes (R2). -/
def headerBytes (kind src dst : Nat) (hold : Coded HoldState) (len : Nat) : List Byte :=
  [byteOf kind, byteOf src, byteOf dst, codedByte holdCode hold] ++ le16 (BitVec.ofNat 16 len)

/-- A frame as it goes onto the wire: header, payload, check (R2, R5). -/
def frameBytes (src dst : Nat) (hold : Coded HoldState) (p : Payload) : List Byte :=
  let body := headerBytes (kindCode p) src dst hold (payloadBytes p).length ++ payloadBytes p
  body ++ le16 (crc body)

/-- Airtime in ticks of a frame whose payload holds `p` bytes: 20 µs plus 2 µs a byte, rounded up (R19). -/
def airtime (p : Nat) : Nat := (20 + 2 * (8 + p) + 24) / 25

/-- Whether `len` is a legal payload length for the kind code, with the track count read from the payload
where the kind carries one (R3, R153). -/
def lengthLegal (kind : Nat) (hold : Byte) (payload : List Byte) : Bool :=
  let len := payload.length
  let tracksAt (i : Nat) : Bool :=
    match payload[i]? with
    | some n => decide (n.toNat ≤ 2) && decide (len = i + 1 + 8 * n.toNat)
    | none => false
  match kind with
  | 1 => if hold.toNat = 4 then tracksAt 10 else tracksAt 8
  | 2 => len = 2
  | 3 => tracksAt 1
  | 4 => tracksAt 14
  | 5 => len = 9
  | 6 => len = 6
  | 7 => len = 6
  | 8 => len = 3
  | 9 => len = 3
  | 10 => len = 165
  | 11 => len = 13
  | 12 => len = 2
  | 13 => decide (14 ≤ len) && decide (len ≤ 1536)
  | _ => false

/-- A checked payload's contents by kind; none for a REQUEST whose kind R3 does not list, which has no contents that
any rule reads (log 25). -/
def payloadRead (kind : Nat) (hold : Byte) (p : List Byte) : Option Payload :=
  match kind with
  | 1 =>
    match p with
    | t0 :: t1 :: pw :: g :: h0 :: h1 :: h2 :: h3 :: rest =>
      if hold.toNat = 4 then
        match rest with
        | f :: l :: ts =>
          (countedTracks ts).map fun tr => .beacon ⟨fixedRead t0 t1 pw g h0 h1 h2 h3, some (holderRead f l), tr⟩
        | _ => none
      else (countedTracks rest).map fun tr => .beacon ⟨fixedRead t0 t1 pw g h0 h1 h2 h3, none, tr⟩
    | _ => none
  | 2 => match p with | [a, b] => some (.claim (rd16 a b)) | _ => none
  | 3 => match p with | pr :: ts => (countedTracks ts).map fun tr => .yield ⟨pr, tr⟩ | _ => none
  | 4 =>
    (recordRead (p.take 13)).bind fun r =>
      match p.drop 13 with
      | g :: ts => (countedTracks ts).map fun tr => .lastgasp ⟨r, g.getLsbD 0, g.extractLsb' 1 2, tr⟩
      | [] => none
  | 5 =>
    match p with
    | [t0, t1, pw, g, h0, h1, h2, h3, c] => some (.halt ⟨fixedRead t0 t1 pw g h0 h1 h2 h3, codedRead haltOf c⟩)
    | _ => none
  | 6 =>
    match p with
    | [k, po, c, t, r, g] =>
      (requestOf k.toNat).map fun kind => .request kind ⟨po.toNat, c.toNat, t.toNat, r.toNat, g.toNat⟩
    | _ => none
  | 7 =>
    match p with
    | [g, a, c, rs, rp, r] => some (.reply ⟨g.toNat, answerRead a c, rs.toNat, rp.toNat, r.toNat⟩)
    | _ => none
  | 8 =>
    match p with
    | [r, po, c] => some (.clear ⟨r.toNat, po.toNat, (clearOf c.toNat).getD (.unlisted c)⟩)
    | _ => none
  | 9 => match p with | [r, po, d] => some (.dial ⟨r.toNat, po.toNat, codedRead dialOf d⟩) | _ => none
  | 10 =>
    match p with
    | st :: r :: sp :: dp :: sq :: x =>
      some (.voice ⟨(streamOf st.toNat).getD (.unlisted st), r.toNat, sp.toNat, dp.toNat, sq, speechRead x⟩)
    | _ => none
  | 11 => (recordRead p).map .report
  | 12 => match p with | [t, c] => some (.receipt t.toNat c.toNat) | _ => none
  | 13 => some (.data p)
  | _ => none

/-- What a burst of carrier turns into (R6, R7): a fragment, a damaged frame, a checked frame, or a checked REQUEST of
a kind that R3 does not list (log 25). -/
inductive Received
  | fragment
  | damaged
  | checked (h : Header) (p : Payload)
  | nameless (h : Header)
  deriving DecidableEq, Repr

/-- The five checks of R7 on 8 bytes or more. -/
def fiveChecks (kind src dst hold l0 l1 : Byte) (rest : List Byte) : Bool :=
  let len := (rd16 l0 l1).toNat
  let payload := rest.take len
  let all := [kind, src, dst, hold, l0, l1] ++ payload
  decide (rest.length = len + 2) && decide (len ≤ 1536) &&
    decide (rest.drop len = le16 (crc all)) &&
    decide (1 ≤ kind.toNat) && decide (kind.toNat ≤ 13) &&
    lengthLegal kind.toNat hold payload &&
    decide (1 ≤ src.toNat) && decide (src.toNat ≤ 8) && decide (dst.toNat ≤ 8)

/-- The receive path's reading of the bytes of one burst of carrier (R6, R7). -/
def receiveBytes (bytes : List Byte) : Received :=
  if bytes.length < 8 then .fragment
  else
    match bytes with
    | kind :: src :: dst :: hold :: l0 :: l1 :: rest =>
      if fiveChecks kind src dst hold l0 l1 rest then
        let h : Header := ⟨src.toNat, dst.toNat, codedRead holdOf hold⟩
        match payloadRead kind.toNat hold (rest.take (rd16 l0 l1).toNat) with
        | some p => .checked h p
        | none => .nameless h
      else .damaged
    | _ => .fragment

/-! ## The configuration record (R178) -/

/-- One trigger from its mask and control byte; a severity of 0 becomes 1 (R136, R178). -/
def trigRead (m0 m1 c : Byte) : TrigCfg where
  mask := rd16 m0 m1
  all := c.getLsbD 0
  inverse := c.getLsbD 1
  severity := if (c.extractLsb' 2 2).toNat = 0 then 1 else (c.extractLsb' 2 2).toNat
  enabled := c.getLsbD 4

def trigsRead : List Byte → List TrigCfg
  | a :: b :: c :: rest => trigRead a b c :: trigsRead rest
  | _ => []

def portRead (b : Byte) : PortCfg := ⟨b.extractLsb' 0 2, b.getLsbD 2⟩

/-- The sum of bytes 0 to 33 modulo 65 536 (R178). -/
def sumCheck (bytes : List Byte) : BitVec 16 :=
  BitVec.ofNat 16 ((bytes.take 34).map BitVec.toNat).sum

def byteAt (bytes : List Byte) (i : Nat) : Byte := bytes.getD i 0

/-- Format byte 1 and an agreeing sum (R178, Good). -/
def recordGood (bytes : List Byte) : Bool :=
  decide (byteAt bytes 0 = 1) &&
    decide (rd16 (byteAt bytes 34) (byteAt bytes 35) = sumCheck bytes)

/-- The port count of a good record, clamped (R178). -/
def portCountRead (bytes : List Byte) : Nat := max 1 (min 2 (byteAt bytes 1).toNat)

/-- The settings of port 2: byte 4 is ignored when the port count is 1, and the default settings then stand for a port
that the station does not have (R178, R179, log 66). -/
def port2Read (bytes : List Byte) : PortCfg :=
  if portCountRead bytes = 2 then portRead (byteAt bytes 4) else defaultCfg.port2

/-- The fields of a good record, clamped (R178). -/
def cfgRead (bytes : List Byte) : Cfg where
  portCount := portCountRead bytes
  stationClass := (byteAt bytes 2).extractLsb' 0 2
  port1 := portRead (byteAt bytes 3)
  port2 := port2Read bytes
  seizeLevel := (byteAt bytes 5).extractLsb' 0 2
  joinLevel := (byteAt bytes 5).extractLsb' 2 2
  privateFlags := rd16 (byteAt bytes 6) (byteAt bytes 7)
  defaultProfile := min 3 (byteAt bytes 8).toNat
  testInterval := min 24 (byteAt bytes 9).toNat
  triggers := trigsRead ((bytes.drop 10).take 24)
  fromMemory := true

/-- The outcome of the read: the configuration in force, and whether the record was bad (R178, R179). -/
def readConfig : ConfigRead → Cfg × Bool
  | .absent => (defaultCfg, false)
  | .answered bytes => if recordGood bytes then (cfgRead bytes, false) else (defaultCfg, true)

/-! ## Small operand helpers -/

/-- Condition numbers 0 to 15 (section 7.1). -/
def condNo : Cond → Nat
  | .lineDead => 0 | .lineLeaky => 1 | .lineForeign => 2 | .syncUnstable => 3 | .modemAbsent => 4
  | .trainFail => 5 | .noiseTracked => 6 | .noiseHeavy => 7 | .noHolder => 8 | .peerLost => 9
  | .wireErrors => 10 | .mainsOff => 11 | .batteryLow => 12 | .portParked => 13 | .portShort => 14
  | .rankClash => 15

/-- A port's number, 1 or 2. -/
def portNo : PortNo → Nat
  | .one => 1
  | .two => 2

/-- The port of a number carried by a frame, if it is 1 or 2. -/
def portOf : Nat → Option PortNo
  | 1 => some .one
  | 2 => some .two
  | _ => none

def otherPort : PortNo → PortNo
  | .one => .two
  | .two => .one

/-- The class of a frame's kind (R1). -/
def bodyClass : Body → FrameClass
  | .voice _ => .voice
  | .data _ => .data
  | _ => .control

end Sys2Proof.Machine
end

