-- ==== Sys2Proof/Machine/Ops.lean ====
section
/-! DEFINITION. The named operations every block shares: one updater for each part of the state, the levels of
the inputs, outputs, draws, timers, ports and track slots by name, and the answers the blocks read from one
another (R22, R28, R30). -/

namespace Sys2Proof.Machine

/-! ## Updaters, one for each part -/

def State.modPower (f : Power → Power) (s : State) : State := { s with power := f s.power }
def State.modWire (f : Wire → Wire) (s : State) : State := { s with wire := f s.wire }
def State.modHold (f : Hold → Hold) (s : State) : State := { s with hold := f s.hold }
def State.modNoise (f : Noise → Noise) (s : State) : State := { s with noise := f s.noise }
def State.modSup (f : Sup → Sup) (s : State) : State := { s with sup := f s.sup }
def State.modPorts (f : Ports → Ports) (s : State) : State := { s with ports := f s.ports }
def State.modCall (f : Call → Call) (s : State) : State := { s with call := f s.call }
def State.modFault (f : FaultMon → FaultMon) (s : State) : State := { s with fault := f s.fault }
def State.modReport (f : Report → Report) (s : State) : State := { s with report := f s.report }
def State.modSvc (f : Svc → Svc) (s : State) : State := { s with svc := f s.svc }

def State.modTaps (f : Taps → Taps) (s : State) : State := { s with taps := f s.taps }

/-- An input's level as the outside tells it; it is followed in every phase (log 6). -/
def State.tell (f : Pins → Pins) (s : State) : State := { s with pins := f s.pins }

/-- Something put out in this step. -/
def State.emit (o : Out) (s : State) : State := { s with outs := s.outs ++ [o] }

/-- Nothing put out yet in this step (log 13). -/
def State.quiet (s : State) : State := { s with outs := [] }

/-- One more free value taken (log 8). -/
def State.drew (s : State) : State := { s with draws := s.draws + 1 }

/-- A draw "with equal chance from 0 to `bound` − 1" (R15, R16); with one choice nothing is drawn. -/
def drawBelow (bound draws : Nat) : Nat := if bound ≤ 1 then 0 else Config.drawNat draws % bound

/-! ## Timers (R163) -/

/-- A timer that is running and has reached its length. -/
def timerOut (now : Tick) (t : Option Tick) (len : Nat) : Bool :=
  match t with
  | some t => ranOut now t len
  | none => false

/-- A remembered time that lies at most `len` before now; a time ahead of now is not within (log 21). -/
def within (now t : Tick) (len : Nat) : Bool := decide (0 ≤ elapsed now t) && decide (elapsed now t ≤ len)

/-! ## The station's own facts -/

def State.own (s : State) : Nat := s.straps.id

def State.live (s : State) : Bool := decide (s.power.frontEnd = .live)

def State.halted (s : State) : Bool := decide (s.hold.state = .halted)

def State.holding (s : State) : Bool := decide (s.hold.state = .holding)

def State.full (s : State) : Bool := decide (s.power.state = .full)

/-- PWR-EN: on while the power state is FULL and the modem-present strap is set (R69). -/
def State.pwrEn (s : State) : Bool := decide (s.phase = .running) && s.full && s.straps.modem

/-- One condition of the condition set (section 7.1). -/
def State.cond (c : Cond) (s : State) : Bool := s.fault.conds.getLsbD (condNo c)

/-- The station is eligible to claim the line (R30). -/
def State.eligibleNow (s : State) : Bool :=
  s.straps.modem && s.full && !s.cond .modemAbsent && s.power.rejoin.isNone && !s.halted

/-! ## Roster reading (R22) -/

def State.peer (id : Nat) (s : State) : Option Peer := s.hold.roster.find? fun p => decide (p.id = id)

/-- The station class of a requester, 3 where its beacon part is absent; the own one from the configuration
(R22, R111). -/
def State.classOf (id : Nat) (s : State) : Nat :=
  if id = s.own then s.cfg.stationClass.toNat
  else
    match (s.peer id).bind (·.part) with
    | some b => b.cls.toNat
    | none => 3

/-- Whether a station's roster entry announces broadband up (R22, R37). -/
def State.broadbandOf (id : Nat) (s : State) : Bool :=
  match (s.peer id).bind (·.block) with
  | some b => b.broadband
  | none => false

/-- The holder candidates with their outside call flags (R28). -/
def State.candidates (s : State) : List (Nat × Bool) :=
  ((s.hold.roster.filter fun p => decide (p.hold = .listed .holding)).map fun p =>
      (p.id, match p.block with | some b => b.call | none => false)) ++
    (if s.holding then [(s.own, s.call.record.isSome)] else [])

def lowestId : List (Nat × Bool) → Option Nat
  | [] => none
  | (i, _) :: rest =>
    match lowestId rest with
    | some j => some (min i j)
    | none => some i

/-- The keeper rule over the candidates (R28). -/
def keeper (cs : List (Nat × Bool)) : Option Nat :=
  match lowestId (cs.filter (·.2)) with
  | some i => some i
  | none => lowestId cs

def State.computeHolder (s : State) : Option Nat := keeper s.candidates

/-! ## Ports -/

def Ports.get (ps : Ports) : PortNo → Port
  | .one => ps.one
  | .two => ps.two

def Ports.set (ps : Ports) (x : Port) : PortNo → Ports
  | .one => { ps with one := x }
  | .two => { ps with two := x }

def State.port (n : PortNo) (s : State) : Port := s.ports.get n

def State.modPort (n : PortNo) (f : Port → Port) (s : State) : State :=
  s.modPorts fun ps => ps.set (f (ps.get n)) n

/-- Whether the configuration fits the port (R89). -/
def State.fitted (n : PortNo) (s : State) : Bool :=
  match n with
  | .one => true
  | .two => decide (s.cfg.portCount = 2)

def State.fittedPorts (s : State) : List PortNo := if s.cfg.portCount = 2 then [.one, .two] else [.one]

def State.portCfg (n : PortNo) (s : State) : PortCfg :=
  match n with
  | .one => s.cfg.port1
  | .two => s.cfg.port2

/-- The loop fault input of a port. -/
def faultLevel (p : Pins) : PortNo → Bool
  | .one => p.fault1
  | .two => p.fault2

/-- The hook input of a port: set while loop current flows. -/
def hookLevel (p : Pins) : PortNo → Bool
  | .one => p.hook1
  | .two => p.hook2

def setHook (b : Bool) (p : Pins) : PortNo → Pins
  | .one => { p with hook1 := b }
  | .two => { p with hook2 := b }

def setFault (b : Bool) (p : Pins) : PortNo → Pins
  | .one => { p with fault1 := b }
  | .two => { p with fault2 := b }

/-- One action at each fitted port, port 1 first (log 9). -/
def State.eachPort (f : PortNo → State → State) (s : State) : State :=
  s.fittedPorts.foldl (fun s n => f n s) s

/-! ## Track slots (R50, R51) -/

def Noise.slot (n : Noise) : SlotName → Option Track
  | .a => n.a
  | .b => n.b

def Noise.setSlot (n : Noise) (t : Option Track) : SlotName → Noise
  | .a => { n with a := t }
  | .b => { n with b := t }

def otherSlot : SlotName → SlotName
  | .a => .b
  | .b => .a

/-- The rounded period (R51). -/
def rounded (period : Nat) : Nat := (period + 4) / 8

/-- A computed period brought into range (R51). -/
def clampPeriod (p : Int) : Nat :=
  if p < Config.periodMin then Config.periodMin else if (Config.periodMax : Int) < p then Config.periodMax else p.toNat

/-- LOCKED or BORROWED: the slots that set quiet windows (R58). -/
def Track.firm (t : Track) : Bool := t.lender.isSome || decide (4 ≤ t.conf)

/-- An own LOCKED slot: the slots a station lends (R4). -/
def Track.lockedOwn (t : Track) : Bool := t.lender.isNone && decide (4 ≤ t.conf)

/-- A slot's state (R50). -/
def slotState : Option Track → SlotState
  | none => .empty
  | some t => if t.lender.isSome then .borrowed else if 4 ≤ t.conf then .locked else .tentative

def firmCount (t : Option Track) : Nat :=
  match t with
  | some t => if t.firm then 1 else 0
  | none => 0

/-- The tracked count (R59). -/
def Noise.tracked (n : Noise) : Nat := firmCount n.a + firmCount n.b

/-- Whether the present time lies in the slot's quiet window (R58). -/
def Track.inSpan (now : Tick) (t : Track) : Bool :=
  t.firm && decide (-12 ≤ elapsed now t.tNext) && decide (elapsed now t.tNext ≤ 20)

def openNow (t : Option Track) : Bool :=
  match t with
  | some t => t.winOpen
  | none => false

/-- Any quiet window open. -/
def Noise.anyOpen (n : Noise) : Bool := openNow n.a || openNow n.b

/-! ## Lists -/

/-- The first element that satisfies `p`, changed by `f`. -/
def updFirst {α : Type} (p : α → Bool) (f : α → α) : List α → List α
  | [] => []
  | x :: xs => if p x then f x :: xs else x :: updFirst p f xs

end Sys2Proof.Machine
end

