-- ==== Sys2Proof/Machine/Flags.lean ====
section
/-! DEFINITION. The condition set, the trigger expressions, rises and falls, the fault list and the lamp
(07: R133 to R148). -/

namespace Sys2Proof.Machine

/-! ## Conditions and expressions -/

def condBit (c : Cond) : BitVec 16 := 1#16 <<< condNo c

/-- A condition set with one condition written. -/
def writeCond (v : BitVec 16) (c : Cond) (b : Bool) : BitVec 16 :=
  if b then v ||| condBit c else v &&& ~~~condBit c

/-- A trigger's expression over a condition set (R138). -/
def exprValue (t : TrigCfg) (v : BitVec 16) : Bool :=
  let w := if t.inverse then ~~~v else v
  if t.mask = 0 then false
  else if t.all then decide (w &&& t.mask = t.mask)
  else decide (w &&& t.mask ≠ 0)

/-! ## The fault list -/

/-- NEW or SENT (R139). -/
def unsettled (r : FaultRecord) : Bool := decide (r.state ≠ .reported)

/-- The outstanding record of trigger `n`. -/
def outstandingOf (n : Nat) (r : FaultRecord) : Bool := decide (r.trigger = n) && unsettled r

/-- The pair that names an entry of a report queue (R157). -/
def sameKey (r e : FaultRecord) : Bool := decide (r.origin = e.origin) && decide (r.trigger = e.trigger)

def modRun (n : Nat) (f : TrigRun → TrigRun) (s : State) : State :=
  s.modFault fun m => { m with runs := m.runs.modify n f }

/-- What a trigger does when its record stops being outstanding (R141). -/
def rearmRun (r : TrigRun) : TrigRun := if r.last then { r with rearm := true } else { r with armed := true }

def recordGone (n : Nat) (s : State) : State := modRun n rearmRun s

/-- A record as a trigger creates it (R143). -/
def freshRecord (n severity : Nat) (s : State) : FaultRecord where
  origin := s.own
  trigger := n
  severity := severity
  snapshot := s.fault.conds
  startNumber := s.power.startNumber
  firstRise := s.now
  count := 1
  sentCount := 0
  state := .new

def setFaultList (l : List FaultRecord) (s : State) : State := s.modFault fun m => { m with list := l }

/-- A NEW record of severity 3: what step 2 of R144 removes. -/
def spareRecord (r : FaultRecord) : Bool := decide (r.state = .new) && decide (r.severity = 3)

/-- Room for one record of the given severity, by the first step of R144 that applies; none when the rise is
dropped. -/
def makeRoom (severity : Nat) (s : State) : Option State :=
  if s.fault.list.length < Config.faultMax then some s
  else
    match s.fault.list.find? fun r => decide (r.state = .reported) with
    | some _ => some (setFaultList (s.fault.list.eraseP fun r => decide (r.state = .reported)) s)
    | none =>
      if severity ≤ 2 then
        match s.fault.list.find? spareRecord with
        | some r => some (recordGone r.trigger (setFaultList (s.fault.list.eraseP spareRecord) s))
        | none => none
      else none

/-- An armed trigger's rise: a record if there is room, and the trigger disarmed (R139, R143). -/
def createRecord (n : Nat) (t : TrigCfg) (s : State) : State :=
  match makeRoom t.severity s with
  | some s' =>
    modRun n (fun r => { r with armed := false })
      (setFaultList (s'.fault.list ++ [freshRecord n t.severity s]) s')
  | none => s

def bumpCount (r : FaultRecord) : FaultRecord := { r with count := min 255 (r.count + 1) }

/-- At the holder, a SENT record with its entry in the report queue is rewritten there (R158). -/
def rewriteQueued (n : Nat) (s : State) : State :=
  match s.fault.list.find? fun r => outstandingOf n r && decide (r.state = .sent) with
  | some r =>
    if s.report.queue.any (sameKey r) then
      { s with
        fault := { s.fault with
          list := s.fault.list.map fun x => if outstandingOf n x then { r with sentCount := r.count } else x }
        report := { s.report with
          queue := s.report.queue.map fun e => if sameKey r e then { r with sentCount := r.count } else e } }
    else s
  | none => s

/-- A rise counted against the outstanding record (R139). -/
def coalesce (n : Nat) (s : State) : State :=
  let s' := setFaultList (s.fault.list.map fun r => if outstandingOf n r then bumpCount r else r) s
  if s.holding then rewriteQueued n s' else s'

/-- A rise (R139). -/
def rise (n : Nat) (t : TrigCfg) (r : TrigRun) (s : State) : State :=
  if r.armed then createRecord n t s
  else if s.fault.list.any (outstandingOf n) then coalesce n s
  else s

/-- What a fall does to the trigger (R140). -/
def fallRun (r : TrigRun) : TrigRun := if r.rearm then { r with rearm := false, armed := true } else r

/-- One trigger compared with its last value (R138). -/
def evalTrigger (s : State) (n : Nat) : State :=
  match s.cfg.triggers[n]?, s.fault.runs[n]? with
  | some t, some r =>
    if t.enabled && decide (exprValue t s.fault.conds ≠ r.last) then
      if r.last then modRun n (fun q => { fallRun q with last := false }) s
      else modRun n (fun q => { q with last := true }) (rise n t r s)
    else s
  | _, _ => s

/-- Every trigger in ascending number (R138). -/
def evalTriggers (s : State) : State := [0, 1, 2, 3, 4, 5, 6, 7].foldl evalTrigger s

/-- A change of the condition set, taken whole with its evaluation (R133). -/
def setConds (v : BitVec 16) (s : State) : State :=
  if v = s.fault.conds then s else evalTriggers (s.modFault fun m => { m with conds := v })

/-- A change of one condition (R133). -/
def setCond (c : Cond) (b : Bool) (s : State) : State := setConds (writeCond s.fault.conds c b) s

/-! ## Alert and lamp -/

/-- The severity-1 alert (R148). -/
def State.alert (s : State) : Bool := s.fault.list.any fun r => decide (r.severity = 1) && unsettled r

def worstIs (severity : Nat) (l : List FaultRecord) : Bool :=
  l.any fun r => decide (r.severity = severity) && unsettled r

/-- The lamp's pattern (R147). -/
def State.lampWanted (s : State) : LampPattern :=
  if s.halted then .double
  else if worstIs 1 s.fault.list then .steady
  else if worstIs 2 s.fault.list then .fast
  else if worstIs 3 s.fault.list then .slow
  else .off

/-- The pattern chosen afresh; its cadence begins when it changes (R147). -/
def settleLamp (s : State) : State :=
  if s.lampWanted = s.fault.lamp then s
  else s.modFault fun m => { m with lamp := s.lampWanted, lampStep := 0, lampAt := s.now }

/-- The lengths of a pattern's periods, on first (R147). -/
def lampSteps : LampPattern → List Nat
  | .off => []
  | .steady => []
  | .fast => [8000, 8000]
  | .slow => [40000, 40000]
  | .double => [8000, 8000, 8000, 56000]

/-- Whether the lamp is lit: dark until completion and when stopped (R147, R175, R180). -/
def State.lampOn (s : State) : Bool :=
  decide (s.phase = .running) &&
    (match s.fault.lamp with
    | .off => false
    | .steady => true
    | _ => decide (s.fault.lampStep % 2 = 0))

end Sys2Proof.Machine
end

