-- ==== Sys2Proof/Machine/Wire.lean ====
section
/-! DEFINITION. The wire controller: the three transmit queues, rounds and slots, the building of frames and the
quiet-window check (01: R1 to R21). -/

namespace Sys2Proof.Machine

/-! ## Queues (section 1.3) -/

def Wire.queue (w : Wire) : FrameClass → List TxEntry
  | .voice => w.voice
  | .control => w.control
  | .data => w.data

def Wire.setQueue (w : Wire) (q : List TxEntry) : FrameClass → Wire
  | .voice => { w with voice := q }
  | .control => { w with control := q }
  | .data => { w with data := q }

/-- A frame as it joins a queue: no collisions, so k is 0 (R15, R16). -/
def newEntry (dst : Option Nat) (b : Body) (now : Tick) : TxEntry := ⟨dst, b, now, 0, 0, 0, false, false⟩

/-- A control frame's drop on its way to the block that offered it (R1, log 10). -/
def noteDropped (b : Body) (s : State) : State := s.modWire fun w => { w with dropped := w.dropped ++ [b] }

def waiting (e : TxEntry) : Bool := !e.inTx

/-- A VOICE frame handed to the wire controller (R10, R13). -/
def offerVoice (dst : Nat) (m : VoiceMsg) (s : State) : State :=
  if s.halted then s
  else
    s.modWire fun w =>
      { w with
        voice :=
          (if w.voice.length < Config.voiceMax then w.voice
            else (w.voice.eraseP waiting).take (Config.voiceMax - 1)) ++ [newEntry (some dst) (.voice m) s.now] }

def waitingBeacon (e : TxEntry) : Bool := !e.inTx && decide (e.body = .beacon)

/-- A control frame handed to the wire controller (R11, R18). -/
def offerControl (dst : Nat) (b : Body) (s : State) : State :=
  if s.halted && decide (b ≠ .halt) then noteDropped b s
  else if s.wire.control.length < Config.controlMax then
    s.modWire fun w => { w with control := w.control ++ [newEntry (some dst) b s.now] }
  else if b = .beacon then noteDropped b s
  else if s.wire.control.any waitingBeacon then
    noteDropped .beacon
      (s.modWire fun w => { w with control := w.control.eraseP waitingBeacon ++ [newEntry (some dst) b s.now] })
  else noteDropped b s

/-- A LASTGASP at the head, behind a frame in transmission; the last in order makes room (R11). -/
def placeGasp (e : TxEntry) (q : List TxEntry) : List TxEntry :=
  match if q.length < Config.controlMax then q else q.dropLast with
  | [] => [e]
  | h :: t => if h.inTx then h :: e :: t else e :: h :: t

def offerGasp (r : FaultRecord) (held : Bool) (s : State) : State :=
  s.modWire fun w => { w with control := placeGasp (newEntry (some 0) (.lastgasp r held) s.now) w.control }

/-- A DATA frame offered to the data queue: upstream without a destination, downstream with the supervisor's
(R12, R13, R18). -/
def offerData (dst : Option Nat) (f : LinkFrame) (s : State) : State :=
  if s.halted || !s.full || decide (Config.dataMax ≤ s.wire.data.length) then s
  else s.modWire fun w => { w with data := w.data ++ [newEntry dst (.data f) s.now] }

/-- What a bulk flush leaves of a queue: a frame in transmission, marked (R13). -/
def flushQueue (q : List TxEntry) : List TxEntry :=
  (q.filter (·.inTx)).map fun e => { e with flushed := true }

def flushData (s : State) : State := s.modWire fun w => { w with data := flushQueue w.data }

/-- All three queues emptied, and the receive path with them (R6, R13, R18). -/
def flushAll (s : State) : State :=
  s.modWire fun w =>
    { w with
      voice := flushQueue w.voice
      control := flushQueue w.control
      data := flushQueue w.data
      rx := none
      dropped := w.dropped ++ (w.control.filter waiting).map (·.body) }

/-! ## Building a frame (R2, R4, R37) -/

def beaconFixed (s : State) : BeaconFixed where
  tiebreak := s.hold.tiebreak
  power := .listed s.power.state
  modem := s.straps.modem
  eligible := s.hold.eligible
  cls := s.cfg.stationClass
  holdTime := BitVec.ofNat 32 s.sup.holdTime

/-- The holder block of a HOLDING station's beacon (R37). -/
def holderBlock (s : State) : HolderBlock where
  call := s.call.record.isSome
  joiners := match s.call.record with | some r => BitVec.ofNat 2 r.parties.length | none => 0
  priv := match s.call.record with | some r => r.priv | none => false
  degraded := s.hold.degraded
  broadband := decide (s.sup.state = .synced)
  profile := BitVec.ofNat 2 s.sup.inUse
  dead := s.cond .lineDead
  leaky := s.cond .lineLeaky
  foreign := s.cond .lineForeign

/-- A LOCKED slot's offset from a frame start: a prediction before it steps a rounded period first (R4). -/
def trackOffset (start : Tick) (t : Track) : Int :=
  let d := -(elapsed start t.tNext)
  if d < 0 then d + rounded t.period else d

def trackMsg (start : Tick) (t : Track) : TrackMsg :=
  ⟨BitVec.ofNat 32 t.period, BitVec.ofNat 8 t.conf, BitVec.ofInt 24 (trackOffset start t)⟩

def slotMsg (start : Tick) : Option Track → List TrackMsg
  | some t => if t.lockedOwn then [trackMsg start t] else []
  | none => []

/-- The own LOCKED slots, A before B (R4). -/
def lentTracks (s : State) : List TrackMsg := slotMsg s.now s.noise.a ++ slotMsg s.now s.noise.b

/-- The contents a frame has if it starts now (R4, R40, R44, R174). -/
def payloadNow (s : State) : Body → Payload
  | .beacon => .beacon ⟨beaconFixed s, if s.holding then some (holderBlock s) else none, lentTracks s⟩
  | .claim t _ => .claim t
  | .yield => .yield ⟨byteOf s.sup.stored, lentTracks s⟩
  | .lastgasp r held =>
    .lastgasp ⟨r, held, BitVec.ofNat 2 s.sup.stored, if held then lentTracks s else []⟩
  | .halt => .halt ⟨beaconFixed s, .listed (s.hold.halt.getD .configBad)⟩
  | .request k m => .request k m
  | .reply m => .reply m
  | .clear m => .clear m
  | .dial m => .dial m
  | .voice m => .voice m
  | .report r => .report r
  | .receipt t c => .receipt t c
  | .data f => .data f

/-- The bytes of a queued frame if it starts now (R2, R5). -/
def bytesNow (s : State) (e : TxEntry) : List Byte :=
  frameBytes s.own (e.dst.getD 0) (.listed s.hold.state) (payloadNow s e.body)

/-! ## Rounds and slots (R14, R20, R21) -/

/-- No carrier on the wire and no transmission of its own. -/
def State.wireIdle (s : State) : Bool := s.wire.tx.isNone && !s.pins.carrier

def sitRound (e : TxEntry) : TxEntry := { e with sitOut := e.sitOut - 1 }

/-- A round opens: frames that sit rounds out count this one (R14, R16). -/
def openRound (s : State) : State :=
  s.modWire fun w =>
    { w with round := some ⟨0⟩, voice := w.voice.map sitRound, control := w.control.map sitRound }

/-- A round opens if the front end is live, no frame is in transmission and no carrier is heard (R14). -/
def contend (s : State) : State := if s.live && s.wireIdle && s.wire.rx.isNone then openRound s else s

def isGasp (b : Body) : Bool :=
  match b with
  | .lastgasp _ _ => true
  | _ => false

/-- The frame that contends for a class: the head, and in the last-gasp window the LASTGASP alone (R14, R21). -/
def contender (s : State) (c : FrameClass) : Option TxEntry :=
  if s.power.window.isSome then
    match c with
    | .control => s.wire.control.find? fun e => isGasp e.body
    | _ => none
  else (s.wire.queue c).head?

/-- The class whose head has the slot: 0 voice, 1 control, 2 + k the data head (R14). -/
def slotClass (s : State) (slot : Nat) : Option FrameClass :=
  match slot with
  | 0 => some .voice
  | 1 => some .control
  | k + 2 =>
    match s.wire.data with
    | e :: _ => if e.backoff = k then some .data else none
    | [] => none

/-- Whether a span of `air` ticks from now shares a tick with a slot's quiet window (R20). -/
def blocks (now : Tick) (air : Nat) : Option Track → Bool
  | some t =>
    t.firm && decide (elapsed now t.tNext ≤ 20) && decide (-(elapsed now t.tNext) - 12 ≤ (air : Int))
  | none => false

/-- The start passes the quiet-window check, and in the last-gasp window its end lies within (R20, R21). -/
def mayStart (s : State) (e : TxEntry) : Bool :=
  let air := airtime (payloadBytes (payloadNow s e.body)).length
  !blocks s.now air s.noise.a && !blocks s.now air s.noise.b &&
    (match s.power.window with
    | some w => decide (elapsed s.now w + air ≤ Config.gaspTime)
    | none => true)

/-- The wire is no longer idle in the quiet windows that are open (R14). -/
def busyTrack (t : Option Track) : Option Track := t.map fun t => { t with winIdle := false }

def markBusy (s : State) : State := s.modNoise fun n => { n with a := busyTrack n.a, b := busyTrack n.b }

/-- Which entry of its queue a contender is. -/
def contenderTest (s : State) : TxEntry → Bool :=
  if s.power.window.isSome then fun e => isGasp e.body else fun _ => true

/-- A frame starts: its bytes go onto the wire (R2, R14). -/
def startFrame (c : FrameClass) (e : TxEntry) (s : State) : State :=
  (markBusy
    (s.modWire fun w =>
      { w.setQueue (updFirst (contenderTest s) (fun e => { e with inTx := true }) (w.queue c)) c with
        tx := some ⟨c, bytesNow s e, some s.now⟩
        round := none })).emit (.wireFrame (bytesNow s e))

/-- A slot's head, if it contends in this round: it has a destination and sits no round out (R12, R16). -/
def slotHead (s : State) (slot : Nat) : Option (FrameClass × TxEntry) :=
  match slotClass s slot with
  | some c =>
    match contender s c with
    | some e => if decide (e.sitOut = 0) && e.dst.isSome then some (c, e) else none
    | none => none
  | none => none

/-- The slot is one of the present round that has not begun, on an idle wire (R14). -/
def slotOpen (s : State) (slot : Nat) : Bool :=
  s.live && s.wireIdle && s.wire.rx.isNone && decide (slot ≤ 33) &&
    (match s.wire.round with
    | some r => decide (r.next ≤ slot)
    | none => false)

/-- A slot begins (R14). -/
def slotBegin (slot : Nat) (s : State) : State :=
  if slotOpen s slot then
    let passed := s.modWire fun w => { w with round := some ⟨slot + 1⟩ }
    match slotHead s slot with
    | some (c, e) => if mayStart s e then startFrame c e s else passed
    | none => passed
  else s

/-! ## Ends of transmissions (R1, R15 to R17) -/

/-- The entry in transmission. -/
def txEntry (s : State) : Option (FrameClass × TxEntry) :=
  match s.wire.tx with
  | some t => ((s.wire.queue t.cls).find? (·.inTx)).map fun e => (t.cls, e)
  | none => none

/-- The frame in transmission leaves its queue. -/
def removeTx (c : FrameClass) (s : State) : State :=
  s.modWire fun w => { w.setQueue ((w.queue c).eraseP (·.inTx)) c with tx := none }

/-- The frame in transmission stays, changed as given. -/
def keepTx (c : FrameClass) (f : TxEntry → TxEntry) (s : State) : State :=
  s.modWire fun w =>
    { w.setQueue (updFirst (·.inTx) (fun e => { f e with inTx := false }) (w.queue c)) c with tx := none }

/-- A control frame that left its queue otherwise than transmitted is reported dropped (R1). -/
def reportDropped (c : FrameClass) (b : Body) (s : State) : State :=
  if c = .control then noteDropped b s else s

/-- The frame in transmission began before the restart that this run began with (R13, log 54). -/
def outlived (s : State) : Bool := s.wire.tx.any fun x => x.start.isNone

/-- A flushed frame has completed, and leaves its queue: it is reported dropped, but for one that has outlived a
restart, whose block has begun anew (R1, R13, R18, log 54). -/
def flushedEnd (c : FrameClass) (e : TxEntry) (s : State) : State :=
  if outlived s then removeTx c s else reportDropped c e.body (removeTx c s)

/-- The collided frame: dropped at its limit, or kept with its count raised and its draw made (R10, R13, R15,
R16). -/
def collideFrame (c : FrameClass) (e : TxEntry) (s : State) : State :=
  let n := e.collisions + 1
  let lost := reportDropped c e.body (removeTx c s)
  if e.flushed then flushedEnd c e s
  else
    match c with
    | .data =>
      if 8 ≤ n then lost
      else keepTx c (fun e => { e with collisions := n, backoff := drawBelow (2 ^ min n 5) s.draws }) s.drew
    | .control =>
      if 16 ≤ n then lost
      else keepTx c (fun e => { e with collisions := n, sitOut := drawBelow (2 ^ min n 3) s.draws + 1 }) s.drew
    | .voice =>
      if ranOut s.now e.due Config.voiceDeadline then lost
      else keepTx c (fun e => { e with collisions := n, sitOut := drawBelow (2 ^ min n 3) s.draws + 1 }) s.drew

/-- A VOICE frame past its deadline that is not in transmission (R10). -/
def overdue (now : Tick) (e : TxEntry) : Bool := !e.inTx && ranOut now e.due Config.voiceDeadline

def dueVoiceDeadline (s : State) : Bool := s.wire.voice.any (overdue s.now)

/-- The 10 s tap at the wire controller (R9). -/
def wireTap (s : State) : State :=
  (setCond .wireErrors (decide (16 ≤ s.wire.errors)) s).modWire fun w => { w with errors := 0 }

/-- A damaged frame counted (R7). -/
def countError (s : State) : State := s.modWire fun w => { w with errors := min 65535 (w.errors + 1) }

end Sys2Proof.Machine
end

