-- ==== Sys2Proof/Machine/Noise.lean ====
section
/-! DEFINITION. The noise tracker: impulses, hits and misses, formation, lending and borrowing, quiet windows
(03: R47 to R68). -/

namespace Sys2Proof.Machine

/-! ## Setting a slot (R58) -/

/-- Whether the wire has been idle throughout the span that a window opening now belongs to: one that opens while the
other slot's window is open joins that window's span (R14, R53). -/
def spanIdle (idle : Bool) : Option Track → Bool
  | some other => idle && (!other.winOpen || other.winIdle)
  | none => idle

/-- A slot's quiet window judged at the present time; one that opens notes whether its span's wire is idle. -/
def placeWindow (now : Tick) (idle : Bool) (t : Track) : Track :=
  { t with
    winOpen := t.inSpan now
    winIdle := if t.winOpen && t.inSpan now then t.winIdle else t.inSpan now && idle }

/-- Whether putting `new` in place of `old` closes a window through whose span the wire was idle (R14). -/
def closedIdle (old new : Option Track) : Bool :=
  match old with
  | some t => t.winOpen && t.winIdle && !openNow new
  | none => false

/-- A slot takes new contents: its window opens or closes at this moment (R58). Windows that coincide are one span: the
end of the last one open is the contention point, when the wire was idle throughout the span (R14, R20, R53, log 56). -/
def putSlot (n : SlotName) (t : Option Track) (s : State) : State :=
  let other := s.noise.slot (otherSlot n)
  let new := t.map (placeWindow s.now (spanIdle s.wireIdle other))
  let s' := s.modNoise fun q => q.setSlot new n
  if closedIdle (s.noise.slot n) new && !openNow other then contend s' else s'

/-! ## Impulses (R47 to R53) -/

/-- The slot after a hit; none when the impulse misses its capture window. A BORROWED slot becomes an own one
(R52, R53). -/
def hitTrack (t : Tick) (k : Track) : Option Track :=
  let e := elapsed t k.tNext
  if -40 ≤ e ∧ e ≤ 40 then
    let p := clampPeriod (k.period + e)
    some { k with
      period := p, tNext := t + ticks (rounded p), conf := min 15 (k.conf + 1), missed := false, lender := none }
  else none

def hitSlot (t : Tick) (k : Option Track) : Option Track := k.bind (hitTrack t)

/-- A pair's conditions (R56). -/
def isPair (t c1 c2 : Tick) : Bool :=
  let d := elapsed c2 c1
  decide (20000 ≤ d) && decide (d ≤ 80000) && decide (-40 ≤ elapsed t c2 - d) && decide (elapsed t c2 - d ≤ 40)

/-- The pair with the most recent second time, and among those the most recent first (R56); the candidates come
newest first. -/
def findPair (t : Tick) : List Tick → Option (Tick × Tick)
  | [] => none
  | c2 :: rest =>
    match rest.find? fun c1 => isPair t c1 c2 with
    | some c1 => some (c1, c2)
    | none => findPair t rest

/-- An own TENTATIVE slot below confidence 3, which a formation may replace (R57). -/
def replaceable (t : Track) : Bool := t.lender.isNone && decide (t.conf < 3)

/-- The slot a formation takes (R57). -/
def formSlot (n : Noise) : Option SlotName :=
  match n.a, n.b with
  | none, _ => some .a
  | _, none => some .b
  | some a, some b =>
    if replaceable a && replaceable b then (if b.conf < a.conf then some .b else some .a)
    else if replaceable a then some .a
    else if replaceable b then some .b
    else none

/-- The track a pair forms (R57). -/
def formedTrack (t c1 : Tick) : Track :=
  let p := clampPeriod (elapsed t c1 * 4)
  ⟨p, t + ticks (rounded p), 3, false, none, false, false⟩

/-- An unmatched impulse joins the candidates, of which six are kept (R55). -/
def appendCandidate (t : Tick) (cs : List Tick) : List Tick :=
  let l := cs ++ [t]
  if 6 < l.length then l.tail else l

/-- Formation (R55 to R57). -/
def formTrack (t : Tick) (s : State) : State :=
  let keep := s.modNoise fun n => { n with candidates := appendCandidate t n.candidates }
  match findPair t s.noise.candidates.reverse with
  | some (c1, c2) =>
    match formSlot s.noise with
    | some slot =>
      putSlot slot (some (formedTrack t c1))
        (s.modNoise fun n => { n with candidates := n.candidates.filter fun c => decide (c ≠ c1) && decide (c ≠ c2) })
    | none => keep
  | none => keep

/-- An impulse not merged with the last accepted one (R48). -/
def accepted (t : Tick) (last : Option Tick) : Bool :=
  match last with
  | some l => decide (40 < elapsed t l)
  | none => true

/-- One slot after an impulse at `t`. -/
def hitOne (t : Tick) (s : State) (n : SlotName) : State :=
  match hitSlot t (s.noise.slot n) with
  | some k => putSlot n (some k) s
  | none => s

/-- An impulse (R48, R49). -/
def impulse (s : State) : State :=
  let t := s.now
  if accepted t s.noise.lastImpulse then
    let s' := s.modNoise fun n => { n with lastImpulse := some t }
    if (hitSlot t s.noise.a).isSome || (hitSlot t s.noise.b).isSome then [SlotName.a, .b].foldl (hitOne t) s'
    else formTrack t (s'.modNoise fun n => { n with unmatched := min 65535 (n.unmatched + 1) })
  else s

/-! ## Expiries (R51, R54, R63) -/

/-- A slot after a miss; none when it becomes EMPTY (R54). -/
def missTrack (k : Track) : Option Track :=
  let next := k.tNext + ticks (rounded k.period)
  if k.lender.isSome then some { k with tNext := next }
  else if k.conf ≤ 2 then none
  else some { k with conf := k.conf - 2, tNext := next, missed := true }

/-- The slot's capture expiry has been reached (R51). -/
def dueCapture (n : SlotName) (s : State) : Bool :=
  match s.noise.slot n with
  | some k => decide (40 ≤ elapsed s.now k.tNext)
  | none => false

def captureExpiry (n : SlotName) (s : State) : State :=
  if dueCapture n s then putSlot n ((s.noise.slot n).bind missTrack) s else s

def dueRefresh (n : SlotName) (s : State) : Bool :=
  match s.noise.slot n with
  | some k =>
    match k.lender with
    | some l => ranOut s.now l.refresh Config.refreshTime
    | none => false
  | none => false

def refreshExpiry (n : SlotName) (s : State) : State := if dueRefresh n s then putSlot n none s else s

/-- A slot borrowed from `id` is emptied when that station's roster entry expires (R63). -/
def lenderGoneAt (id : Nat) (s : State) (n : SlotName) : State :=
  match s.noise.slot n with
  | some k => if k.lender.any fun l => decide (l.id = id) then putSlot n none s else s
  | none => s

def lenderGone (s : State) (id : Nat) : State := [SlotName.a, .b].foldl (lenderGoneAt id) s

/-! ## Windows (R58) -/

def dueWindowOpen (n : SlotName) (s : State) : Bool :=
  match s.noise.slot n with
  | some k => !k.winOpen && k.inSpan s.now
  | none => false

def dueWindowClose (n : SlotName) (s : State) : Bool :=
  match s.noise.slot n with
  | some k => k.winOpen && !k.inSpan s.now
  | none => false

/-- The slot's window opens or closes as its span now says. -/
def refreshWindow (n : SlotName) (s : State) : State := putSlot n (s.noise.slot n) s

/-! ## Announcements (R60 to R62) -/

/-- An announced track's period, confidence and offset are in range (R60). -/
def announcedOk (m : TrackMsg) : Bool :=
  decide (Config.periodMin ≤ m.period.toNat) && decide (m.period.toNat ≤ Config.periodMax) &&
    decide (4 ≤ m.conf.toNat) && decide (m.conf.toNat ≤ 15) &&
    decide (m.offset.toNat ≤ rounded m.period.toNat + 40)

def near (a b : Tick) : Bool := decide (-40 ≤ elapsed a b) && decide (elapsed a b ≤ 40)

/-- An announced arrival matches a slot at its prediction or one period ahead (R60). -/
def matchesSlot (arrival : Tick) : Option Track → Bool
  | some k => near arrival k.tNext || near arrival (k.tNext + ticks (rounded k.period))
  | none => false

/-- A track whose capture expiry has passed when its prediction is set takes the expiry at once (R51, log 31). -/
def expireAtOnce (now : Tick) (k : Track) : Option Track :=
  if 40 < elapsed now k.tNext then missTrack k else some k

/-- What a matching announcement does to a slot (R61, R62). -/
def announcedTo (now : Tick) (src : Nat) (start arrival : Tick) (m : TrackMsg) (k : Track) : Option Track :=
  match k.lender with
  | some l =>
    if l.id = src then
      expireAtOnce now { k with
        period := m.period.toNat, tNext := arrival, conf := min m.conf.toNat 4, lender := some ⟨src, start⟩ }
    else some { k with lender := some { l with refresh := start } }
  | none => if decide (k.conf < 4) && !k.missed then some { k with conf := 4 } else some k

def announceAt (src : Nat) (start arrival : Tick) (m : TrackMsg) (s : State) (n : SlotName) : State :=
  match s.noise.slot n with
  | some k =>
    if matchesSlot arrival (some k) then
      putSlot n (announcedTo s.now src start arrival m k) s
    else s
  | none => s

def borrowedTrack (src : Nat) (start arrival : Tick) (m : TrackMsg) : Track :=
  ⟨m.period.toNat, arrival, min m.conf.toNat 4, false, some ⟨src, start⟩, false, false⟩

/-- One announced track (R60 to R62). -/
def takeTrack (src : Nat) (start : Tick) (s : State) (m : TrackMsg) : State :=
  let arrival := start + m.offset.setWidth 32
  if announcedOk m then
    if matchesSlot arrival s.noise.a || matchesSlot arrival s.noise.b then
      [SlotName.a, .b].foldl (announceAt src start arrival m) s
    else if s.noise.a.isNone then putSlot .a (expireAtOnce s.now (borrowedTrack src start arrival m)) s
    else if s.noise.b.isNone then putSlot .b (expireAtOnce s.now (borrowedTrack src start arrival m)) s
    else s
  else s

def takeTracks (src : Nat) (start : Tick) (ms : List TrackMsg) (s : State) : State :=
  ms.foldl (takeTrack src start) s

/-! ## Taps and sleep (R55, R64, R66) -/

def noiseTap (s : State) : State :=
  (setCond .noiseHeavy (decide (20 ≤ s.noise.unmatched)) s).modNoise fun n =>
    { n with unmatched := 0, candidates := n.candidates.filter fun c => decide (elapsed s.now c ≤ 160040) }

def freshNoise : Noise := ⟨none, none, [], none, 0⟩

end Sys2Proof.Machine
end

