-- ==== Sys2Proof/Machine/Supervisor.lean ====
section
/-! DEFINITION. The modem supervisor: its states, profiles, uplink queue, address map and mailbox
(04: R69 to R88). -/

namespace Sys2Proof.Machine

/-- A pending mailbox offer is withdrawn, and its answer may yet arrive at this moment (R86, log 60). -/
def withdrawOffer (s : State) : State :=
  match s.sup.mailbox with
  | some _ => (s.modSup fun u => { u with mailbox := none, late := u.late + 1 }).emit .mailWithdraw
  | none => s

/-! ## The five states (section 4.2) -/

/-- Entry to OFF (R75). -/
def goOff (s : State) : State :=
  (withdrawOffer s).modSup fun u => { u with state := .off, timer := none, uplink := [], holdTime := 0 }

/-- Entry to SYNCED (R72, R73). -/
def enterSynced (s : State) : State :=
  setCond .trainFail false
    (s.modSup fun u =>
      { u with state := .synced, timer := none, failures := 0, step := 0, holdTime := 0, syncedAt := some s.now })

/-- Entry to TRAINING with its profile (R71). -/
def enterTraining (s : State) : State :=
  let t := s.modSup fun u =>
    { u with state := .training, inUse := max u.stored s.noise.tracked, timer := some s.now }
  if s.pins.sync then enterSynced t else t

/-- Entry to BACKOFF (R74). -/
def enterBackoff (s : State) : State :=
  s.modSup fun u =>
    { u with
      state := .backoff
      uplink := []
      timer := some s.now
      backoffLen := Config.backoffUnit * 2 ^ u.step
      step := min 5 (u.step + 1) }

/-- The loss history with this loss (R77). -/
def withLoss (now : Tick) (losses : List Tick) : List Tick :=
  (losses.filter fun t => decide (elapsed now t ≤ Config.lossAge)) ++ [now]

/-- Entry to LOST: the loss, a step-down at the third, the grace timer, and the mailbox paused (R73, R77, R86). -/
def enterLost (s : State) : State :=
  let h := withLoss s.now s.sup.losses
  let t := (withdrawOffer s).modSup fun u => { u with state := .lost, timer := some s.now, holdTime := 0 }
  if 3 ≤ h.length then
    setCond .syncUnstable true (t.modSup fun u => { u with stored := min 3 (u.stored + 1), losses := [] })
  else t.modSup fun u => { u with losses := h }

/-! ## Power to the modem (R69, R70) -/

/-- PWR-EN turns off: the READY timer stops, MODEM_ABSENT falls, transfers are abandoned, the state is OFF. -/
def pwrOff (s : State) : State :=
  setCond .modemAbsent false
    ((goOff s).modSup fun u => { u with readyTimer := none, upTransfer := none })

/-- PWR-EN turns on where the strap is set: the READY timer starts if READY is low. -/
def pwrOn (s : State) : State :=
  s.modSup fun u =>
    { u with readyTimer := if s.straps.modem && !s.pins.ready then some s.now else none }

/-- READY changes from `old` to `new` (R70). -/
def readyChange (old new : Bool) (s : State) : State :=
  if s.pwrEn && decide (old ≠ new) then
    if new then setCond .modemAbsent false (s.modSup fun u => { u with readyTimer := none })
    else s.modSup fun u => { u with readyTimer := some s.now }
  else s

def dueReady (s : State) : Bool := timerOut s.now s.sup.readyTimer Config.readyTime

def readyTimerExpiry (s : State) : State :=
  if dueReady s then setCond .modemAbsent true (s.modSup fun u => { u with readyTimer := none }) else s

/-! ## SYNC and the timers (R72 to R74) -/

def syncRise (s : State) : State :=
  if s.sup.state = .training ∨ s.sup.state = .lost then enterSynced s else s

def syncFall (s : State) : State := if s.sup.state = .synced then enterLost s else s

def dueTraining (s : State) : Bool :=
  decide (s.sup.state = .training) && timerOut s.now s.sup.timer Config.trainingTime

/-- A failed training (R72). -/
def trainingTimeout (s : State) : State :=
  if dueTraining s then
    let n := min 255 (s.sup.failures + 1)
    let t := s.modSup fun u => { u with failures := n }
    enterBackoff (if 2 ≤ n then setCond .trainFail true t else t)
  else s

def dueGrace (s : State) : Bool :=
  decide (s.sup.state = .lost) && timerOut s.now s.sup.timer Config.graceTime

def graceTimeout (s : State) : State := if dueGrace s then enterBackoff s else s

def dueBackoff (s : State) : Bool :=
  decide (s.sup.state = .backoff) && timerOut s.now s.sup.timer s.sup.backoffLen

def backoffWaitEnd (s : State) : State := if dueBackoff s then enterTraining s else s

/-! ## Taps (R77, R78, R84) -/

/-- The hold-time counter at a 1 s tap (R78). -/
def holdTimeTap (s : State) : State :=
  if s.holding && decide (s.sup.state = .synced) then
    let n := min 4294967295 (s.sup.holdTime + 1)
    if n = 86400 then s.modSup fun u => { u with stored := u.stored - 1, holdTime := 0 }
    else
      let t := s.modSup fun u => { u with holdTime := n }
      if n = 3600 then setCond .syncUnstable false t else t
  else s

/-- The losses, the addresses and the entry to SYNCED that are too old to be compared leave (R77, R84, log 18). -/
def supTap (s : State) : State :=
  s.modSup fun u =>
    { u with
      syncedAt := u.syncedAt.filter fun t => decide (elapsed s.now t ≤ Config.lossAge)
      losses := u.losses.filter fun t => decide (elapsed s.now t ≤ Config.lossAge)
      map := u.map.filter fun e => decide (elapsed s.now e.seen ≤ Config.addressAge) }

/-- A profile adopted from a YIELD or a held LASTGASP (R76). -/
def adoptProfile (p : Nat) (s : State) : State :=
  if s.holding then s else s.modSup fun u => { u with stored := p }

/-! ## Link frames (R80 to R85) -/

def linkDst (f : LinkFrame) : List Byte := f.take 6
def linkSrc (f : LinkFrame) : List Byte := (f.drop 6).take 6

/-- A group address: bit 0 of its first byte set (R84). -/
def isGroup (a : List Byte) : Bool := (a.headD 0).getLsbD 0

def linkSizeOk (f : LinkFrame) : Bool := decide (14 ≤ f.length) && decide (f.length ≤ 1536)

/-- The address map after a sighting (R84). -/
def learn (a : List Byte) (station : Nat) (now : Tick) (m : List MapEntry) : List MapEntry :=
  if isGroup a then m
  else
    let rest := m.filter fun e => decide (e.addr ≠ a)
    (if rest.length < Config.uplinkMax then rest else rest.tail) ++ [⟨a, station, now⟩]

/-- An upstream link frame reaches the supervisor: learned, then queued while SYNCED and there is room (R80,
R84). -/
def uplinkTake (station : Nat) (f : LinkFrame) (s : State) : State :=
  s.modSup fun u =>
    { u with
      map := learn (linkSrc f) station s.now u.map
      uplink :=
        if decide (u.state = .synced) && decide (u.uplink.length < Config.uplinkMax) then u.uplink ++ [f]
        else u.uplink }

/-- A DATA frame dispatched to this station (R8, R80, R85). -/
def dataFrame (src dst : Nat) (f : LinkFrame) (s : State) : State :=
  if s.holding then (if dst = s.own then uplinkTake src f s else s) else s.emit (.packet f)

/-- The packet port is held back (R12, R82), before completion too; through the last-gasp window it stays so, and a
stopped chip releases the line (R175, the table of chapter 9). -/
def State.holdBack (s : State) : Bool :=
  decide (s.phase ≠ .stopped) &&
    (!s.full || s.halted ||
      (if s.holding then decide (s.sup.state ≠ .synced) || decide (Config.uplinkMax ≤ s.sup.uplink.length)
      else
        decide (Config.dataMax ≤ s.wire.data.length) ||
          (match s.hold.known with
          | none => true
          | some h => !s.broadbandOf h)))

/-- A link frame from the packet port (R12, R82); while the line is asserted none is taken (log 33). -/
def packetReceive (f : LinkFrame) (s : State) : State :=
  if linkSizeOk f && !s.holdBack then
    if s.holding then uplinkTake s.own f s else offerData none f s
  else s

/-- A downstream frame on its way (R85). -/
def routeDown (f : LinkFrame) (s : State) : State :=
  match if isGroup (linkDst f) then none else s.sup.map.find? fun e => decide (e.addr = linkDst f) with
  | none => offerData (some 0) f (s.emit (.packet f))
  | some e => if e.station = s.own then s.emit (.packet f) else offerData (some e.station) f s

/-- The transfer began in the present SYNCED (R73, R85, log 18). -/
def beganSynced (began : Tick) (s : State) : Bool :=
  match s.sup.syncedAt with
  | some t => decide (0 ≤ elapsed began t)
  | none => true

/-- A downstream frame whose transfer began at `began` has ended (R73, R85, log 18). -/
def downstreamFrame (began : Tick) (f : LinkFrame) (s : State) : State :=
  if decide (s.sup.state = .synced) && beganSynced began s && linkSizeOk f then routeDown f s
  else s

/-- The head of the data queue is given its destination, discarded, or handed to the own supervisor (R12, R83). -/
def addressHead (s : State) : State :=
  match s.wire.data with
  | e :: rest =>
    if e.dst.isNone && !e.inTx then
      match s.hold.known with
      | none => s.modWire fun w => { w with data := rest }
      | some h =>
        if h = s.own then
          match e.body with
          | .data f => uplinkTake s.own f (s.modWire fun w => { w with data := rest })
          | _ => s.modWire fun w => { w with data := rest }
        else s.modWire fun w => { w with data := { e with dst := some h } :: rest }
    else s
  | [] => s

/-- Heads are addressed one after another until one stays (log 32). -/
def settleDataHead (s : State) : State := s.wire.data.foldl (fun s _ => addressHead s) s

/-- The next upstream transfer begins when it may (R81). -/
def startTransfer (s : State) : State :=
  match s.sup.uplink with
  | f :: rest =>
    if decide (s.sup.state = .synced) && s.pins.sendOk && s.sup.upTransfer.isNone then
      (s.modSup fun u => { u with uplink := rest, upTransfer := some f }).emit (.upstream f)
    else s
  | [] => s

def transferEnd (s : State) : State := s.modSup fun u => { u with upTransfer := none }

/-! ## The mailbox (R86) -/

/-- The next offer is made when it may be, in the form of R153 (R86). -/
def mailboxOffer (s : State) : State :=
  match s.report.queue with
  | r :: _ =>
    if s.holding && decide (s.sup.state = .synced) && s.sup.mailbox.isNone then
      (s.modSup fun u => { u with mailbox := some ⟨r, s.now⟩ }).emit (.mailOffer (recordBytes r))
    else s
  | [] => s

def dueMailbox (s : State) : Bool :=
  match s.sup.mailbox with
  | some m => ranOut s.now m.start Config.mailboxTime
  | none => false

/-! ## The lines the supervisor drives -/

/-- HOLD (R71, R74, R75). -/
def State.holdLine (s : State) : Bool :=
  decide (s.sup.state = .training) || decide (s.sup.state = .synced) || decide (s.sup.state = .lost)

/-- The PROFILE lines (R71, R76); a stopped chip drives none, which reads as 0 (R175, log 55). -/
def State.profileLines (s : State) : Nat :=
  if s.phase = .stopped then 0 else if s.sup.state = .off then s.sup.stored else s.sup.inUse

/-- BLANK (R79). -/
def State.blank (s : State) : Bool := s.holding && decide (s.sup.state ≠ .off) && s.noise.anyOpen

end Sys2Proof.Machine
end

