-- ==== Sys2Proof/Machine/Ports.lean ====
section
/-! DEFINITION. What a port controller does to one port: tones, ringing, connection, clearing, idling, and its
playout buffer (05: R89, R98, R99, R102 to R109). -/

namespace Sys2Proof.Machine

/-! ## The playout buffer (R108) -/

/-- Sequence numbers compared modulo 256, read signed (R108). -/
def seqDiff (a b : Byte) : Int := (a - b).toInt

def insertSeq (q : Byte) (x : Speech) : List (Byte × Speech) → List (Byte × Speech)
  | [] => [(q, x)]
  | (r, y) :: rest => if seqDiff q r < 0 then (q, x) :: (r, y) :: rest else (r, y) :: insertSeq q x rest

/-- A frame arrives at the buffer (R108); an overflow counts the earliest frame as played (log 23). -/
def Playout.insert (q : Byte) (x : Speech) (b : Playout) : Playout :=
  let late := match b.last with | some l => decide (seqDiff q l ≤ 0) | none => false
  if late || b.frames.any (fun f => decide (f.1 = q)) then b
  else
    match insertSeq q x b.frames with
    | [] => b
    | (r, y) :: rest =>
      if 3 ≤ rest.length then { b with frames := rest, last := some r, samples := y }
      else { b with frames := (r, y) :: rest }

/-- 80 samples of silence. -/
def silence : Speech := List.replicate 80 0#16

/-- A sample halved, truncated toward zero (R108). -/
def halve (x : Sample) : Sample := BitVec.ofInt 16 (x.toInt.tdiv 2)

/-- The buffer gives 80 samples at a 10 ms tap (R108). -/
def Playout.draw (b : Playout) : Speech × Playout :=
  match b.last with
  | none =>
    match b.frames with
    | (q, x) :: rest => (x, { frames := rest, last := some q, samples := x, conceal := 0 })
    | [] => (silence, b)
  | some l =>
    match b.frames.find? fun f => decide (f.1 = l + 1) with
    | some (_, x) =>
      (x, { frames := b.frames.filter (fun f => decide (f.1 ≠ l + 1)), last := some (l + 1), samples := x, conceal := 0 })
    | none =>
      if b.conceal = 0 then (b.samples.map halve, { b with last := some (l + 1), conceal := 1 })
      else (silence, { b with last := some (l + 1) })

/-! ## Tones (R104) -/

/-- A tone is started, its cadence from the beginning (R104). -/
def Port.setTone (t : Tone) (now : Tick) (p : Port) : Port := { p with tone := t, toneStep := 0, toneAt := now }

/-- The lengths of a tone's steps; empty for a tone without a cadence (R104). -/
def toneSteps : Tone → List Nat
  | .silent => []
  | .dial => []
  | .stutter => [4000, 4000]
  | .busy => [20000, 20000]
  | .ringBack => [40000, 80000]
  | .howler => [10000, 10000]
  | .fault => [10000, 10000, 10000, 50000]

/-- How a tone sounds in a step of its cadence: a cadence begins on, and its steps are on and off in turn (R101, R104);
the howler sounds throughout, rising in its first 250 ms and falling in the next (log 65). -/
def toneLevelAt (t : Tone) (step : Nat) : ToneLevel :=
  match t with
  | .silent => .absent
  | .dial => .steady
  | .howler => if step % 2 = 0 then .rising else .falling
  | .stutter | .busy | .ringBack | .fault => if step % 2 = 0 then .steady else .absent

/-- The dial tone of the moment (R93, R148). -/
def State.dialTone (s : State) : Tone := if s.alert then .stutter else .dial

/-! ## Timers of a port stopped -/

/-- Everything a port drops when it leaves its call, offer or request: its references, timers, digits and
ringing. -/
def Port.stripped (p : Port) : Port :=
  { p with
    callRef := none, pending := none, outReq := none, playout := Playout.fresh, digit := none, digitAt := none,
    firstDigit := none, ringOn := false, offerAt := none, ringBack := none, silence := none, howler := none }

/-- CLEARED with busy tone and a last cause (R89, R93 to R102). -/
def Port.clear (now : Tick) (cause : Option PortCause) (ref : Option (Nat × Nat)) (p : Port) : Port :=
  ({ p.stripped with state := .cleared, lastCause := cause, lastRef := ref }).setTone .busy now

/-- IDLE with nothing held (R98, R103). -/
def Port.toIdle (now : Tick) (p : Port) : Port := ({ p.stripped with state := .idle }).setTone .silent now

/-- CONNECTED to a call; `timed` says whether a silence timer runs (R99, R102, R106, R108). -/
def Port.connect (now : Tick) (c : CallRef) (timed : Bool) (p : Port) : Port :=
  ({ p.stripped with
    state := .connected, callRef := some c, seq := 0, silence := if timed then some now else none }).setTone
    .silent now

/-- RINGING for a reason, its drive on (R98). -/
def Port.ring (now : Tick) (why : Pending) (p : Port) : Port :=
  ({ p.stripped with
    state := .ringing
    pending := some why
    ringOn := true
    ringAt := now
    offerAt := match why with | .exchange => none | _ => some now }).setTone .silent now

/-- What entry to HALTED leaves of a port (R90, R109): a break in progress is given up (log 29), and an open pulse count
stays and closes in its own turn (log 57). -/
def Port.halt (now : Tick) (p : Port) : Port :=
  if p.offHook then
    ({ p.stripped with
      state := .cleared, lastCause := some (.refused .halted), lastRef := none, breakStart := none }).setTone
      .fault now
  else { p.toIdle now with breakStart := none }

/-! ## At the station -/

/-- The port's connected binding leaves the list when the port is cleared or goes on-hook (R130). -/
def dropBinding (n : PortNo) (s : State) : State :=
  s.modCall fun c =>
    { c with bindings := c.bindings.filter fun b => !(b.connected && b.locals.contains n) }

/-- A port enters CLEARED (R96, R100, R102). -/
def clearPort (n : PortNo) (cause : Option PortCause) (ref : Option (Nat × Nat)) (s : State) : State :=
  dropBinding n (s.modPort n (Port.clear s.now cause ref))

/-- A port refused locally, with the cause and the reference a REPLY would name (R95, R97). -/
def refusePort (n : PortNo) (c : RefuseCause) (ref : Nat × Nat) (s : State) : State :=
  clearPort n (some (.refused c)) (some ref) s

def idlePort (n : PortNo) (s : State) : State := s.modPort n (Port.toIdle s.now)

/-- A port enters CONNECTED; no silence timer runs for a call inside the station (R102). -/
def connectPort (n : PortNo) (c : CallRef) (s : State) : State :=
  let timed := match c with
    | .outside h _ => decide (h ≠ s.own)
    | .intercom st _ _ _ => decide (st ≠ s.own)
  s.modPort n (Port.connect s.now c timed)

/-- The port's class as REQUESTs carry it. -/
def State.portClass (n : PortNo) (s : State) : Nat := (s.portCfg n).cls.toNat

/-- A port's class, for an optional port. -/
def State.classNo (s : State) (n : PortNo) : Nat := s.portClass n

/-- A port that can be rung: fitted, IDLE, no loop fault, and the station not HALTED (R98, R105, R109). -/
def State.canRing (n : PortNo) (s : State) : Bool :=
  s.fitted n && decide ((s.port n).state = .idle) && !faultLevel s.pins n && !s.halted

/-- Any fitted port PARKED (R104). -/
def State.anyParked (s : State) : Bool := s.fittedPorts.any fun n => decide ((s.port n).state = .parked)

/-- Any fitted port's loop fault input asserted (R105). -/
def State.anyShort (s : State) : Bool := s.fittedPorts.any fun n => faultLevel s.pins n

/-- The ring drive of a port (R98, R105, R172). -/
def State.ringDrive (n : PortNo) (s : State) : Bool :=
  decide (s.phase = .running) && (s.port n).ringOn && !faultLevel s.pins n && s.power.window.isNone

/-- How the port's tone sounds at its codec now: not at all outside a running station and in the last-gasp window, else
by its place in its cadence (R101, R104, R172, R175). -/
def State.toneLevel (n : PortNo) (s : State) : ToneLevel :=
  if decide (s.phase = .running) && s.power.window.isNone then toneLevelAt (s.port n).tone (s.port n).toneStep
  else .absent

/-- The tone a port's codec is given now: silence in the off steps of a cadence, and where no tone sounds (R101, R104,
R172, R175). -/
def State.tonePlayed (n : PortNo) (s : State) : Tone :=
  if s.toneLevel n = .absent then .silent else (s.port n).tone

/-- The next value of the shared tag counter (R96). -/
def nextTag (t : Nat) : Nat := if 255 ≤ t then 1 else t + 1

def useTag (s : State) : State := s.modPorts fun ps => { ps with tag := nextTag ps.tag }

/-- A REQUEST frame with the next tag (R96, R99, R103). -/
def sendRequest (k : RequestKind) (dst : Nat) (m : RequestMsg) (s : State) : State :=
  offerControl dst (.request k { m with tag := s.ports.tag }) (useTag s)

/-- A heard frame from the holder of an outside call restarts its ports' holder silence timers (R102). -/
def feedHolder (src : Nat) (now : Tick) (p : Port) : Port :=
  match p.callRef with
  | some (.outside h _) => if h = src ∧ p.silence.isSome then { p with silence := some now } else p
  | _ => p

end Sys2Proof.Machine
end

