-- ==== Sys2Proof/Machine/Calls.lean ====
section
/-! DEFINITION. The call controller: the line call record and the line gate, outpulsing, the conference, and the
intercom bindings (06: R110 to R132). -/

namespace Sys2Proof.Machine

/-! ## The line call record -/

def modRecord (f : CallRecord → CallRecord) (s : State) : State :=
  s.modCall fun c => { c with record := c.record.map f }

def isParty (st po : Nat) (p : Party) : Bool := decide (p.station = st) && decide (p.port = po)

/-- Whether a port is a party of the record. -/
def CallRecord.has (r : CallRecord) (st po : Nat) : Bool := r.parties.any (isParty st po)

/-- A party as it joins (R114, R115). -/
def freshParty (st po : Nat) (now : Tick) : Party := ⟨st, po, 0, Playout.fresh, now⟩

/-- A line test is given up (R152). -/
def abortTest (s : State) : State := s.modFault fun m => { m with test := none }

/-- The loop is closed by the call controller (R118, R124). -/
def State.loopClosed (s : State) : Bool :=
  match s.call.record with
  | some r =>
    match r.outpulse with
    | .breaking _ _ _ => false
    | _ => true
  | none => false

/-- A CLEAR handed to a port of this station, or dispatched to it (R102, R122). -/
def takeClear (n : PortNo) (id : Nat) (c : ClearCause) (s : State) : State :=
  match (s.port n).callRef with
  | some (.outside _ i) => if i = id then clearPort n (some (.cleared c)) none s else s
  | _ => s

/-- A CLEAR to a party: handed over inside the station, or sent (R120 to R122). -/
def sendClear (st po id : Nat) (c : ClearCause) (s : State) : State :=
  if st = s.own then
    match portOf po with
    | some n => takeClear n id c s
    | none => s
  else offerControl st (.clear ⟨id, po, c⟩) s

/-- The record ends; the parties that remain are cleared with the cause, if one is sent (R122). -/
def endRecord (cause : Option ClearCause) (s : State) : State :=
  match s.call.record with
  | some r =>
    let t := s.modCall fun c => { c with record := none }
    match cause with
    | some k => r.parties.foldl (fun s p => sendClear p.station p.port r.id k s) t
    | none => t
  | none => s

/-- A party leaves the list; a record left without parties ends (R117, R120). -/
def removeParty (st po : Nat) (s : State) : State :=
  s.modCall fun c =>
    { c with
      record := c.record.bind fun r =>
        match r.parties.filter fun p => !isParty st po p with
        | [] => none
        | ps => some { r with parties := ps } }

/-! ## SEIZE and ANSWER (R111 to R116) -/

/-- What a REPLY says: the answer, the reference and the call reference (R112). -/
structure Verdict where
  answer : Answer
  refStation : Nat
  refPort : Nat
  ref : Nat
  deriving DecidableEq, Repr

/-- GRANT with the call id; its reference is this station (log 39). -/
def granted (s : State) (id : Nat) : Verdict := ⟨.grant, s.own, 0, id⟩

def refused (c : RefuseCause) (st po : Nat) : Verdict := ⟨.refuse c, st, po, 0⟩

/-- The effective class (R111). -/
def State.effective (st cls : Nat) (s : State) : Nat := max cls (s.classOf st)

/-- The refusal of a failed class check names the party responsible (R111). -/
def classRefusal (st po cls : Nat) (s : State) : Verdict :=
  if s.classOf st ≤ cls then refused .cls st po else refused .cls st 0

/-- The configured private flag of a station/port (R111, R178). -/
def State.privateFlag (st po : Nat) (s : State) : Bool := s.cfg.privateFlags.getLsbD (2 * (st - 1) + (po - 1))

/-- The next call id (R114). -/
def nextId (last : Nat) : Nat := if 255 ≤ last then 1 else last + 1

/-- The record as it is created: SEIZING, whatever the level of loop current (R110, R114, R118, log 69). -/
def freshRecord' (st po : Nat) (s : State) : CallRecord where
  id := nextId s.call.lastId
  seized := false
  priv := s.privateFlag st po
  first := (st, po)
  parties := [freshParty st po s.now]
  seize := some s.now
  loss := none
  queue := []
  outpulse := .idle

/-- The record is created (R114). -/
def createCall (st po : Nat) (s : State) : State :=
  (abortTest s).modCall fun c => { c with record := some (freshRecord' st po s), lastId := nextId c.lastId }

/-- The checks of R114 that a request without a record passes or fails; one that fails both is refused with CLASS, an
order that no rule gives (log 68). -/
def seizeRefusal (k : RequestKind) (st po cls : Nat) (s : State) : Option Verdict :=
  if decide (k = .answer) && s.ports.ringing.isSome then none
  else if s.cfg.seizeLevel.toNat < s.effective st cls then some (classRefusal st po cls s)
  else if s.cond .lineDead then some (refused .lineFault s.own 0)
  else none

/-- The checks of R115 that a request to join passes or fails. -/
def joinRefusal (r : CallRecord) (st po cls : Nat) (s : State) : Option Verdict :=
  if r.priv then some (refused .priv r.first.1 r.first.2)
  else if s.cfg.joinLevel.toNat < s.effective st cls then some (classRefusal st po cls s)
  else if 3 ≤ r.parties.length then some (refused .full s.own 0)
  else none

/-- A party begins a new stream (R116). -/
def regrant (st po : Nat) (s : State) : State :=
  modRecord
    (fun r =>
      { r with
        parties := r.parties.map fun p =>
          if isParty st po p then { p with seq := 0, playout := Playout.fresh, silence := s.now } else p })
    s

def joinCall (st po : Nat) (s : State) : State :=
  modRecord (fun r => { r with parties := r.parties ++ [freshParty st po s.now] }) s

/-- Check 2 of R113. -/
def State.portKnown (st po : Nat) (s : State) : Bool :=
  match portOf po with
  | some n => decide (st ≠ s.own) || s.fitted n
  | none => false

/-- A SEIZE or ANSWER at a HOLDING station (R113). -/
def judgeHolding (k : RequestKind) (st po cls : Nat) (s : State) : State × Verdict :=
  if st ≠ s.own ∧ (s.peer st).isNone then (s, refused .noStation st 0)
  else if !s.portKnown st po then (s, refused .noPort st po)
  else
    match s.call.record with
    | some r =>
      if r.has st po then (regrant st po s, granted s r.id)
      else if k = .seize ∧ s.hold.degraded then (s, refused .degraded s.own 0)
      else
        match joinRefusal r st po cls s with
        | some v => (s, v)
        | none => (joinCall st po s, granted s r.id)
    | none =>
      if k = .seize ∧ s.hold.degraded then (s, refused .degraded s.own 0)
      else
        match seizeRefusal k st po cls s with
        | some v => (s, v)
        | none => (createCall st po s, granted s (nextId s.call.lastId))

/-- A SEIZE or ANSWER judged by the hold state (R112); a HALTED station gives no answer. -/
def judge (k : RequestKind) (st po cls : Nat) (s : State) : State × Option Verdict :=
  match s.hold.state with
  | .holding => let (t, v) := judgeHolding k st po cls s; (t, some v)
  | .yielding => (s, some (refused .handover s.own 0))
  | .halted => (s, none)
  | _ => (s, some (refused .noHolder s.own 0))

/-- A SEIZE or ANSWER that came by frame is answered by a REPLY (R112). -/
def requestFrame (k : RequestKind) (st : Nat) (m : RequestMsg) (s : State) : State :=
  match judge k st m.port m.cls s with
  | (t, some v) => offerControl st (.reply ⟨m.tag, v.answer, v.refStation, v.refPort, v.ref⟩) t
  | (t, none) => t

/-- A LEAVE (R117). -/
def takeLeave (st po ref : Nat) (s : State) : State :=
  match s.call.record with
  | some r => if s.holding ∧ (ref = 0 ∨ ref = r.id) then removeParty st po s else s
  | none => s

/-! ## The exchange loop (R118, R119, R124) -/

def dueSeize (s : State) : Bool :=
  match s.call.record with
  | some r => timerOut s.now r.seize Config.seizeTime
  | none => false

/-- A failed seize: no rise of loop current for 1 s, though its level may have been high throughout (R118, log 69). -/
def seizeTimeout (s : State) : State :=
  if dueSeize s then endRecord (some .lineFault) (setCond .lineDead true s) else s

/-- Loop current rises (R118, R134). A record created while it already flows waits for a rise as any other does (R110,
log 69). -/
def currentRise (s : State) : State :=
  match s.call.record with
  | some r =>
    if r.seized then s else setCond .lineDead false (modRecord (fun r => { r with seized := true, seize := none }) s)
  | none => s

/-- The loss timer runs while SEIZED, the loop closed and no current; it starts when they begin to hold together
(R119). -/
def lossNow (s : State) (r : CallRecord) : Option Tick :=
  if r.seized && s.loopClosed && !s.pins.loopCurrent then some (r.loss.getD s.now) else none

def settleLoss (s : State) : State := modRecord (fun r => { r with loss := lossNow s r }) s

def dueLoss (s : State) : Bool :=
  match s.call.record with
  | some r => timerOut s.now r.loss Config.lossTime
  | none => false

def lossTimeout (s : State) : State := if dueLoss s then endRecord (some .farEnd) s else s

/-- How an item's first break is sent (R124). -/
def firstBreak (now : Tick) : DialItem → Outpulse
  | .digit n => .breaking ((if n.val = 0 then 10 else n.val) - 1) Config.dialBreak now
  | .flash => .breaking 0 Config.flashBreak now

/-- The oldest item begins to be sent in SEIZED and idle (R124). -/
def startOutpulse (s : State) : State :=
  match s.call.record with
  | some r =>
    match r.queue with
    | i :: rest =>
      if r.seized && decide (r.outpulse = .idle) then
        modRecord (fun r => { r with queue := rest, outpulse := firstBreak s.now i }) s
      else s
    | [] => s
  | none => s

def dueBreak (s : State) : Bool :=
  match s.call.record with
  | some r => match r.outpulse with | .breaking _ len t => ranOut s.now t len | _ => false
  | none => false

def dueMake (s : State) : Bool :=
  match s.call.record with
  | some r => match r.outpulse with | .making _ t => ranOut s.now t Config.dialMake | _ => false
  | none => false

def duePause (s : State) : Bool :=
  match s.call.record with
  | some r => match r.outpulse with | .pausing t => ranOut s.now t Config.dialPause | _ => false
  | none => false

/-- The outpulse state after the end of its present part (R124). -/
def afterPart (now : Tick) : Outpulse → Outpulse
  | .breaking 0 _ _ => .pausing now
  | .breaking (k + 1) _ _ => .making (k + 1) now
  | .making k _ => .breaking (k - 1) Config.dialBreak now
  | _ => .idle

def nextPart (s : State) : State := modRecord (fun r => { r with outpulse := afterPart s.now r.outpulse }) s

def breakEnd (s : State) : State := if dueBreak s then nextPart s else s
def makeEnd (s : State) : State := if dueMake s then nextPart s else s
def pauseEnd (s : State) : State := if duePause s then nextPart s else s

/-! ## Stale frames, DIAL and speech of parties (R120, R121, R123, R125) -/

/-- The same stale frame answered within the last second (R121). -/
def staleKnown (st po ref : Nat) (s : State) : Bool :=
  match s.call.stale with
  | some m =>
    decide (m.station = st) && decide (m.port = po) && decide (m.ref = ref) && within s.now m.time Config.silenceTime
  | none => false

/-- The cause a stale frame is answered with (R121). -/
def staleCause (ref : Nat) (s : State) : ClearCause :=
  match s.call.record with
  | some r => if s.holding ∧ r.id = ref then .partyLimit else .restart
  | none => .restart

/-- A stale VOICE or DIAL frame (R121). -/
def staleFrame (st po ref : Nat) (s : State) : State :=
  if s.halted || staleKnown st po ref s then s
  else
    sendClear st po ref (staleCause ref s) (s.modCall fun c => { c with stale := some ⟨st, po, ref, s.now⟩ })

/-- The record that a party's frame refers to. -/
def recordFor (st po ref : Nat) (s : State) : Bool :=
  match s.call.record with
  | some r => decide (r.id = ref) && r.has st po
  | none => false

def feedParty (st po : Nat) (q : Byte) (x : Speech) (now : Tick) (p : Party) : Party :=
  if isParty st po p then { p with silence := now, playout := p.playout.insert q x } else p

/-- A party-to-holder VOICE frame, or the same speech from an own port (R120, R121, R125). -/
def partyVoice (st po ref : Nat) (q : Byte) (x : Speech) (s : State) : State :=
  if recordFor st po ref s then
    modRecord (fun r => { r with parties := r.parties.map (feedParty st po q x s.now) }) s
  else staleFrame st po ref s

/-- A digit or flash for the exchange (R123). -/
def takeDial (st po ref : Nat) (i : DialItem) (s : State) : State :=
  if recordFor st po ref s then
    modRecord
      (fun r => if r.queue.length < Config.uplinkMax then { r with queue := r.queue ++ [i] } else r) s
  else staleFrame st po ref s

/-- A DIAL frame: an item that R3 does not list is discarded, after the check of its reference (R121, R123, log 25). -/
def dialFrame (st : Nat) (m : DialMsg) (s : State) : State :=
  match m.item with
  | .listed i => takeDial st m.port m.ref i s
  | .unlisted _ => if recordFor st m.port m.ref s then s else staleFrame st m.port m.ref s

def duePartySilence (st po : Nat) (s : State) : Bool :=
  match s.call.record with
  | some r => r.parties.any fun p => isParty st po p && ranOut s.now p.silence Config.silenceTime
  | none => false

/-- A party's stream has stopped (R120). -/
def partySilence (st po : Nat) (s : State) : State :=
  match s.call.record with
  | some r => if duePartySilence st po s then sendClear st po r.id .partyLimit (removeParty st po s) else s
  | none => s

/-! ## The mix (R125, R126) -/

/-- A frame's 80 samples as whole numbers. -/
def wide (x : Speech) : List Int := ((x ++ silence).take 80).map BitVec.toInt

def addWide (x y : List Int) : List Int := List.zipWith (· + ·) x y
def subWide (x y : List Int) : List Int := List.zipWith (· - ·) x y

def zeroWide : List Int := List.replicate 80 0

/-- A result clamped once (R126). -/
def clampSample (x : Int) : Sample :=
  if x < -32768 then BitVec.ofInt 16 (-32768) else if 32767 < x then BitVec.ofInt 16 32767 else BitVec.ofInt 16 x

def narrow (x : List Int) : Speech := x.map clampSample

/-- The sum of every party's samples. -/
def sumWide (xs : List Speech) : List Int := xs.foldl (fun acc x => addWide acc (wide x)) zeroWide

/-- What goes to the line, and to each party in order: the line and every party but itself (R126). -/
def mixLine (parties : List Speech) : Speech := narrow (sumWide parties)

def mixParty (line : Speech) (parties : List Speech) (own : Speech) : Speech :=
  narrow (subWide (addWide (wide line) (sumWide parties)) (wide own))

/-- A holder-to-party frame reaches its party: a port of this station takes it into its own playout buffer, or it is
sent (R107, R108, R125, R126, log 59). -/
def sendParty (id : Nat) (p : Party) (x : Speech) (s : State) : State :=
  if p.station = s.own then
    match portOf p.port with
    | some n =>
      s.modPort n fun q =>
        if q.state = .connected ∧ q.callRef = some (.outside s.own id) then
          { q with playout := q.playout.insert p.seq x }
        else q
    | none => s
  else offerVoice p.station ⟨.toParty, id, 0, p.port, p.seq, x⟩ s

/-- The mix at a 10 ms tap while a record exists (R125, R126); the parties' frames are handed on in the order of the
party list (log 62). -/
def mixTap (line : Speech) (s : State) : State :=
  match s.call.record with
  | some r =>
    let xs := r.parties.map fun p => p.playout.draw.1
    let t := (modRecord
      (fun r => { r with parties := r.parties.map fun p => { p with playout := p.playout.draw.2, seq := p.seq + 1 } })
      s).emit (.lineCodec (mixLine xs))
    (r.parties.zip xs).foldl (fun s px => sendParty r.id px.1 (mixParty line xs px.2) s) t
  | none => s

/-! ## Intercom bindings (R127 to R130) -/

/-- The next binding reference, passing over those in use (R127). -/
def nextRef (last : Nat) (used : List Nat) : Nat :=
  let a := nextId last
  if !used.contains a then a
  else
    let b := nextId a
    if !used.contains b then b else nextId b

/-- The ports an OFFER's target names (R128). -/
def offerTargets (target : Nat) (s : State) : List PortNo :=
  match portOf target with
  | some n => [n]
  | none => s.fittedPorts

/-- An OFFER that ports take: the ports ring, the entry is made (R98, R128). -/
def takeOffer (st po : Nat) (tag : Option Nat) (takers : List PortNo) (s : State) : State :=
  let ref := nextRef s.call.lastRef (s.call.bindings.map (·.ref))
  (takers.foldl (fun s n => s.modPort n (Port.ring s.now (.offerFrom st po ref))) s).modCall fun c =>
    { c with bindings := c.bindings ++ [⟨ref, st, po, tag, takers, false⟩], lastRef := ref }

/-- An OFFER judged (R128). -/
def judgeOffer (st po target : Nat) (tag : Option Nat) (s : State) : State × Verdict :=
  if target ≠ 0 ∧ !((portOf target).any fun n => s.fitted n) then (s, refused .noPort s.own target)
  else
    match (offerTargets target s).filter fun n => s.canRing n with
    | [] => (s, refused .portBusy s.own target)
    | takers =>
      (takeOffer st po tag takers s,
        granted s (nextRef s.call.lastRef (s.call.bindings.map (·.ref))))

/-- An OFFER from the wire (R128); a HALTED station does not answer. -/
def offerFrame (st : Nat) (m : RequestMsg) (s : State) : State :=
  if s.halted then s
  else
    let (t, v) := judgeOffer st m.port m.target (some m.tag) s
    offerControl st (.reply ⟨m.tag, v.answer, v.refStation, v.refPort, v.ref⟩) t

/-- Every local port of a ringing entry stops ringing, the port of a connected one is cleared; the entry goes
(R130). -/
def endBinding (b : Binding) (s : State) : State :=
  (b.locals.foldl (fun s n => if b.connected then clearPort n none none s else idlePort n s) s).modCall fun c =>
    { c with bindings := c.bindings.filter fun x => decide (x.ref ≠ b.ref) }

/-- The entry an END at the target station ends (R130). -/
def endMatches (st : Nat) (m : RequestMsg) (b : Binding) : Bool :=
  decide (b.station = st) && decide (b.port = m.port) &&
    (if m.ref = 0 then decide (b.tag = some m.tag) else decide (b.ref = m.ref))

/-- Whether a port's offer or call is the binding `ref` of station `st` (R129, R130). -/
def holdsBinding (st ref : Nat) (p : Port) : Bool :=
  (decide (p.state = .offering) &&
    (match p.pending with | some (.offered t _ (some r)) => decide (t = st) && decide (r = ref) | _ => false)) ||
  (decide (p.state = .connected) &&
    (match p.callRef with | some (.intercom _ _ r l) => decide (l = st) && decide (r = ref) | _ => false))

/-- An END from the wire (R130); one that fits an entry of the list ends that alone (log 48). -/
def endFrame (st : Nat) (m : RequestMsg) (s : State) : State :=
  match s.call.bindings.find? (endMatches st m) with
  | some b => endBinding b s
  | none =>
    match portOf m.target with
    | some n => if holdsBinding st m.ref (s.port n) then clearPort n none none s else s
    | none => s

/-- An OFFERING port that may take an ACCEPT (R129). -/
def mayAccept (st ref : Nat) (p : Port) : Bool :=
  decide (p.state = .offering) &&
    (match p.pending with
    | some (.offered t _ (some r)) => decide (t = st) && decide (r = ref)
    | some (.offered t _ none) => decide (t = st) && (p.outReq.any fun q => !q.held)
    | _ => false)

/-- An ACCEPT from the wire; one that is too late is answered with an END (R129). -/
def acceptFrame (st : Nat) (m : RequestMsg) (s : State) : State :=
  if s.halted then s
  else
    let late := sendRequest .endCall st ⟨m.target, ((portOf m.target).map s.classNo).getD 0, m.port, m.ref, 0⟩ s
    match portOf m.target with
    | some n => if mayAccept st m.ref (s.port n) then connectPort n (.intercom st m.port m.ref st) s else late
    | none => late

/-- A ringing port leaves its entry; an entry without ringing ports goes (R130). -/
def leaveBinding (n : PortNo) (ref : Nat) (s : State) : State :=
  s.modCall fun c =>
    { c with
      bindings := (c.bindings.map fun b =>
          if b.ref = ref then { b with locals := b.locals.filter fun m => decide (m ≠ n) } else b).filter
        fun b => !b.locals.isEmpty }

/-- The call controller at entry to HALTED: the record and the bindings end without a frame (R43, R132). -/
def haltCalls (s : State) : State := s.modCall fun c => { c with record := none, bindings := [] }

end Sys2Proof.Machine
end

