-- ==== Sys2Proof/Machine/Phones.lean ====
section
/-! DEFINITION. The port controllers at work: requests and their answers, dialling, hook and ringing
(05: R90 to R109). -/

namespace Sys2Proof.Machine

/-! ## Requests (R96, R97) -/

/-- The answer to a request of this port (R96); one that is neither GRANT nor REFUSE leaves it outstanding (log 25). -/
def takeAnswer (n : PortNo) (k : RequestKind) (holder : Nat) (v : Verdict) (s : State) : State :=
  match v.answer with
  | .refuse c => refusePort n c (v.refStation, v.refPort) s
  | .unlisted _ _ => s
  | .grant =>
    if k = .offer then
      s.modPort n fun p =>
        ({ p with
          outReq := none
          pending := match p.pending with
            | some (.offered st po _) => some (.offered st po (some v.ref))
            | q => q
          ringBack := some s.now }).setTone .ringBack s.now
    else connectPort n (.outside holder v.ref) s

/-- A port waits with a request recorded (R94, R96). -/
def Port.await (now : Tick) (st : PortState) (q : Pending × OutReq) (p : Port) : Port :=
  ({ p.stripped with
    state := st
    pending := if st = PortState.offering then some q.1 else none
    outReq := some q.2 }).setTone .silent now

/-- A SEIZE or ANSWER made now, outside LISTEN (R96, R97); one that the own controller does not answer stays
outstanding (R112). -/
def makeSeize (n : PortNo) (k : RequestKind) (s : State) : State :=
  match s.hold.known with
  | none => refusePort n .noHolder (s.own, 0) s
  | some h =>
    if h = s.own then
      match judge k s.own (portNo n) (s.portClass n) (useTag s) with
      | (t, some v) => takeAnswer n k s.own v t
      | (t, none) => t.modPort n (Port.await s.now .waiting (.exchange, ⟨k, s.ports.tag, h, 0, s.now, false⟩))
    else
      sendRequest k h ⟨portNo n, s.portClass n, 0, 0, 0⟩
        (s.modPort n (Port.await s.now .waiting (.exchange, ⟨k, s.ports.tag, h, 0, s.now, false⟩)))

/-- A SEIZE or ANSWER of a port: held in LISTEN (R97). -/
def requestLine (n : PortNo) (k : RequestKind) (s : State) : State :=
  if s.hold.state = .listen then
    s.modPort n (Port.await s.now .waiting (.exchange, ⟨k, 0, 0, 0, s.now, true⟩))
  else makeSeize n k s

/-- An offer to the station's own other port (R95, R98, R128). -/
def makeLocalOffer (n : PortNo) (target : Nat) (s : State) : State :=
  let other := otherPort n
  if target = portNo n then refusePort n .portBusy (s.own, target) s
  else if !s.fitted other then refusePort n .noPort (s.own, target) s
  else if s.canRing other then
    let ref := nextRef s.call.lastRef (s.call.bindings.map (·.ref))
    (takeOffer s.own (portNo n) none [other] s).modPort n fun p =>
      ({ p.stripped with
        state := .offering
        pending := some (.offered s.own target (some ref))
        ringBack := some s.now }).setTone .ringBack s.now
  else refusePort n .portBusy (s.own, target) s

/-- An offer made now, outside LISTEN (R95, R96). -/
def makeOffer (n : PortNo) (st target : Nat) (s : State) : State :=
  if st = s.own then makeLocalOffer n target s
  else
    match s.peer st with
    | none => refusePort n .noStation (st, 0) s
    | some e =>
      if e.hold = .listed .halted then refusePort n .halted (st, 0) s
      else
        sendRequest .offer st ⟨portNo n, s.portClass n, target, 0, 0⟩
          (s.modPort n
            (Port.await s.now .offering (.offered st target none, ⟨.offer, s.ports.tag, st, target, s.now, false⟩)))

/-- The target is settled and the offer made, or held in LISTEN (R95, R97). -/
def requestOffer (n : PortNo) (st target : Nat) (s : State) : State :=
  if s.hold.state = .listen then
    s.modPort n (Port.await s.now .offering (.offered st target none, ⟨.offer, 0, st, target, s.now, true⟩))
  else makeOffer n st target s

/-- A held request is made as if at this moment (R97); `all` releases offers too, when LISTEN ends. -/
def releaseHeld (all : Bool) (n : PortNo) (s : State) : State :=
  match (s.port n).outReq with
  | some q =>
    if q.held then
      if q.kind = .offer then (if all then makeOffer n q.dst q.target s else s) else makeSeize n q.kind s
    else s
  | none => s

/-- The request timer ran out, or the REQUEST was dropped (R96). -/
def requestFailed (n : PortNo) (q : OutReq) (s : State) : State :=
  clearPort n (some (.refused (if q.kind = .offer then .noStation else .noHolder))) none s

def dueRequest (n : PortNo) (s : State) : Bool :=
  match (s.port n).outReq with
  | some q => !q.held && ranOut s.now q.made Config.requestTime
  | none => false

def requestTimeout (n : PortNo) (s : State) : State :=
  match (s.port n).outReq with
  | some q => if dueRequest n s then requestFailed n q s else s
  | none => s

/-- The outstanding request a REPLY or a drop notice answers (R8, R96). -/
def waitsFor (tag : Nat) (p : Port) : Bool := p.outReq.any fun q => !q.held && decide (q.tag = tag)

/-- A REPLY at one port (R8, R96). -/
def replyAt (src : Nat) (m : ReplyMsg) (n : PortNo) (s : State) : State :=
  match (s.port n).outReq with
  | some q => takeAnswer n q.kind src ⟨m.answer, m.refStation, m.refPort, m.ref⟩ s
  | none => s

/-- A REPLY (R8): to the port whose request carries its tag, else discarded as late. -/
def replyFrame (src : Nat) (m : ReplyMsg) (s : State) : State :=
  if waitsFor m.tag (s.port .one) then replyAt src m .one s
  else if waitsFor m.tag (s.port .two) then replyAt src m .two s
  else s

/-! ## Digits (R91 to R95) -/

/-- A digit as the port takes it: a digit, star or hash, or an invalid digit; `pulsed` tells a pulse digit. -/
inductive Dialled
  | key (k : Key) (pulsed : Bool)
  | invalid
  deriving DecidableEq, Repr

/-- CLEARED with busy tone and last cause none (R93 to R95). -/
def failDial (n : PortNo) (s : State) : State := clearPort n none none s

/-- The first digit (R94). -/
def firstDigit (n : PortNo) (d : Dialled) (s : State) : State :=
  match d with
  | .key (.digit v) _ =>
    if v.val = 9 then requestLine n .seize s
    else if v.val = 0 then failDial n s
    else
      s.modPort n fun p =>
        ({ p with digit := some v.val, digitAt := some s.now, firstDigit := none }).setTone .silent s.now
  | _ => failDial n s

/-- The port digit (R95). -/
def portDigit (n : PortNo) (st : Nat) (d : Dialled) (s : State) : State :=
  match d with
  | .key (.digit v) _ => if v.val = 1 ∨ v.val = 2 then requestOffer n st v.val s else failDial n s
  | _ => failDial n s

/-- A digit or flash for the exchange, sent to the holder of the call or handed to the own call controller (R102). -/
def sendDial (n : PortNo) (i : DialItem) (s : State) : State :=
  match (s.port n).callRef with
  | some (.outside h id) =>
    if h = s.own then takeDial s.own (portNo n) id i s else offerControl h (.dial ⟨id, portNo n, .listed i⟩) s
  | _ => s

/-- A digit under the rules of the port's state (R92). A tone digit that comes after the 3 s of R95 while a pulse count
is open is taken as the port digit (log 47). -/
def takeDigit (n : PortNo) (d : Dialled) (s : State) : State :=
  let p := s.port n
  match p.state with
  | .dialing =>
    match p.digit with
    | none => firstDigit n d s
    | some st => portDigit n st d s
  | .connected =>
    match d with
    | .key (.digit v) true => sendDial n (.digit v) s
    | _ => s
  | _ => s

/-- What a closed pulse count stands for (R91). -/
def countDigit (c : Nat) : Dialled :=
  if h : c < 10 then .key (.digit ⟨c, h⟩) true else if c = 10 then .key (.digit 0) true else .invalid

def clearCount (n : PortNo) (s : State) : State := s.modPort n fun p => { p with pulses := 0, pulseEnd := none }

def dueCount (n : PortNo) (s : State) : Bool :=
  let p := s.port n
  decide (0 < p.pulses) && p.breakStart.isNone && timerOut s.now p.pulseEnd Config.pulseClose

/-- The pulse count closes (R91). -/
def pulseCountClose (n : PortNo) (s : State) : State :=
  if dueCount n s then takeDigit n (countDigit (s.port n).pulses) (clearCount n s) else s

/-- A dial pulse is counted; the first ends the dial tone and its timer (R91, R93). -/
def countPulse (n : PortNo) (s : State) : State :=
  s.modPort n fun p =>
    let q := { p with pulses := min 11 (p.pulses + 1), pulseEnd := some s.now }
    if decide (p.state = .dialing) && p.firstDigit.isSome then
      ({ q with firstDigit := none }).setTone .silent s.now
    else q

/-- A flash: it closes an open count as an invalid digit, and goes to the exchange on an outside call (R90 to
R92). -/
def takeFlash (n : PortNo) (s : State) : State :=
  let t := if 0 < (s.port n).pulses then takeDigit n .invalid (clearCount n s) else s
  if (t.port n).state = .connected then sendDial n .flash t else t

/-- A tone digit event (R92, R93). -/
def toneDigit (n : PortNo) (k : Key) (s : State) : State :=
  if s.fitted n then takeDigit n (.key k false) s else s

def dueFirstDigit (n : PortNo) (s : State) : Bool :=
  decide ((s.port n).state = .dialing) && timerOut s.now (s.port n).firstDigit Config.firstDigitTime

/-- No first digit: PARKED with howler (R93, R104). -/
def firstDigitTimeout (n : PortNo) (s : State) : State :=
  if dueFirstDigit n s then
    s.modPort n fun p =>
      ({ p.stripped with state := .parked, howler := some s.now }).setTone .howler s.now
  else s

def duePortDigit (n : PortNo) (s : State) : Bool :=
  let p := s.port n
  decide (p.state = .dialing) && decide (p.pulses = 0) && timerOut s.now p.digitAt Config.portDigitTime

/-- No port digit: every port of the target station (R95). -/
def portDigitTimeout (n : PortNo) (s : State) : State :=
  if duePortDigit n s then
    match (s.port n).digit with
    | some st => requestOffer n st 0 s
    | none => s
  else s

/-! ## Waking (R171) -/

/-- A wake: the front end powers up and settles (R171). -/
def wake (s : State) : State :=
  if s.power.state = .watch then
    s.modPower fun p => { p with state := .battery, frontEnd := .settling s.now }
  else s

/-! ## Hook (R90, R93, R99, R103) -/

/-- The offer a RINGING port holds is answered (R99, R129); the ACCEPT takes the next tag (log 58), an acceptance inside the
station none (log 46). -/
def acceptOffer (n : PortNo) (st po ref : Nat) (s : State) : State :=
  let others := s.fittedPorts.filter fun m =>
    decide (m ≠ n) && decide ((s.port m).pending = some (.offerFrom st po ref))
  let t := (others.foldl (fun s m => idlePort m s) s).modCall fun c =>
    { c with bindings := c.bindings.map fun b => if b.ref = ref then { b with locals := [n], connected := true } else b }
  let u := connectPort n (.intercom st po ref s.own) t
  if st = s.own then
    match portOf po with
    | some m =>
      if holdsBinding s.own ref (u.port m) then connectPort m (.intercom s.own (portNo n) ref s.own) u else u
    | none => u
  else sendRequest .accept st ⟨portNo n, s.portClass n, po, ref, 0⟩ u

/-- An off-hook (R90, R93, R99, R109, R171). -/
def offHook (n : PortNo) (s : State) : State :=
  let w := (wake s).modPort n fun p => { p with offHook := true, breakStart := none, ringOn := false }
  let p := s.port n
  match p.state with
  | .idle =>
    if s.halted then
      w.modPort n fun p =>
        ({ p.stripped with state := .cleared, lastCause := some (.refused .halted), lastRef := none }).setTone .fault
          s.now
    else
      w.modPort n fun p =>
        ({ p.stripped with state := .dialing, firstDigit := some s.now }).setTone s.dialTone s.now
  | .ringing =>
    match p.pending with
    | some (.offerFrom st po ref) => acceptOffer n st po ref w
    | _ => requestLine n .answer w
  | _ => w

/-- What a port sends as it goes on-hook (R103); what stays inside the station takes no tag (log 46). A LEAVE carries
target port 0, and an END from an OFFERING port the target port of its offer (log 61). -/
def hangUp (n : PortNo) (s : State) : State :=
  let p := s.port n
  match p.state with
  | .waiting =>
    match p.outReq with
    | some q =>
      if q.held then s
      else if q.dst = s.own then takeLeave s.own (portNo n) 0 s
      else sendRequest .leave q.dst ⟨portNo n, s.portClass n, 0, 0, 0⟩ s
    | none => s
  | .offering =>
    match p.pending with
    | some (.offered st target none) =>
      match p.outReq with
      | some q =>
        if q.held then s
        else offerControl st (.request .endCall ⟨portNo n, s.portClass n, target, 0, q.tag⟩) s
      | none => s
    | some (.offered st target (some ref)) =>
      if st = s.own then
        match s.call.bindings.find? fun b => decide (b.ref = ref) with
        | some b => endBinding b s
        | none => s
      else sendRequest .endCall st ⟨portNo n, s.portClass n, target, ref, 0⟩ s
    | _ => s
  | .connected =>
    match p.callRef with
    | some (.outside h id) =>
      if h = s.own then takeLeave s.own (portNo n) id s
      else sendRequest .leave h ⟨portNo n, s.portClass n, 0, id, 0⟩ s
    | some (.intercom st po ref l) =>
      if st = s.own then
        match portOf po with
        | some m => if m ≠ n ∧ holdsBinding l ref (s.port m) then clearPort m none none s else s
        | none => s
      else sendRequest .endCall st ⟨portNo n, s.portClass n, po, ref, 0⟩ s
    | none => s
  | _ => s

/-- An on-hook (R90, R91, R103). -/
def onHook (n : PortNo) (s : State) : State :=
  dropBinding n
    ((hangUp n s).modPort n fun p =>
      { p.toIdle s.now with offHook := false, breakStart := none, pulses := 0, pulseEnd := none })

def dueOnHook (n : PortNo) (s : State) : Bool :=
  (s.port n).offHook && (s.port n).breakStart.any fun b => decide ((Config.flashLimit : Int) < elapsed s.now b)

def onHookEvent (n : PortNo) (s : State) : State := if dueOnHook n s then onHook n s else s

/-- A fall of the hook input begins a break (R90). -/
def hookFall (n : PortNo) (s : State) : State :=
  if s.fitted n && (s.port n).offHook && (s.port n).breakStart.isNone then
    s.modPort n fun p => { p with breakStart := some s.now }
  else s

/-- A rise of the hook input ends a break, or is an off-hook (R90). -/
def hookRise (n : PortNo) (s : State) : State :=
  if s.fitted n then
    if (s.port n).offHook then
      match (s.port n).breakStart with
      | some b =>
        let len := elapsed s.now b
        let t := s.modPort n fun p => { p with breakStart := none }
        if len < Config.pulseLimit then countPulse n t
        else if len ≤ Config.flashLimit then takeFlash n t
        else offHook n (onHook n s)
      | none => s
    else offHook n s
  else s

/-! ## Ringing (R98) -/

/-- One port at a ring burst (R98). -/
def burstPort (n : PortNo) (s : State) : State :=
  if s.canRing n && (s.portCfg n).rings then s.modPort n (Port.ring s.now .exchange)
  else if (s.port n).pending = some .exchange then s.modPort n fun p => { p with ringOn := true, ringAt := s.now }
  else s

/-- A ring burst (R98, R149, R152, R171). -/
def ringBurst (s : State) : State :=
  if s.interface then
    (abortTest ((wake s).modPorts fun ps => { ps with ringing := some s.now })).modFault
        (fun m => { m with lastBurst := some s.now })
      |>.eachPort burstPort
  else s

def dueRinging (s : State) : Bool := timerOut s.now s.ports.ringing Config.ringingTime

/-- Exchange ringing ends (R98). -/
def ringingEnd (s : State) : State :=
  if dueRinging s then
    (s.modPorts fun ps => { ps with ringing := none }).eachPort fun n s =>
      if (s.port n).pending = some .exchange then idlePort n s else s
  else s

def dueRingDrive (n : PortNo) (s : State) : Bool :=
  let p := s.port n
  decide (p.pending = some .exchange) && p.ringOn && ranOut s.now p.ringAt Config.second

/-- The drive of an exchange ring ends (R98). -/
def ringDriveTimeout (n : PortNo) (s : State) : State :=
  if dueRingDrive n s then s.modPort n fun p => { p with ringOn := false } else s

/-- A port rings for an intercom offer. -/
def Port.intercomRing (p : Port) : Bool :=
  match p.pending with
  | some (.offerFrom _ _ _) => true
  | _ => false

def dueIntercomCadence (n : PortNo) (s : State) : Bool :=
  let p := s.port n
  p.intercomRing && ranOut s.now p.ringAt (if p.ringOn then Config.second else 2 * Config.second)

/-- Intercom ringing, 1 s on and 2 s off (R98). -/
def intercomCadence (n : PortNo) (s : State) : State :=
  if dueIntercomCadence n s then s.modPort n fun p => { p with ringOn := !p.ringOn, ringAt := s.now } else s

def dueOfferRing (n : PortNo) (s : State) : Bool := timerOut s.now (s.port n).offerAt Config.ringLimit

/-- Intercom ringing ends after 30 s (R98, R130). -/
def offerRingTimeout (n : PortNo) (s : State) : State :=
  if dueOfferRing n s then
    match (s.port n).pending with
    | some (.offerFrom _ _ ref) => leaveBinding n ref (idlePort n s)
    | _ => s
  else s

/-! ## Timers of tones and silence (R100, R102, R104) -/

def dueRingBack (n : PortNo) (s : State) : Bool := timerOut s.now (s.port n).ringBack Config.ringLimit

/-- The 30 s of an offer run out (R100). -/
def ringBackTimeout (n : PortNo) (s : State) : State :=
  if dueRingBack n s then clearPort n none none (hangUp n s) else s

def outsideRef (p : Port) : Bool :=
  match p.callRef with
  | some (.outside _ _) => true
  | _ => false

def dueHolderSilence (n : PortNo) (s : State) : Bool :=
  outsideRef (s.port n) && timerOut s.now (s.port n).silence Config.silenceTime

def holderSilence (n : PortNo) (s : State) : State :=
  if dueHolderSilence n s then clearPort n (some (.cleared .holderLost)) none s else s

def dueFarSilence (n : PortNo) (s : State) : Bool :=
  !outsideRef (s.port n) && timerOut s.now (s.port n).silence Config.silenceTime

def farSilence (n : PortNo) (s : State) : State :=
  if dueFarSilence n s then clearPort n (some (.cleared .partyLimit)) none s else s

def dueHowler (n : PortNo) (s : State) : Bool := timerOut s.now (s.port n).howler Config.ringLimit

/-- The howler ends; the port stays PARKED (R104). -/
def howlerTimeout (n : PortNo) (s : State) : State :=
  if dueHowler n s then s.modPort n fun p => ({ p with howler := none }).setTone .silent s.now else s

def dueTone (n : PortNo) (s : State) : Bool :=
  let p := s.port n
  match (toneSteps p.tone)[p.toneStep]? with
  | some len => ranOut s.now p.toneAt len
  | none => false

/-- The next part of a tone's cadence (R101, R104). -/
def toneCadence (n : PortNo) (s : State) : State :=
  if dueTone n s then
    s.modPort n fun p => { p with toneStep := (p.toneStep + 1) % (toneSteps p.tone).length, toneAt := s.now }
  else s

/-- A port playing dial tone or stutter dial tone changes between them (R93, R148). -/
def tonePort (n : PortNo) (s : State) : State :=
  s.modPort n fun p =>
    if (p.tone = .dial ∨ p.tone = .stutter) ∧ p.tone ≠ s.dialTone then p.setTone s.dialTone s.now else p

def settleTones (s : State) : State := s.eachPort tonePort

/-! ## Speech at a 10 ms tap (R106 to R108) -/

/-- A CONNECTED port sends its frame (R106). -/
def sendVoice (codec : PortNo → Speech) (n : PortNo) (s : State) : State :=
  let p := s.port n
  let t := s.modPort n fun p => { p with seq := p.seq + 1 }
  match p.callRef with
  | some (.outside h id) =>
    if h = s.own then partyVoice s.own (portNo n) id p.seq (codec n) t
    else offerVoice h ⟨.toHolder, id, portNo n, 0, p.seq, codec n⟩ t
  | some (.intercom st po ref _) =>
    if st = s.own then
      match portOf po with
      | some m => t.emit (.portCodec m (codec n))
      | none => t
    else offerVoice st ⟨.intercom, ref, portNo n, po, p.seq, codec n⟩ t
  | none => s

/-- A port whose speech comes from its playout buffer (R106). -/
def playsBuffer (own : Nat) (p : Port) : Bool :=
  match p.callRef with
  | some (.outside _ _) => true
  | some (.intercom st _ _ _) => decide (st ≠ own)
  | none => false

/-- A CONNECTED port gives its codec 80 samples (R108). -/
def playPort (n : PortNo) (s : State) : State :=
  let p := s.port n
  if playsBuffer s.own p then
    (s.modPort n fun p => { p with playout := p.playout.draw.2 }).emit (.portCodec n p.playout.draw.1)
  else s

/-- The 10 ms tap: frames are sent, the mix is made, and the buffers play (R106, R108, R126, log 24). -/
def voiceTap (codec : PortNo → Speech) (line : Speech) (s : State) : State :=
  (mixTap line (s.eachPort (sendVoice codec))).eachPort playPort

/-- A VOICE frame's call reference matches the port's call, whatever its source (R107, log 38). -/
def voiceMatches (m : VoiceMsg) (p : Port) : Bool :=
  match m.stream, p.callRef with
  | .toParty, some (.outside _ id) => decide (id = m.ref)
  | .intercom, some (.intercom _ _ ref _) => decide (ref = m.ref)
  | _, _ => false

/-- A VOICE frame for a port (R102, R107). -/
def portVoice (m : VoiceMsg) (n : PortNo) (s : State) : State :=
  if voiceMatches m (s.port n) then
    s.modPort n fun p =>
      { p with
        playout := p.playout.insert m.seq m.samples
        silence := if decide (m.stream = .intercom) && p.silence.isSome then some s.now else p.silence }
  else s

/-- A VOICE frame (R8). -/
def voiceFrame (src : Nat) (m : VoiceMsg) (s : State) : State :=
  match m.stream with
  | .toHolder => partyVoice src m.srcPort m.ref m.seq m.samples s
  | _ =>
    match portOf m.dstPort with
    | some n => portVoice m n s
    | none => s

/-- The port controllers at entry to HALTED (R109). -/
def haltPorts (s : State) : State := s.eachPort fun n s => s.modPort n (Port.halt s.now)

end Sys2Proof.Machine
end

