-- ==== Sys2Proof/Machine/Reports.lean ====
section
/-! DEFINITION. The report controller: the outstanding report, the holder's report queue and the outcomes of the
mailbox (08: R153 to R162); and the line test (07: R149 to R152). -/

namespace Sys2Proof.Machine

/-! ## The report queue (R157, R160) -/

/-- A copy placed in a report queue: in place of its pair's entry, else at the tail; none when there is no room
(R157). -/
def placeReport (r : FaultRecord) (q : List FaultRecord) : Option (List FaultRecord) :=
  if q.any (sameKey r) then some (q.map fun e => if sameKey r e then r else e)
  else if q.length < Config.reportMax then some (q ++ [r])
  else none

def setReportQueue (q : List FaultRecord) (s : State) : State := s.modReport fun p => { p with queue := q }

/-- A REPORT frame (R157). -/
def reportFrame (src : Nat) (r : FaultRecord) (s : State) : State :=
  if s.holding && decide (r.origin = src) && decide (r.trigger < 8) && decide (r.count ≠ 0) then
    match placeReport r s.report.queue with
    | some q => setReportQueue q s
    | none => s
  else s

/-- Whether an entry is the one the mailbox is offering (R86, R160). -/
def offeredEntry (s : State) (e : FaultRecord) : Bool := s.sup.mailbox.any fun m => sameKey m.record e

/-- The record of a LASTGASP at a HOLDING station, which makes room for it under the pair it carries, whatever its
origin and trigger (R160, log 51). -/
def takeGasp (r : FaultRecord) (s : State) : State :=
  if s.holding then
    match placeReport r s.report.queue with
    | some q => setReportQueue q s
    | none =>
      setReportQueue ((s.report.queue.eraseP fun e => !offeredEntry s e).take (Config.reportMax - 1) ++ [r]) s
  else s

/-! ## Sending and taking in (R154, R158) -/

/-- A record as it is sent: SENT, its sent count its occurrence count (R154, R158). -/
def asSent (r : FaultRecord) : FaultRecord := { r with state := .sent, sentCount := r.count }

def isNew (r : FaultRecord) : Bool := decide (r.state = .new)

/-- A non-holder sends its oldest NEW record to a holder that announces broadband up (R154). -/
def sendReport (s : State) : State :=
  match s.hold.known with
  | some h =>
    if s.report.outstanding.isNone && s.broadbandOf h && !s.halted then
      match s.fault.list.find? isNew with
      | some r =>
        offerControl h (.report (asSent r))
          ((setFaultList (updFirst isNew asSent s.fault.list) s).modReport fun p =>
            { p with outstanding := some ⟨r.trigger, r.count, h, s.now⟩ })
      | none => s
    else s
  | none => s

/-- Each NEW record in turn enters the queue and is SENT; one that finds no room stays NEW (R158). -/
def takeInList : List FaultRecord → List FaultRecord → List FaultRecord × List FaultRecord
  | [], q => ([], q)
  | r :: rest, q =>
    if isNew r then
      match placeReport (asSent r) q with
      | some q' => let (l, q'') := takeInList rest q'; (asSent r :: l, q'')
      | none => let (l, q') := takeInList rest q; (r :: l, q')
    else let (l, q') := takeInList rest q; (r :: l, q')

/-- A HOLDING station takes its own NEW records in (R158). -/
def takeIn (s : State) : State :=
  let x := takeInList s.fault.list s.report.queue
  setReportQueue x.2 (setFaultList x.1 s)

def settleReports (s : State) : State := if s.holding then takeIn s else sendReport s

/-! ## Receipts (R155, R156, R159) -/

def setRecordState (n : Nat) (st : RecordState) (s : State) : State :=
  setFaultList
    (s.fault.list.map fun r => if decide (r.trigger = n) && decide (r.state = .sent) then { r with state := st } else r)
    s

/-- The outstanding report of this trigger ends (R155). -/
def endOutstanding (n : Nat) (s : State) : State :=
  s.modReport fun p =>
    { p with outstanding := p.outstanding.filter fun o => decide (o.trigger ≠ n) }

/-- A RECEIPT judged against the SENT record of its trigger (R155). -/
def judgeReceipt (n count : Nat) (s : State) : State :=
  match s.fault.list.find? fun r => decide (r.trigger = n) && decide (r.state = .sent) with
  | some r =>
    endOutstanding n
      (if r.count = count then recordGone n (setRecordState n .reported s) else setRecordState n .new s)
  | none => s

def dueReceipt (s : State) : Bool :=
  match s.report.outstanding with
  | some o => ranOut s.now o.start Config.receiptTime
  | none => false

/-- The receipt timer runs out (R156). -/
def receiptTimeout (s : State) : State :=
  match s.report.outstanding with
  | some o =>
    if dueReceipt s then (setRecordState o.trigger .new s).modReport fun p => { p with outstanding := none } else s
  | none => s

/-- The offer in the mailbox ends. -/
def closeMailbox (s : State) : State := s.modSup fun u => { u with mailbox := none }

/-- An answer of the modem: one to an offer withdrawn at this moment is ignored, another is taken for the copy offered,
and with none offered it is ignored (R86, log 60). -/
def answered (take : FaultRecord → State → State) (s : State) : State :=
  if 0 < s.sup.late then s.modSup fun u => { u with late := u.late - 1 }
  else
    match s.sup.mailbox with
    | some m => take m.record (closeMailbox s)
    | none => s

/-- The outcome delivered: a receipt, or the own record's judgement, and the entry leaves (R159). The holder's own record
is one whose origin is the station's present id (log 63). -/
def delivered (r : FaultRecord) (s : State) : State :=
  let t :=
    if r.trigger = 8 then s
    else if r.origin = s.own then judgeReceipt r.trigger r.count s
    else offerControl r.origin (.receipt r.trigger r.count) s
  t.modReport fun p =>
    { p with queue := p.queue.filter fun e => !(sameKey r e && (decide (r.trigger = 8) || decide (e.count = r.count))) }

/-- The modem answers DELIVERED (R86, R159). -/
def mailboxDelivered (s : State) : State := answered delivered s

/-- Not delivered: the pair's entry moves to the tail (R159). -/
def notDelivered (r : FaultRecord) (s : State) : State :=
  s.modReport fun p => { p with queue := p.queue.filter (fun e => !sameKey r e) ++ p.queue.filter (sameKey r) }

/-- The modem answers REFUSED (R86). -/
def mailboxRefused (s : State) : State := answered notDelivered s

/-- The mailbox timer runs out (R86). -/
def mailboxTimeout (s : State) : State :=
  match s.sup.mailbox with
  | some m => if dueMailbox s then notDelivered m.record (withdrawOffer s) else s
  | none => s

/-- What leaving HOLDING does to the reports (R161). -/
def leaveReports (s : State) : State :=
  { s with
    fault := { s.fault with
      list := s.fault.list.map fun r => if r.state = .sent then { r with state := .new } else r }
    report := ⟨none, []⟩ }

/-! ## The line test (R149 to R152) -/

/-- A ring burst within the last 10 s (R150). -/
def recentBurst (s : State) : Bool :=
  match s.fault.lastBurst with
  | some b => within s.now b Config.recentRing
  | none => false

def startTest (s : State) : State := s.modFault fun m => { m with test := some ⟨1, [], s.now⟩ }

/-- The due time after a completed test; a wait over 12 hours is kept in two parts (R149). -/
def dueAfter (now : Tick) (hours : Nat) : Option Tick × Nat :=
  let len := hours * Config.hour
  if hours = 0 then (none, 0)
  else if len ≤ Config.halfDay then (some (now + ticks len), 0)
  else (some (now + ticks Config.halfDay), len - Config.halfDay)

/-- The 10 s tap at the line test (R149, R150). -/
def testTap (s : State) : State :=
  match s.fault.due with
  | some d =>
    if 0 ≤ elapsed s.now d then
      if 0 < s.fault.rest then s.modFault fun m => { m with due := some (d + ticks m.rest), rest := 0 }
      else if s.holding && s.fault.test.isNone && s.call.record.isNone && !recentBurst s then startTest s
      else s
    else s
  | none => s

/-- The condition set after a completed test (R134, R151). -/
def testedConds (v : BitVec 16) (results : List Bool) : BitVec 16 :=
  writeCond (writeCond (writeCond v .lineDead (results.getD 0 false)) .lineLeaky (results.getD 1 false)) .lineForeign
    (results.getD 2 false)

def dueTestStep (s : State) : Bool :=
  match s.fault.test with
  | some t => ranOut s.now t.start Config.testStep
  | none => false

/-- A test step ends with its result (R151). -/
def testStepEnd (out : Bool) (s : State) : State :=
  match s.fault.test with
  | some t =>
    if dueTestStep s then
      if t.step < 3 then s.modFault fun m => { m with test := some ⟨t.step + 1, t.results ++ [out], s.now⟩ }
      else
        let d := dueAfter s.now s.cfg.testInterval
        setConds (testedConds s.fault.conds (t.results ++ [out]))
          (s.modFault fun m => { m with test := none, due := d.1, rest := d.2 })
    else s
  | none => s

/-- The line interface's test outputs: asserted, and the step (R151). -/
def State.testLines (s : State) : Option Nat := s.fault.test.map (·.step)

end Sys2Proof.Machine
end

