-- ==== Sys2Proof/Machine/Holding.lean ====
section
/-! DEFINITION. The hold controller: the roster, the known holder, the hold states, tiebreaks and HALTED
(02: R22 to R46). -/

namespace Sys2Proof.Machine

/-! ## Hold states -/

/-- A BEACON is queued unless one is waiting; only while the front end is live (R31). -/
def queueBeacon (s : State) : State :=
  if s.live && !s.wire.control.any waitingBeacon then offerControl 0 .beacon s else s

/-- Entry to SEEKING: the deferral starts if the station is eligible (R34). -/
def enterSeeking (s : State) : State :=
  s.modHold fun h =>
    { h with
      state := .seeking, follow := none, contest := none, listen := none
      deferral := if h.eligible then some s.now else none }

/-- Entry to PASSIVE, following a holder or a claim (R32 to R35). -/
def enterPassive (f : Option Follow) (s : State) : State :=
  s.modHold fun h => { h with state := .passive, follow := f, contest := none, listen := none, deferral := none }

/-- The deferral ends: a CLAIM is queued (R34, R35). -/
def enterClaiming (s : State) : State :=
  offerControl 0 (.claim s.hold.tiebreak (s.hold.claimSerial + 1))
    (s.modHold fun h =>
      { h with state := .claiming, deferral := none, contest := none, claimSerial := h.claimSerial + 1 })

/-- What the station's neighbours do when it leaves HOLDING (R40, R43): the record ends with the cause given, the
modem goes to OFF with its map emptied, the test is given up, the reports are discarded. -/
def leaveHolding (cause : Option ClearCause) (s : State) : State :=
  leaveReports
    (((abortTest (goOff (endRecord cause s))).modSup fun u => { u with map := [] }).modFault fun m =>
      { m with due := none, rest := 0 })

/-- Entry to HOLDING (R36, R149). -/
def enterHolding (s : State) : State :=
  let h := s.modHold fun h =>
    { h with state := .holding, follow := none, deferral := none, contest := none, degraded := false }
  let t := (h.modSup fun u => { u with uplink := [], map := [] }).modReport fun p => { p with queue := [] }
  let u := t.modFault fun m =>
    { m with due := if s.cfg.testInterval = 0 then none else some (s.now + ticks Config.firstTest), rest := 0 }
  queueBeacon (if s.full then enterTraining u else u)

/-- Entry to YIELDING (R40); the cause is DUAL when the keeper rule was lost. -/
def enterYielding (cause : Option ClearCause) (s : State) : State :=
  offerControl 0 .yield
    ((leaveHolding cause s).modHold fun h => { h with state := .yielding, degraded := false })

/-- YIELDING ends (R41). -/
def yieldDone (s : State) : State := if s.hold.known.isSome then enterPassive none s else enterSeeking s

/-- Entry to HALTED, unless the station is HALTED already or the last-gasp window is open (R43, R172). -/
def enterHalted (code : HaltCode) (s : State) : State :=
  if s.halted || s.power.window.isSome then s
  else
    let t := haltCalls (if s.holding then leaveHolding none s else goOff s)
    let u := (flushAll t).modHold fun h =>
      { h with
        state := .halted, halt := some code, eligible := false, degraded := false
        listen := none, follow := none, deferral := none, contest := none }
    offerControl 0 .halt (haltPorts u)

/-! ## The roster (R22 to R27) -/

/-- An entry after a frame that announces `h` (R23); a code that R2 does not list is recorded as announced (log 25). -/
def Peer.hears (start : Tick) (h : Coded HoldState) (p : Peer) : Peer :=
  { p with
    hold := h, miss := 0, lastHeard := start
    block := if h = .listed .holding then p.block else none
    halt := if h = .listed .halted then p.halt else none }

def freshPeer (id : Nat) (start : Tick) (h : Coded HoldState) : Peer := ⟨id, h, 0, start, none, none, none, none⟩

/-- The roster after a heard frame, in id order (R22, R23). -/
def hearIn (id : Nat) (start : Tick) (h : Coded HoldState) : List Peer → List Peer
  | [] => [freshPeer id start h]
  | p :: ps =>
    if p.id = id then p.hears start h :: ps
    else if id < p.id then freshPeer id start h :: p :: ps
    else p :: hearIn id start h ps

/-- One entry rewritten. -/
def modPeer (id : Nat) (f : Peer → Peer) (s : State) : State :=
  s.modHold fun h => { h with roster := h.roster.map fun p => if p.id = id then f p else p }

/-- A heard frame from another station (R23, R27, R102). -/
def heardFrame (src : Nat) (start : Tick) (h : Coded HoldState) (s : State) : State :=
  (s.modHold fun q =>
      { q with roster := hearIn src start h q.roster, lost := q.lost.filter fun i => decide (i ≠ src) }).modPorts
    fun ps => { ps with one := feedHolder src s.now ps.one, two := feedHolder src s.now ps.two }

def partOf (f : BeaconFixed) : BeaconPart := ⟨f.power, f.modem, f.eligible, f.cls, f.holdTime⟩

/-- A BEACON's fields (R24). -/
def Peer.beaconed (h : Coded HoldState) (m : BeaconMsg) (p : Peer) : Peer :=
  { p with
    tiebreak := some m.fixed.tiebreak, part := some (partOf m.fixed)
    block := if h = .listed .holding then m.holder else p.block }

/-- A HALT's fields (R24). -/
def Peer.haltHeard (m : HaltMsg) (p : Peer) : Peer :=
  { p with
    tiebreak := some m.fixed.tiebreak, part := some (partOf m.fixed)
    halt := if p.hold = .listed .halted then some m.code else none }

/-- The part of an entry that a LASTGASP creates: the fixed values, power STOP (R22, R25). R22 gives a tiebreak no fixed
value, and the entry's own is left as it was, absent where none has been heard (log 67). -/
def goneStop (b : Option BeaconPart) : BeaconPart :=
  match b with
  | some b => { b with power := .listed .stop }
  | none => ⟨.listed .stop, false, false, 3, 0⟩

/-- A LASTGASP's sender (R25); its tiebreak stays as it was, or absent (log 67). -/
def Peer.gasped (p : Peer) : Peer :=
  { p with
    part := some (goneStop p.part)
    hold := if p.hold = .listed .holding then .listed .yielding else p.hold
    block := none }

/-- The entries a tap ages: those HALTED or those not (R26). -/
def agesAt (halted : Bool) (p : Peer) : Bool := decide (p.hold = .listed .halted) == halted

def expires (halted : Bool) (p : Peer) : Bool := agesAt halted p && decide (3 ≤ p.miss)

def age (halted : Bool) (p : Peer) : Peer := if agesAt halted p then { p with miss := p.miss + 1 } else p

/-- The lost set with an id joined, without repetition (R27). -/
def joinLost (lost : List Nat) (id : Nat) : List Nat := if lost.contains id then lost else lost ++ [id]

/-- The roster aged at a tap; expired stations join the lost set and their borrowed tracks go (R26, R27, R63). -/
def ageRoster (halted : Bool) (s : State) : State :=
  let gone := (s.hold.roster.filter (expires halted)).map (·.id)
  gone.foldl lenderGone
    (s.modHold fun h =>
      { h with
        roster := (h.roster.filter fun p => !expires halted p).map (age halted)
        lost := gone.foldl joinLost h.lost })

/-! ## The known holder (R28, R29) -/

/-- The hold state's answer to a known holder that is new or gone (R32 to R35, R97). -/
def holderRules (s : State) : State :=
  match s.hold.state, s.hold.known with
  | .passive, none => if s.hold.follow.isNone then enterSeeking s else s
  | .passive, some _ => s.modHold fun h => { h with follow := none }
  | .seeking, some _ => enterPassive none s
  | .claiming, some _ => enterPassive none s
  | .listen, some _ => s.eachPort (releaseHeld false)
  | _, _ => s

/-- NO_HOLDER's timing at a change (R29). -/
def holderTiming (old new : Option Nat) (s : State) : State :=
  match old, new with
  | some _, none => s.modHold fun h => { h with noHolder := some s.now }
  | none, some _ => setCond .noHolder false (s.modHold fun h => { h with noHolder := none })
  | _, _ => s

/-- The known holder computed afresh, and its change handed on (R28). -/
def settleHolder (s : State) : State :=
  if s.computeHolder = s.hold.known then s
  else
    holderRules (holderTiming s.hold.known s.computeHolder (s.modHold fun h => { h with known := s.computeHolder }))

def dueNoHolder (s : State) : Bool := timerOut s.now s.hold.noHolder Config.noHolderTime

/-- 30 s without a holder (R29). -/
def noHolderTimeout (s : State) : State :=
  if dueNoHolder s then setCond .noHolder true (s.modHold fun h => { h with noHolder := none }) else s

/-! ## Eligibility (R30, R34, R35, R38) -/

/-- What a change of eligibility does (R34, R35, R38). -/
def eligibleRules (e : Bool) (s : State) : State :=
  match s.hold.state, e with
  | .seeking, true => s.modHold fun h => { h with deferral := some s.now }
  | .seeking, false => s.modHold fun h => { h with deferral := none }
  | .claiming, false => enterSeeking s
  | .holding, true => s.modHold fun h => { h with degraded := false }
  | .holding, false => if s.call.record.isNone then enterYielding none s else s.modHold fun h => { h with degraded := true }
  | _, _ => s

def settleEligible (s : State) : State :=
  if s.eligibleNow = s.hold.eligible then s
  else eligibleRules s.eligibleNow (s.modHold fun h => { h with eligible := s.eligibleNow })

/-- A degraded holder whose record has ended yields (R38). -/
def settleDegraded (s : State) : State :=
  if s.holding && s.hold.degraded && s.call.record.isNone then enterYielding none s else s

/-! ## Events of the hold controller (R32 to R35, R39, R42) -/

def dueListen (s : State) : Bool :=
  decide (s.hold.state = .listen) && timerOut s.now s.hold.listen Config.listenTime

/-- LISTEN ends, and held requests are released (R32, R97). -/
def listenTimeout (s : State) : State :=
  if dueListen s then
    (if s.hold.known.isSome then enterPassive none s else enterSeeking s).eachPort (releaseHeld true)
  else s

def dueFollow (s : State) : Bool :=
  decide (s.hold.state = .passive) && timerOut s.now (s.hold.follow.map (·.heard)) Config.followTime

def claimFollowTimeout (s : State) : State := if dueFollow s then enterSeeking s else s

def dueDeferral (s : State) : Bool :=
  decide (s.hold.state = .seeking) && timerOut s.now s.hold.deferral (Config.deferralUnit * s.own)

def deferralEnd (s : State) : State := if dueDeferral s && s.hold.eligible then enterClaiming s else s

def dueContest (s : State) : Bool :=
  decide (s.hold.state = .claiming) && timerOut s.now s.hold.contest Config.contestTime

def contestEnd (s : State) : State := if dueContest s then enterHolding s else s

/-- A CLAIM heard (R24, R33 to R35). -/
def claimHeard (src : Nat) (t : BitVec 16) (s : State) : State :=
  let u := modPeer src (fun p => { p with tiebreak := some t }) s
  match u.hold.state with
  | .seeking => enterPassive (some ⟨src, s.now⟩) u
  | .claiming => if src < s.own then enterPassive (some ⟨src, s.now⟩) u else u
  | .passive =>
    match u.hold.follow with
    | some f => if src < f.id then enterPassive (some ⟨src, s.now⟩) u else u
    | none => u
  | _ => u

/-- Whether this station keeps the line against the sender of a HOLDING beacon (R28, R39). -/
def keeps (s : State) (src : Nat) (call : Bool) : Bool :=
  decide (keeper [(s.own, s.call.record.isSome), (src, call)] = some s.own)

/-- A HOLDING beacon heard by a HOLDING station (R39). -/
def keeperRule (src : Nat) (h : Coded HoldState) (m : BeaconMsg) (s : State) : State :=
  if s.holding && decide (h = .listed .holding) && !keeps s src (match m.holder with | some b => b.call | none => false) then
    enterYielding (some .dual) s
  else s

/-- A frame with the station's own id (R42). -/
def rankClash (tie : Option (BitVec 16)) (s : State) : State :=
  let t := setCond .rankClash true s
  match tie with
  | some x =>
    if t.halted then t
    else if t.hold.tiebreak.toNat < x.toNat then enterHalted .rankClash t
    else if t.hold.tiebreak = x then (t.modHold fun h => { h with tiebreak := Config.draw16 t.draws }).drew
    else t
  | none => t

/-- The 1 s tap at the hold controller (R26, R31). -/
def holdTap (s : State) : State :=
  let t := settleHolder (ageRoster false s)
  if t.halted then t else queueBeacon t

/-- The 10 s tap at the hold controller (R26, R44). -/
def holdTap10 (s : State) : State :=
  let t := settleHolder (ageRoster true s)
  if t.halted && t.live then offerControl 0 .halt t else t

/-! ## Notices of the wire controller (R35, R41, R96, R174) -/

/-- A control frame reported transmitted; in the last-gasp window the LASTGASP's notice alone is taken. -/
def transmitted (b : Body) (s : State) : State :=
  if s.power.window.isSome then
    if isGasp b then s.modPower fun p => { p with gasp := .transmitted } else s
  else
    match b with
    | .claim _ n =>
      if s.hold.state = .claiming ∧ n = s.hold.claimSerial then s.modHold fun h => { h with contest := some s.now }
      else s
    | .yield => if s.hold.state = .yielding then yieldDone s else s
    | _ => s

/-- A REQUEST reported dropped at one port (R96). -/
def requestDropped (k : RequestKind) (tag : Nat) (n : PortNo) (s : State) : State :=
  match (s.port n).outReq with
  | some q => if waitsFor tag (s.port n) ∧ q.kind = k then requestFailed n q s else s
  | none => s

/-- A control frame reported dropped. -/
def droppedNotice (s : State) (b : Body) : State :=
  match b with
  | .claim _ n => if s.hold.state = .claiming ∧ n = s.hold.claimSerial then enterSeeking s else s
  | .yield => if s.hold.state = .yielding then yieldDone s else s
  | .request k m => s.eachPort (requestDropped k m.tag)
  | _ => s

/-- The drop notices of this step are handed on (log 10). -/
def settleNotices (s : State) : State :=
  s.wire.dropped.foldl droppedNotice (s.modWire fun w => { w with dropped := [] })

end Sys2Proof.Machine
end

