-- ==== Sys2Proof/Machine/Power.lean ====
section
/-! DEFINITION. The power controller and the starts: power states, WATCH, wake, STOP, the last-gasp window,
start-up (09: R163 to R176; 10: R177 to R180). -/

namespace Sys2Proof.Machine

/-! ## FULL and BATTERY (R166, R167) -/

/-- Mains lost in FULL (R166). -/
def mainsFall (s : State) : State :=
  if s.full then
    flushData (pwrOff (s.modPower fun p => { p with state := .battery, rejoin := none }))
  else s

/-- FULL with the rejoin wait started (R167). -/
def enterFull (s : State) : State :=
  let t := pwrOn (s.modPower fun p => { p with state := .full, idle := none, rejoin := some s.now })
  if t.holding then enterTraining t else t

/-- Mains returns in BATTERY, or wakes a station in WATCH (R167, R171). -/
def mainsRise (s : State) : State :=
  match s.power.state with
  | .battery => enterFull s
  | .watch => enterFull (wake s)
  | _ => s

def dueRejoin (s : State) : Bool := timerOut s.now s.power.rejoin Config.rejoinTime

/-- The rejoin wait ends (R167). -/
def rejoinExpiry (s : State) : State :=
  if dueRejoin s then s.modPower fun p => { p with rejoin := none } else s

/-! ## WATCH (R168, R169) -/

def portIdle (p : Port) : Bool := !p.offHook && p.callRef.isNone && p.outReq.isNone

/-- The conditions under which the idle timer runs (R168). -/
def State.idleHolds (s : State) : Bool :=
  decide (s.power.state = .battery) && s.live && portIdle s.ports.one && portIdle s.ports.two &&
    !(s.holding || decide (s.hold.state = .claiming) || decide (s.hold.state = .yielding))

/-- The front end as it powers down: a frame in transmission completes first (R169, log 37). -/
def powerDown (s : State) : FrontEnd := if s.wire.tx.isSome then .closing else .down

/-- Entry to WATCH (R45, R66, R169). The conditions are written one after another, each with its evaluation (log 50). -/
def enterWatch (s : State) : State :=
  let t := ((flushAll (s.modPower fun p => { p with state := .watch, idle := none, frontEnd := powerDown s })).modWire
      fun w => { w with round := none, errors := 0 }).modNoise fun _ => freshNoise
  let u := t.modHold fun h =>
    { h with
      roster := [], lost := [], known := none, noHolder := none
      listen := none, deferral := none, contest := none, follow := none
      state := if h.state = .halted then .halted else .listen }
  setCond .noiseTracked false (setCond .peerLost false (setCond .noHolder false u))

/-- The idle timer follows its conditions; with battery low asserted WATCH is entered at once (R168, log 20). -/
def settleIdle (s : State) : State :=
  if s.idleHolds then
    if s.pins.battLow then enterWatch s
    else s.modPower fun p => { p with idle := some (p.idle.getD s.now) }
  else s.modPower fun p => { p with idle := none }

def dueIdle (s : State) : Bool := s.idleHolds && timerOut s.now s.power.idle Config.idleTime

def idleExpiry (s : State) : State := if dueIdle s then enterWatch s else s

/-! ## Settle (R171) -/

/-- The front end becomes live: a receive in progress was not heard, else a round opens; while a frame of its own is
still in transmission the station neither receives nor contends (R6, R14). -/
def goLive (s : State) : State :=
  let t := s.modPower fun p => { p with frontEnd := .live }
  if s.pins.carrier && s.wire.tx.isNone then t.modWire fun w => { w with rx := some ⟨s.now, false⟩, round := none } else contend t

def dueSettle (s : State) : Bool :=
  match s.power.frontEnd with
  | .settling t => ranOut s.now t Config.settleTime
  | _ => false

/-- The settle timer runs out (R29, R32, R44, R171). -/
def settleExpiry (s : State) : State :=
  if dueSettle s then
    let t := (goLive s).modHold fun h => { h with noHolder := some s.now }
    if t.halted then offerControl 0 .halt t else t.modHold fun h => { h with listen := some s.now }
  else s

/-! ## The level rules at the end of a command (log 9, log 10) -/

/-- Conditions that follow a level are handed over (R27, R59, R104, R105, R134, R135), in an order that no rule fixes
(log 50); the three line conditions that end with HOLDING are written together (log 49). -/
def settleConds (s : State) : State :=
  let t := [(Cond.noiseTracked, decide (0 < s.noise.tracked)), (.peerLost, !s.hold.lost.isEmpty),
      (.mainsOff, !s.full), (.batteryLow, s.pins.battLow), (.portParked, s.anyParked),
      (.portShort, s.anyShort)].foldl (fun s c => setCond c.1 c.2 s) s
  if t.holding then t
  else setConds (writeCond (writeCond (writeCond t.fault.conds .lineDead false) .lineLeaky false) .lineForeign false) t

/-- Nothing is left to hand on. -/
def clearNotices (s : State) : State := s.modWire fun w => { w with dropped := [] }

/-- What every neighbour does with what a command changed (log 9). -/
def finish (s : State) : State :=
  s |> settleEligible |> settleDegraded |> settleHolder |> settleNotices |> settleDataHead |> settleConds
    |> settleIdle |> settleReports |> mailboxOffer |> startTransfer |> startOutpulse |> settleLoss |> settleLamp
    |> settleTones |> clearNotices

/-- A running station outside the last-gasp window (R172, R175). -/
def State.active (s : State) : Bool := decide (s.phase = .running) && s.power.window.isNone

/-- A command taken by a running station, and what follows from it; in any other phase, and in the last-gasp
window, the blocks take nothing (R172, R175, R177, log 14). -/
def running (f : State → State) (s : State) : State := if s.active then finish (f s.quiet) else s.quiet

/-! ## STOP (R172 to R175) -/

/-- The trigger-8 record (R142). -/
def gaspRecord (s : State) : FaultRecord :=
  { freshRecord 8 1 s with sentCount := 1, state := .sent }

/-- The held flag (R174). -/
def State.heldFlag (s : State) : Bool := s.holding || decide (s.hold.state = .yielding)

/-- The last-gasp window opens (R132, R142, R152, R172, R174). -/
def openWindow (s : State) : State :=
  let t := (abortTest (endRecord none s)).modFault fun m => { m with gaspRecord := some (gaspRecord s) }
  let send := !s.halted && s.live
  let u := if send then offerGasp (gaspRecord s) s.heldFlag t else t
  u.modPower fun p => { p with window := some s.now, gasp := if send then .offered else .notSent }

/-- Steps 1 and 2 of R173: a settling front end goes down at once (log 52), a live or a closing one stays; the lamp
follows before it is held (R147, log 19). -/
def enterStop (s : State) : State :=
  let t := s.modPower fun p =>
    { p with
      state := .stop, idle := none, rejoin := none
      frontEnd := match p.frontEnd with
        | .settling _ => .down
        | e => e }
  settleLamp (setCond .mainsOff true (if s.full then pwrOff t else t))

/-- Battery empty is asserted: the last-gasp window opens (R173). -/
def batteryEmptied (s : State) : State :=
  if s.active then clearNotices (openWindow (enterStop s.quiet)) else s.quiet

/-- A battery input as told: battery low is followed (R135, R168, R170); a fall of battery empty changes the level that
the next start reads and nothing more (R165, R173, log 16). -/
def batteryTold (told : BatteryTold) (s : State) : State :=
  match told with
  | .low level => running id (s.tell fun p => { p with battLow := level })
  | .emptyFell => (s.tell fun p => { p with battEmpty := false }).quiet

def dueWindowEnd (s : State) : Bool := timerOut s.now s.power.window Config.gaspTime

/-- The chip stops, and holds nothing (R175, log 43). -/
def stopChip (s : State) : State := { State.atStart s.pins s.draws s.pending with phase := .stopped }

def windowEnd (s : State) : State :=
  if decide (s.phase = .running) && dueWindowEnd s then stopChip s else s.quiet

/-! ## Starts (R146, R165, R177 to R180) -/

/-- A power-up begins (R177, R180). -/
def beginPowerUp (levels : Pins) (s : State) : State := State.atStart levels s.draws s.pending

/-- The fault list kept through a restart (R146). -/
def keptList (l : List FaultRecord) : List FaultRecord :=
  l.map fun r => if r.state = .sent then { r with state := .new } else r

/-- The triggers after a restart: disarmed where a NEW record is kept (R136), one that the configuration read then
disables too (log 70). -/
def keptRuns (l : List FaultRecord) : List TrigRun :=
  (List.range 8).map fun n => ⟨false, !l.any fun r => decide (r.trigger = n) && isNew r, false⟩

/-- What a restart puts out: an offer in the mailbox is withdrawn (R161). -/
def restartOuts (s : State) : List Out := if s.sup.mailbox.isSome then [.mailWithdraw] else []

/-- What a restart leaves of the transmit queues: the frame in transmission, flushed (R13). -/
def keptWire (s : State) (w : Wire) : Wire :=
  match s.wire.tx, txEntry s with
  | some x, some (c, e) => { w.setQueue [{ e with flushed := true }] c with tx := some { x with start := none } }
  | _, _ => w

/-- A restart begins; a frame in transmission completes, and the front end with it (R13, R146, R161, R176, R177, R180,
log 54). -/
def beginRestart (straps : StrapPins) (s : State) : State :=
  let b := State.atStart { s.pins with straps := straps } s.draws s.pending
  let w := keptWire s b.wire
  { b with
    wire := w
    power := { b.power with
      startNumber := min 255 (s.power.startNumber + 1)
      frontEnd := if w.tx.isSome then .closing else .down }
    fault := { b.fault with list := keptList s.fault.list, runs := keptRuns (keptList s.fault.list) }
    outs := restartOuts s }

/-- RESET asserted (R172, R175, R177). -/
def resetChip (straps : StrapPins) (s : State) : State :=
  if s.phase = .stopped then beginPowerUp { s.pins with straps := straps } s
  else if s.power.window.isSome then s.quiet
  else beginRestart straps s

/-- The halt code start-up gives (R177, R178). -/
def startCode (modem bad interface : Bool) : Option HaltCode :=
  if bad then some .configBad else if modem && !interface then some .noLineInterface else none

/-- The first power state (R165). -/
def firstPower (p : Pins) : PowerState := if p.battEmpty then .stop else if p.mains then .full else .battery

/-- A port whose hook input shows off-hook at completion (R89, R177). -/
def startHook (n : PortNo) (s : State) : State := if hookLevel s.pins n then offHook n s else s

/-- The record in force, with what the blocks take from it (R76, R178, R179). -/
def takeConfig (c : Cfg) (interface : Bool) (s : State) : State :=
  { s with
    cfg := c
    interface := interface
    sup := { s.sup with stored := c.defaultProfile, inUse := c.defaultProfile } }

/-- Completion of start-up up to the hold state (R29, R32, R43, R165, R177). -/
def complete (code : Option HaltCode) (s : State) : State :=
  let t := goLive
    ({ s with phase := .running }.modPower fun p => { p with state := firstPower s.pins })
  let u := (if t.full then pwrOn t else t).modHold fun h => { h with noHolder := some s.now }
  match code with
  | some c => enterHalted c u
  | none => u.modHold fun h => { h with state := .listen, listen := some s.now }

/-- The read of the configuration memory ends, and start-up goes on to its completion (R177, R178). Where the first
power state is STOP no port takes its off-hook (log 53), and the conditions of every level that stands are recorded
before the window opens (log 64). -/
def configRead (r : ConfigRead) (interface : Bool) (s : State) : State :=
  if s.phase = .startUp then
    let c := readConfig r
    let t := complete (startCode s.straps.modem c.2 interface) (takeConfig c.1 interface s.quiet)
    if s.pins.battEmpty then clearNotices (openWindow (finish t)) else finish (t.eachPort startHook)
  else s.quiet

end Sys2Proof.Machine
end

