-- ==== Sys2Proof/Machine/Service.lean ====
section
/-! DEFINITION. The service port (10: R181, R182). -/

namespace Sys2Proof.Machine

/-! ## The pictures (R181) -/

def portPic (p : Port) : PortPic := ⟨p.state, p.lastCause, p.lastRef⟩

/-- STATUS after completion. -/
def statusPic (s : State) : StatusPic where
  id := s.own
  modem := s.straps.modem
  fromMemory := s.cfg.fromMemory
  startNumber := s.power.startNumber
  now := s.now
  power := s.power.state
  hold := s.hold.state
  halt := s.hold.halt
  known := s.hold.known
  eligible := s.hold.eligible
  sup := s.sup.state
  stored := s.sup.stored
  inUse := s.sup.inUse
  broadband := decide (s.sup.state = .synced)
  holdTime := s.sup.holdTime
  conds := s.fault.conds
  lamp := s.fault.lamp
  ports := s.fittedPorts.map fun n => portPic (s.port n)
  test := s.fault.test
  due := s.fault.due
  reportLength := if s.holding then some s.report.queue.length else none
  outstanding := s.report.outstanding

def tracksResp (s : State) : SvcResp :=
  .tracks ⟨slotState s.noise.a, s.noise.a⟩ ⟨slotState s.noise.b, s.noise.b⟩ s.noise.tracked s.noise.candidates
    s.noise.unmatched

def callPic (r : CallRecord) : CallPic :=
  ⟨r.id, r.seized, r.priv, r.parties.map fun p => (p.station, p.port), r.queue.length⟩

def callsResp (s : State) : SvcResp :=
  .calls (if s.holding then s.call.record.map callPic else none) s.call.lastId s.call.bindings
    (s.fittedPorts.map fun n => ((s.port n).callRef, (s.port n).pending))

/-! ## Requests judged (R150, R181, R182) -/

/-- LINE-TEST's refusal, if it has one (R150). -/
def testRefusal (s : State) : Option SvcReason :=
  if !s.holding then some .notHolder
  else if s.fault.test.isSome then some .busy
  else if s.call.record.isSome || recentBurst s then some .lineInUse
  else none

/-- A response begins to be sent (R181). -/
def respond (r : SvcResp) (s : State) : State := (s.modSvc fun v => { v with sending := some r }).emit (.response r)

/-- FORGET (R182). -/
def forget (id : Nat) (s : State) : State :=
  if 8 < id then respond (.refused (.forget id) .unknown) s
  else
    respond (.accepted (.forget id))
      (s.modHold fun h => { h with lost := if id = 0 then [] else h.lost.filter fun i => decide (i ≠ id) })

/-- RESTART: the restart begins once the response is sent (R182). -/
def askRestart (s : State) : State := (respond (.accepted .restart) s).modSvc fun v => { v with restart := true }

/-- A request taken after start-up has completed (R181, R182). -/
def takeRunning (q : SvcReq) (s : State) : State :=
  match q with
  | .status => respond (.status (statusPic s)) s
  | .roster => respond (.roster s.hold.roster s.hold.lost) s
  | .tracks => respond (tracksResp s) s
  | .faults => respond (.faults s.fault.list s.fault.runs) s
  | .calls => respond (callsResp s) s
  | .lineTest =>
    match testRefusal s with
    | some why => respond (.refused .lineTest why) s
    | none => respond (.accepted .lineTest) (startTest s)
  | .forget id => forget id s
  | .restart => askRestart s
  | .unknown n => respond (.refused (.unknown n) .unknown) s

/-- A request taken during start-up (R181, R182, log 40). -/
def takeStarting (q : SvcReq) (s : State) : State :=
  match q with
  | .status => respond (.starting s.power.startNumber) s
  | .restart => askRestart s
  | q => respond (.refused q .busy) s

/-- One request answered: while another response is sent it waits, behind one that waits to be refused (R181). -/
def serve (take : SvcReq → State → State) (q : SvcReq) (s : State) : State :=
  if s.svc.sending.isSome then
    s.modSvc fun v => { v with waiting := v.waiting ++ [⟨q, !v.waiting.any (·.take)⟩] }
  else take q s

/-- A request arrives: answered in start-up and by a running station outside the last-gasp window (R172, R181). -/
def request (q : SvcReq) (s : State) : State :=
  if s.phase = .startUp then serve takeStarting q s.quiet else running (serve takeRunning q) s

/-- The next waiting request: taken, or refused with BUSY (R181). -/
def serveNext (take : SvcReq → State → State) (s : State) : State :=
  match s.svc.waiting with
  | w :: rest =>
    let t := s.modSvc fun v => { v with sending := none, waiting := rest }
    if w.take then take w.req t else respond (.refused w.req .busy) t
  | [] => s.modSvc fun v => { v with sending := none }

/-- The response has been sent: the restart it announced begins, or the next request is answered (R181, R182). -/
def responseEnd (straps : StrapPins) (s : State) : State :=
  if s.phase = .stopped ∨ s.power.window.isSome ∨ s.svc.sending = none then s.quiet
  else if s.svc.restart then beginRestart straps s
  else if s.phase = .startUp then serveNext takeStarting s.quiet
  else running (serveNext takeRunning) s

end Sys2Proof.Machine
end

