-- ==== Sys2Proof/Machine/Receiving.lean ====
section
/-! DEFINITION. The receive path's events (01: R6 to R8): carrier, fragments, damaged frames and the eighteen kinds
of checked frame. -/

namespace Sys2Proof.Machine

/-! ## Shared -/

/-- Carrier falls: the receive in progress is over. -/
def carrierOff (s : State) : State := s.tell fun p => { p with carrier := false }

def dropRx (s : State) : State := s.modWire fun w => { w with rx := none }

/-- The end of carrier at a running station: `act` takes the frame start if the whole frame was heard (R6); in the
last-gasp window and before completion nothing is taken. -/
def carrierEnd (act : Tick → State → State) (s : State) : State :=
  running
    (fun t =>
      match t.wire.rx with
      | some r => if r.heard then act r.start (dropRx t) else dropRx t
      | none => t)
    (if s.active then carrierOff s else dropRx (carrierOff s))

/-- A checked frame: heard by the hold controller, then by its source and destination (R8). -/
def dispatch (h : Header) (tie : Option (BitVec 16)) (act : Tick → State → State) (start : Tick) (s : State) : State :=
  if h.src = s.own then rankClash tie s
  else
    let t := settleHolder (heardFrame h.src start h.hold s)
    if h.dst = 0 ∨ h.dst = s.own then act start t else t

/-- A checked frame of a kind whose contents `act` takes. -/
def frame (h : Header) (tie : Option (BitVec 16)) (act : Tick → State → State) (s : State) : State :=
  carrierEnd (dispatch h tie act) s

/-- A wire-level event: it acts in the last-gasp window too (R172). -/
def onWire (f : State → State) (s : State) : State :=
  if s.active then finish (f s.quiet)
  else if s.phase = .running then clearNotices (f s.quiet)
  else s.quiet

/-- Carrier rises: the round ends, and a receive begins unless the station transmits (R6, R14). -/
def carrierUp (s : State) : State :=
  if s.live && s.wire.tx.isNone then
    (markBusy s).modWire fun w => { w with round := none, rx := some ⟨s.now, true⟩ }
  else s

/-! ## Meanings -/

/-- CARRIER_RISE (R6, R14). -/
def execCarrierRise (s : State) : Host.Outcome State Fault Refusal :=
  .next (onWire carrierUp (s.tell fun p => { p with carrier := true }))

/-- FRAGMENT: discarded and not counted, whatever its bytes (R6, log 26). -/
def execFragment (_bytes : List Byte) (s : State) : Host.Outcome State Fault Refusal :=
  .next (carrierEnd (fun _ t => t) s)

/-- Bytes that fail a check of R7 are counted; a checked REQUEST of a kind R3 does not list is heard, and goes no
further (R7, R8, log 25). -/
def untoldFrame (bytes : List Byte) (start : Tick) (s : State) : State :=
  match receiveBytes bytes with
  | .damaged => countError s
  | .nameless h => dispatch h none (fun _ t => t) start s
  | _ => s

/-- DAMAGED_FRAME: counted when its bytes fail a check of R7 (R7, logs 25 and 26). -/
def execDamagedFrame (bytes : List Byte) (s : State) : Host.Outcome State Fault Refusal :=
  .next (carrierEnd (untoldFrame bytes) s)

/-- BEACON (R24, R39, R42, R60). -/
def execBeacon (h : Header) (m : BeaconMsg) (s : State) : Host.Outcome State Fault Refusal :=
  .next (frame h (some m.fixed.tiebreak)
    (fun start t =>
      keeperRule h.src h.hold m (takeTracks h.src start m.tracks (modPeer h.src (Peer.beaconed h.hold m) t))) s)

/-- CLAIM (R24, R33 to R36, R42). -/
def execClaim (h : Header) (tiebreak : BitVec 16) (s : State) : Host.Outcome State Fault Refusal :=
  .next (frame h (some tiebreak) (fun _ t => claimHeard h.src tiebreak t) s)

/-- The profile of a YIELD is adopted when it is one of 0 to 3 (R3, R76, log 25). -/
def yieldProfile (m : YieldMsg) (s : State) : State :=
  if m.profile.toNat < 4 then adoptProfile m.profile.toNat s else s

/-- YIELD (R25, R60, R76). -/
def execYield (h : Header) (m : YieldMsg) (s : State) : Host.Outcome State Fault Refusal :=
  .next (frame h none (fun start t => yieldProfile m (takeTracks h.src start m.tracks t)) s)

/-- A LASTGASP that announces HOLDING is heard as YIELDING (R25). That this holds for a frame addressed to another
station alone too, of which R8 and R23 take the header's HOLDING, is the model's choice (DESIGN CHOICE, log 71). -/
def gaspHeader (h : Header) : Header :=
  if h.hold = .listed .holding then { h with hold := .listed .yielding } else h

/-- LASTGASP (R25, R60, R76, R160); tracks that come without the held flag are not taken (log 44).
The record of STOP is part of the contents: a frame for another station alone does not make it (R8; DESIGN CHOICE,
log 71). -/
def execLastgasp (h : Header) (m : GaspMsg) (s : State) : Host.Outcome State Fault Refusal :=
  .next (frame (gaspHeader h) none
    (fun start t =>
      let u := takeGasp m.record (modPeer h.src Peer.gasped t)
      if m.held then adoptProfile m.profile.toNat (takeTracks h.src start m.tracks u) else u) s)

/-- HALT (R24). -/
def execHalt (h : Header) (m : HaltMsg) (s : State) : Host.Outcome State Fault Refusal :=
  .next (frame h none (fun _ t => modPeer h.src (Peer.haltHeard m) t) s)

/-- SEIZE (R112 to R116). -/
def execSeize (h : Header) (m : RequestMsg) (s : State) : Host.Outcome State Fault Refusal :=
  .next (frame h none (fun _ t => requestFrame .seize h.src m t) s)

/-- ANSWER (R112 to R116). -/
def execAnswer (h : Header) (m : RequestMsg) (s : State) : Host.Outcome State Fault Refusal :=
  .next (frame h none (fun _ t => requestFrame .answer h.src m t) s)

/-- LEAVE (R117). -/
def execLeave (h : Header) (m : RequestMsg) (s : State) : Host.Outcome State Fault Refusal :=
  .next (frame h none (fun _ t => takeLeave h.src m.port m.ref t) s)

/-- OFFER (R128). -/
def execOffer (h : Header) (m : RequestMsg) (s : State) : Host.Outcome State Fault Refusal :=
  .next (frame h none (fun _ t => offerFrame h.src m t) s)

/-- ACCEPT (R129). -/
def execAccept (h : Header) (m : RequestMsg) (s : State) : Host.Outcome State Fault Refusal :=
  .next (frame h none (fun _ t => acceptFrame h.src m t) s)

/-- END (R130). -/
def execEndCall (h : Header) (m : RequestMsg) (s : State) : Host.Outcome State Fault Refusal :=
  .next (frame h none (fun _ t => endFrame h.src m t) s)

/-- REPLY (R8, R96). -/
def execReply (h : Header) (m : ReplyMsg) (s : State) : Host.Outcome State Fault Refusal :=
  .next (frame h none (fun _ t => replyFrame h.src m t) s)

/-- CLEAR (R102). -/
def execClear (h : Header) (m : ClearMsg) (s : State) : Host.Outcome State Fault Refusal :=
  .next (frame h none
    (fun _ t => match portOf m.port with | some n => takeClear n m.ref m.cause t | none => t) s)

/-- DIAL (R121, R123). -/
def execDial (h : Header) (m : DialMsg) (s : State) : Host.Outcome State Fault Refusal :=
  .next (frame h none (fun _ t => dialFrame h.src m t) s)

/-- VOICE (R8, R102, R107, R120, R121, R125). -/
def execVoice (h : Header) (m : VoiceMsg) (s : State) : Host.Outcome State Fault Refusal :=
  .next (frame h none (fun _ t => voiceFrame h.src m t) s)

/-- REPORT (R157). -/
def execReport (h : Header) (r : FaultRecord) (s : State) : Host.Outcome State Fault Refusal :=
  .next (frame h none (fun _ t => reportFrame h.src r t) s)

/-- RECEIPT (R155). -/
def execReceipt (h : Header) (trigger count : Nat) (s : State) : Host.Outcome State Fault Refusal :=
  .next (frame h none (fun _ t => judgeReceipt trigger count t) s)

/-- DATA (R8, R80, R84, R85). -/
def execData (h : Header) (f : LinkFrame) (s : State) : Host.Outcome State Fault Refusal :=
  .next (frame h none (fun _ t => dataFrame h.src h.dst f t) s)

end Sys2Proof.Machine
end

