-- ==== Sys2Proof/Machine/Medium.lean ====
section
/-! DEFINITION. Medium access (01: R10, R14 to R17, R20, R21) and the packet port (R12, R82). -/

namespace Sys2Proof.Machine

/-! ## Shared -/

/-- A front end that waited for its transmission to end goes down (R169). -/
def closeFront (s : State) : State :=
  if s.power.frontEnd = .closing then s.modPower fun p => { p with frontEnd := .down } else s

/-- A transmission ends without a collision (R1, R17, R169). -/
def transmissionEnd (s : State) : State :=
  match txEntry s with
  | some (c, e) =>
    let t := if e.flushed then flushedEnd c e s else transmitted e.body (removeTx c s)
    closeFront (t.modWire fun w => { w with collided := 0 })
  | none => s

/-- A LASTGASP that left its queue by its collision limit is reported dropped (R174). -/
def gaspDropped (e : TxEntry) (s : State) : State :=
  if isGasp e.body && decide (16 ≤ e.collisions + 1) then s.modPower fun p => { p with gasp := .dropped } else s

/-- A transmission ends in a collision; at the 32nd in a row the station halts (R16, R17, R169). -/
def collided (s : State) : State :=
  match txEntry s with
  | some (c, e) =>
    let t := closeFront (gaspDropped e ((collideFrame c e s).modWire fun w => { w with collided := w.collided + 1 }))
    if 32 ≤ t.wire.collided then enterHalted .wireDead t else t
  | none => s

/-- The end of the frame that was in transmission when the restart began, while start-up goes on: it leaves its queue,
the count of collisions in a row follows it, and no block hears of it (R13, R17, log 54). -/
def outlivedEnd (count : Nat → Nat) (s : State) : State :=
  match txEntry s with
  | some (c, _) => closeFront ((removeTx c s).modWire fun w => { w with collided := count w.collided })
  | none => s

/-- The end of a transmission: in start-up the one frame that can be in transmission has outlived the restart (R13). -/
def frameEnd (count : Nat → Nat) (f : State → State) (s : State) : State :=
  if s.phase = .startUp then outlivedEnd count s.quiet else onWire f s

/-! ## Meanings -/

/-- CONTENTION_POINT: no carrier is left, so no receive is in progress, and a round opens (R6, R14, log 11). -/
def execContentionPoint (s : State) : Host.Outcome State Fault Refusal :=
  .next (onWire (fun t => contend (dropRx t)) (carrierOff s))

/-- SLOT_BEGIN (R14, R20, R21). -/
def execSlotBegin (slot : Nat) (s : State) : Host.Outcome State Fault Refusal :=
  .next (onWire (slotBegin slot) s)

/-- TRANSMISSION_END (R1, R13, R17, R35, R41). -/
def execTransmissionEnd (s : State) : Host.Outcome State Fault Refusal :=
  .next (frameEnd (fun _ => 0) transmissionEnd s)

/-- COLLISION (R13, R16, R17). -/
def execCollision (s : State) : Host.Outcome State Fault Refusal := .next (frameEnd (· + 1) collided s)

/-- VOICE_DEADLINE: one VOICE frame past its deadline is discarded (R10, log 30). -/
def execVoiceDeadline (s : State) : Host.Outcome State Fault Refusal :=
  .next (running (fun t => t.modWire fun w => { w with voice := w.voice.eraseP (overdue t.now) }) s)

/-- PACKET_RECEIVE (R12, R82). -/
def execPacketReceive (f : LinkFrame) (s : State) : Host.Outcome State Fault Refusal :=
  .next (running (packetReceive f) s)

end Sys2Proof.Machine
end

