-- ==== Sys2Proof/Machine/Starting.lean ====
section
/-! DEFINITION. Starts, power and interval taps (09: R163 to R176; 10: R177 to R180). -/

namespace Sys2Proof.Machine

/-- POWER_UP (R177, R180, log 15). -/
def execPowerUp (levels : Pins) (s : State) : Host.Outcome State Fault Refusal := .next (beginPowerUp levels s)

/-- RESET (R172, R175 to R177). -/
def execReset (straps : StrapPins) (s : State) : Host.Outcome State Fault Refusal := .next (resetChip straps s)

/-- CONFIGURATION_READ_END (R177 to R179). -/
def execConfigurationReadEnd (r : ConfigRead) (interface : Bool) (s : State) : Host.Outcome State Fault Refusal :=
  .next (configRead r interface s)

/-- MAINS_PRESENT_FALL (R166). -/
def execMainsPresentFall (s : State) : Host.Outcome State Fault Refusal :=
  .next (running mainsFall (s.tell fun p => { p with mains := false }))

/-- MAINS_PRESENT_RISE (R167, R171). -/
def execMainsPresentRise (s : State) : Host.Outcome State Fault Refusal :=
  .next (running mainsRise (s.tell fun p => { p with mains := true }))

/-- BATTERY_LOW_CHANGE (R135, R165, R168, R170); it also tells a fall of battery empty (R165, log 16). -/
def execBatteryLowChange (told : BatteryTold) (s : State) : Host.Outcome State Fault Refusal :=
  .next (batteryTold told s)

/-- BATTERY_EMPTY (R172 to R174). -/
def execBatteryEmpty (s : State) : Host.Outcome State Fault Refusal :=
  .next (batteryEmptied (s.tell fun p => { p with battEmpty := true }))

/-- IDLE_TIMER_EXPIRY (R168, R169). -/
def execIdleTimerExpiry (s : State) : Host.Outcome State Fault Refusal := .next (running idleExpiry s)

/-- REJOIN_TIMER_EXPIRY (R167). -/
def execRejoinTimerExpiry (s : State) : Host.Outcome State Fault Refusal := .next (running rejoinExpiry s)

/-- SETTLE_TIMER_EXPIRY (R171). -/
def execSettleTimerExpiry (s : State) : Host.Outcome State Fault Refusal := .next (running settleExpiry s)

/-- LAST_GASP_WINDOW_END (R175). -/
def execLastGaspWindowEnd (s : State) : Host.Outcome State Fault Refusal := .next (windowEnd s)

/-- The two ports' codec frames by port. -/
def codecOf (one two : Speech) : PortNo → Speech
  | .one => one
  | .two => two

/-- An interval tap that falls on the present station time is handed out once; at another time there is none (R164,
log 3). -/
def handOut (owed : Taps → Bool) (taken : Taps → Taps) (f : State → State) (s : State) : State :=
  if owed s.taps then f (s.modTaps taken) else s

/-- TAP_10MS (R106, R108, R125, R126, R164). -/
def execTap10ms (codec1 codec2 line : Speech) (s : State) : Host.Outcome State Fault Refusal :=
  .next (running (handOut (·.ten) (fun q => { q with ten := false }) (voiceTap (codecOf codec1 codec2) line)) s)

/-- The blocks at a 1 s tap, in an order that no rule fixes (R26, R31, R78, log 45). -/
def tapOne (s : State) : State := holdTimeTap (holdTap s)

/-- TAP_1S (R26, R31, R78, R164). -/
def execTap1s (s : State) : Host.Outcome State Fault Refusal :=
  .next (running (handOut (·.one) (fun q => { q with one := false }) tapOne) s)

/-- The blocks at a 10 s tap, in an order that no rule fixes: wire errors, noise, supervisor, roster, line test (R9,
R26, R44, R55, R64, R77, R84, R149, R150, log 45). -/
def tapSlow (s : State) : State := testTap (holdTap10 (supTap (noiseTap (wireTap s))))

/-- TAP_10S (R9, R26, R44, R55, R64, R77, R84, R149, R150, R164). -/
def execTap10s (s : State) : Host.Outcome State Fault Refusal :=
  .next (running (handOut (·.slow) (fun q => { q with slow := false }) tapSlow) s)

end Sys2Proof.Machine
end

