-- ==== Sys2Proof/Machine/NoiseEvents.lean ====
section
/-! DEFINITION. The noise tracker's events (03: R47 to R67). -/

namespace Sys2Proof.Machine

/-- IMPULSE_DETECT: taken while the front end is live (R47 to R57). -/
def execImpulseDetect (s : State) : Host.Outcome State Fault Refusal :=
  .next (running (fun t => if t.live then impulse t else t) s)

/-- BURST: taken at a HOLDING station whose supervisor is SYNCED (R47). -/
def execBurst (s : State) : Host.Outcome State Fault Refusal :=
  .next (running (fun t => if t.holding && decide (t.sup.state = .synced) then impulse t else t) s)

/-- CAPTURE_EXPIRY (R51, R54). -/
def execCaptureExpiry (n : SlotName) (s : State) : Host.Outcome State Fault Refusal :=
  .next (running (captureExpiry n) s)

/-- REFRESH_EXPIRY (R63). -/
def execRefreshExpiry (n : SlotName) (s : State) : Host.Outcome State Fault Refusal :=
  .next (running (refreshExpiry n) s)

/-- QUIET_WINDOW_OPEN (R58, R67). -/
def execQuietWindowOpen (n : SlotName) (s : State) : Host.Outcome State Fault Refusal :=
  .next (onWire (fun t => if dueWindowOpen n t then refreshWindow n t else t) s)

/-- QUIET_WINDOW_CLOSE: a contention point when the wire was idle throughout (R14, R58, R67). -/
def execQuietWindowClose (n : SlotName) (s : State) : Host.Outcome State Fault Refusal :=
  .next (onWire (fun t => if dueWindowClose n t then refreshWindow n t else t) s)

end Sys2Proof.Machine
end

