-- ==== Sys2Proof/Machine/HoldEvents.lean ====
section
/-! DEFINITION. The hold controller's timers (02: R29, R32 to R36). -/

namespace Sys2Proof.Machine

/-- NO_HOLDER_TIMEOUT (R29). -/
def execNoHolderTimeout (s : State) : Host.Outcome State Fault Refusal := .next (running noHolderTimeout s)

/-- LISTEN_TIMEOUT (R32, R97). -/
def execListenTimeout (s : State) : Host.Outcome State Fault Refusal := .next (running listenTimeout s)

/-- CLAIM_FOLLOW_TIMEOUT (R33). -/
def execClaimFollowTimeout (s : State) : Host.Outcome State Fault Refusal := .next (running claimFollowTimeout s)

/-- DEFERRAL_END (R34). -/
def execDeferralEnd (s : State) : Host.Outcome State Fault Refusal := .next (running deferralEnd s)

/-- CONTEST_END (R35, R36). -/
def execContestEnd (s : State) : Host.Outcome State Fault Refusal := .next (running contestEnd s)

end Sys2Proof.Machine
end

