-- ==== Sys2Proof/Machine/ModemEvents.lean ====
section
/-! DEFINITION. The modem supervisor's events (04: R69 to R87). -/

namespace Sys2Proof.Machine

/-- READY_CHANGE (R70). -/
def execReadyChange (level : Bool) (s : State) : Host.Outcome State Fault Refusal :=
  .next (running (readyChange s.pins.ready level) (s.tell fun p => { p with ready := level }))

/-- READY_TIMER_EXPIRY (R70). -/
def execReadyTimerExpiry (s : State) : Host.Outcome State Fault Refusal := .next (running readyTimerExpiry s)

/-- SYNC_RISE (R72, R73). -/
def execSyncRise (s : State) : Host.Outcome State Fault Refusal :=
  .next (running syncRise (s.tell fun p => { p with sync := true }))

/-- SYNC_FALL (R73, R77). -/
def execSyncFall (s : State) : Host.Outcome State Fault Refusal :=
  .next (running syncFall (s.tell fun p => { p with sync := false }))

/-- TRAINING_TIMEOUT (R72, R74). -/
def execTrainingTimeout (s : State) : Host.Outcome State Fault Refusal := .next (running trainingTimeout s)

/-- GRACE_TIMEOUT (R73, R74). -/
def execGraceTimeout (s : State) : Host.Outcome State Fault Refusal := .next (running graceTimeout s)

/-- BACKOFF_WAIT_END (R71, R74). -/
def execBackoffWaitEnd (s : State) : Host.Outcome State Fault Refusal := .next (running backoffWaitEnd s)

/-- SEND-OK as told: at a transfer's end its level, or a fall at another moment, which changes the level alone (R81,
log 17). -/
def upstreamTold (told : UpstreamTold) (s : State) : State :=
  match told with
  | .ended level => running transferEnd (s.tell fun p => { p with sendOk := level })
  | .sendOkFell => (s.tell fun p => { p with sendOk := false }).quiet

/-- SEND_OK_RISE: a transfer begins if the queue holds a frame (R81). -/
def execSendOkRise (s : State) : Host.Outcome State Fault Refusal :=
  .next (running id (s.tell fun p => { p with sendOk := true }))

/-- UPSTREAM_TRANSFER_END: the next transfer begins when it may; it also tells a fall of SEND-OK at another moment (R81,
log 17). -/
def execUpstreamTransferEnd (told : UpstreamTold) (s : State) : Host.Outcome State Fault Refusal :=
  .next (upstreamTold told s)

/-- DOWNSTREAM_FRAME (R85, log 18). -/
def execDownstreamFrame (began : Tick) (f : LinkFrame) (s : State) : Host.Outcome State Fault Refusal :=
  .next (running (downstreamFrame began f) s)

/-- MAILBOX_DELIVERED (R86, R159). -/
def execMailboxDelivered (s : State) : Host.Outcome State Fault Refusal := .next (running mailboxDelivered s)

/-- MAILBOX_REFUSED (R86, R159). -/
def execMailboxRefused (s : State) : Host.Outcome State Fault Refusal := .next (running mailboxRefused s)

/-- MAILBOX_TIMEOUT (R86, R159). -/
def execMailboxTimeout (s : State) : Host.Outcome State Fault Refusal := .next (running mailboxTimeout s)

end Sys2Proof.Machine
end

