-- ==== Sys2Proof/Machine/PortEvents.lean ====
section
/-! DEFINITION. The port controllers' events (05: R90 to R105). -/

namespace Sys2Proof.Machine

/-- HOOK_FALL (R90). -/
def execHookFall (n : PortNo) (s : State) : Host.Outcome State Fault Refusal :=
  .next (running (hookFall n) (s.tell fun p => setHook false p n))

/-- HOOK_RISE (R90, R91, R93, R99, R171). -/
def execHookRise (n : PortNo) (s : State) : Host.Outcome State Fault Refusal :=
  .next (running (hookRise n) (s.tell fun p => setHook true p n))

/-- ON_HOOK (R90, R103). -/
def execOnHook (n : PortNo) (s : State) : Host.Outcome State Fault Refusal := .next (running (onHookEvent n) s)

/-- PULSE_COUNT_CLOSE (R91, R92). -/
def execPulseCountClose (n : PortNo) (s : State) : Host.Outcome State Fault Refusal :=
  .next (running (pulseCountClose n) s)

/-- TONE_DIGIT_EVENT (R92 to R95). -/
def execToneDigitEvent (n : PortNo) (k : Key) (s : State) : Host.Outcome State Fault Refusal :=
  .next (running (toneDigit n k) s)

/-- FIRST_DIGIT_TIMEOUT (R93, R104). -/
def execFirstDigitTimeout (n : PortNo) (s : State) : Host.Outcome State Fault Refusal :=
  .next (running (firstDigitTimeout n) s)

/-- PORT_DIGIT_TIMEOUT (R95). -/
def execPortDigitTimeout (n : PortNo) (s : State) : Host.Outcome State Fault Refusal :=
  .next (running (portDigitTimeout n) s)

/-- REQUEST_TIMEOUT (R96). -/
def execRequestTimeout (n : PortNo) (s : State) : Host.Outcome State Fault Refusal :=
  .next (running (requestTimeout n) s)

/-- RING_BURST (R98, R149, R152, R171). -/
def execRingBurst (s : State) : Host.Outcome State Fault Refusal := .next (running ringBurst s)

/-- EXCHANGE_RINGING_END (R98). -/
def execExchangeRingingEnd (s : State) : Host.Outcome State Fault Refusal := .next (running ringingEnd s)

/-- RING_DRIVE_TIMEOUT (R98). -/
def execRingDriveTimeout (n : PortNo) (s : State) : Host.Outcome State Fault Refusal :=
  .next (running (ringDriveTimeout n) s)

/-- INTERCOM_RING_CADENCE (R98). -/
def execIntercomRingCadence (n : PortNo) (s : State) : Host.Outcome State Fault Refusal :=
  .next (running (intercomCadence n) s)

/-- OFFER_RING_TIMEOUT (R98, R130). -/
def execOfferRingTimeout (n : PortNo) (s : State) : Host.Outcome State Fault Refusal :=
  .next (running (offerRingTimeout n) s)

/-- RING_BACK_TIMEOUT (R100). -/
def execRingBackTimeout (n : PortNo) (s : State) : Host.Outcome State Fault Refusal :=
  .next (running (ringBackTimeout n) s)

/-- HOLDER_SILENCE_TIMEOUT (R102). -/
def execHolderSilenceTimeout (n : PortNo) (s : State) : Host.Outcome State Fault Refusal :=
  .next (running (holderSilence n) s)

/-- FAR_SILENCE_TIMEOUT (R102, R130). -/
def execFarSilenceTimeout (n : PortNo) (s : State) : Host.Outcome State Fault Refusal :=
  .next (running (farSilence n) s)

/-- HOWLER_TIMEOUT (R104). -/
def execHowlerTimeout (n : PortNo) (s : State) : Host.Outcome State Fault Refusal :=
  .next (running (howlerTimeout n) s)

/-- TONE_CADENCE (R101, R104). -/
def execToneCadence (n : PortNo) (s : State) : Host.Outcome State Fault Refusal := .next (running (toneCadence n) s)

/-- LOOP_FAULT_CHANGE (R105). -/
def execLoopFaultChange (n : PortNo) (level : Bool) (s : State) : Host.Outcome State Fault Refusal :=
  .next (running id (s.tell fun p => setFault level p n))

end Sys2Proof.Machine
end

