-- ==== Sys2Proof/Machine/CallEvents.lean ====
section
/-! DEFINITION. The exchange loop's events (06: R118 to R120, R124), and the events of line tests, reports and the
lamp (07, 08: R147, R151, R156). -/

namespace Sys2Proof.Machine

/-- SEIZE_TIMEOUT (R118, R134). -/
def execSeizeTimeout (s : State) : Host.Outcome State Fault Refusal := .next (running seizeTimeout s)

/-- LOOP_CURRENT_RISE (R118, R119, R134). -/
def execLoopCurrentRise (s : State) : Host.Outcome State Fault Refusal :=
  .next (running currentRise (s.tell fun p => { p with loopCurrent := true }))

/-- LOOP_CURRENT_FALL: the loss timer starts where it may (R119). -/
def execLoopCurrentFall (s : State) : Host.Outcome State Fault Refusal :=
  .next (running id (s.tell fun p => { p with loopCurrent := false }))

/-- LOSS_TIMEOUT (R119). -/
def execLossTimeout (s : State) : Host.Outcome State Fault Refusal := .next (running lossTimeout s)

/-- PARTY_SILENCE_TIMEOUT (R120). -/
def execPartySilenceTimeout (station port : Nat) (s : State) : Host.Outcome State Fault Refusal :=
  .next (running (partySilence station port) s)

/-- OUTPULSE_BREAK_END (R124). -/
def execOutpulseBreakEnd (s : State) : Host.Outcome State Fault Refusal := .next (running breakEnd s)

/-- OUTPULSE_MAKE_END (R124). -/
def execOutpulseMakeEnd (s : State) : Host.Outcome State Fault Refusal := .next (running makeEnd s)

/-- OUTPULSE_PAUSE_END (R124). -/
def execOutpulsePauseEnd (s : State) : Host.Outcome State Fault Refusal := .next (running pauseEnd s)

/-- TEST_STEP_END (R151). -/
def execTestStepEnd (outOfLimits : Bool) (s : State) : Host.Outcome State Fault Refusal :=
  .next (running (testStepEnd outOfLimits) s)

/-- RECEIPT_TIMEOUT (R156). -/
def execReceiptTimeout (s : State) : Host.Outcome State Fault Refusal := .next (running receiptTimeout s)

def dueLamp (s : State) : Bool :=
  match (lampSteps s.fault.lamp)[s.fault.lampStep]? with
  | some len => ranOut s.now s.fault.lampAt len
  | none => false

/-- The next part of the lamp's cadence (R147). -/
def lampCadence (s : State) : State :=
  if dueLamp s then
    s.modFault fun m => { m with lampStep := (m.lampStep + 1) % (lampSteps m.lamp).length, lampAt := s.now }
  else s

/-- LAMP_CADENCE (R147). -/
def execLampCadence (s : State) : Host.Outcome State Fault Refusal := .next (running lampCadence s)

end Sys2Proof.Machine
end

