-- ==== Sys2Proof/Machine/ServiceEvents.lean ====
section
/-! DEFINITION. The service port's commands (10: R181, R182). -/

namespace Sys2Proof.Machine

/-- STATUS (R181). -/
def execStatus (s : State) : Host.Outcome State Fault Refusal := .next (request .status s)

/-- ROSTER (R181). -/
def execRoster (s : State) : Host.Outcome State Fault Refusal := .next (request .roster s)

/-- TRACKS (R181). -/
def execTracks (s : State) : Host.Outcome State Fault Refusal := .next (request .tracks s)

/-- FAULTS (R181). -/
def execFaults (s : State) : Host.Outcome State Fault Refusal := .next (request .faults s)

/-- CALLS (R181). -/
def execCalls (s : State) : Host.Outcome State Fault Refusal := .next (request .calls s)

/-- LINE_TEST (R150, R182). -/
def execLineTest (s : State) : Host.Outcome State Fault Refusal := .next (request .lineTest s)

/-- FORGET (R182). -/
def execForget (id : Nat) (s : State) : Host.Outcome State Fault Refusal := .next (request (.forget id) s)

/-- RESTART (R182). -/
def execRestart (s : State) : Host.Outcome State Fault Refusal := .next (request .restart s)

/-- A request whose name is not one of the eight (R181). -/
def execUnknownRequest (name : List Byte) (s : State) : Host.Outcome State Fault Refusal :=
  .next (request (.unknown name) s)

/-- SERVICE_RESPONSE_END (R181, R182). -/
def execServiceResponseEnd (straps : StrapPins) (s : State) : Host.Outcome State Fault Refusal :=
  .next (responseEnd straps s)

end Sys2Proof.Machine
end

