-- ==== Sys2Proof/Machine/Tick.lean ====
section
/-! DEFINITION. What a step does on an empty queue (R163, R164, log 1): station time rises by one tick, and the
timed commands that have come due enter the queue in an order no rule fixes. -/

namespace Sys2Proof.Machine

def dueIf (b : Bool) (i : Instr) : List Instr := if b then [i] else []

/-- The interval taps of a station time (R164). -/
def tapsAt (now : Tick) : Taps where
  ten := decide (now.toNat % Config.tapTen = 0)
  one := decide (now.toNat % Config.second = 0)
  slow := decide (now.toNat % Config.tapSlow = 0)

/-- The samples of a 10 ms tap that the outside does not give itself (log 3): part 0 and 1 from the ports' codecs, 2
from the line's. -/
def freeSpeech (draw part : Nat) : Speech := (List.range 80).map fun i => Config.drawSample draw (80 * part + i)

/-- The interval taps of this station time that have not been handed out (R164, log 3). -/
def dueTaps (s : State) : List Instr :=
  dueIf s.taps.ten (.tap10ms (freeSpeech s.draws 0) (freeSpeech s.draws 1) (freeSpeech s.draws 2)) ++
    dueIf s.taps.one .tap1s ++ dueIf s.taps.slow .tap10s

/-- A slot's quiet-window events, which go on in the last-gasp window (R58, R67). -/
def dueWindows (s : State) (n : SlotName) : List Instr :=
  dueIf (dueWindowOpen n s) (.quietWindowOpen n) ++ dueIf (dueWindowClose n s) (.quietWindowClose n)

def dueSlot (s : State) (n : SlotName) : List Instr :=
  dueIf (dueCapture n s) (.captureExpiry n) ++ dueIf (dueRefresh n s) (.refreshExpiry n)

/-- One port's timers (05). -/
def duePort (s : State) (n : PortNo) : List Instr :=
  dueIf (dueOnHook n s) (.onHook n) ++ dueIf (dueCount n s) (.pulseCountClose n) ++
    dueIf (dueFirstDigit n s) (.firstDigitTimeout n) ++ dueIf (duePortDigit n s) (.portDigitTimeout n) ++
    dueIf (dueRequest n s) (.requestTimeout n) ++ dueIf (dueRingDrive n s) (.ringDriveTimeout n) ++
    dueIf (dueIntercomCadence n s) (.intercomRingCadence n) ++ dueIf (dueOfferRing n s) (.offerRingTimeout n) ++
    dueIf (dueRingBack n s) (.ringBackTimeout n) ++ dueIf (dueHolderSilence n s) (.holderSilenceTimeout n) ++
    dueIf (dueFarSilence n s) (.farSilenceTimeout n) ++ dueIf (dueHowler n s) (.howlerTimeout n) ++
    dueIf (dueTone n s) (.toneCadence n)

/-- Timers of the power controller and the hold controller (02, 09). -/
def dueHold (s : State) : List Instr :=
  dueIf (dueIdle s) .idleTimerExpiry ++ dueIf (dueRejoin s) .rejoinTimerExpiry ++
    dueIf (dueSettle s) .settleTimerExpiry ++ dueIf (dueNoHolder s) .noHolderTimeout ++
    dueIf (dueListen s) .listenTimeout ++ dueIf (dueFollow s) .claimFollowTimeout ++
    dueIf (dueDeferral s) .deferralEnd ++ dueIf (dueContest s) .contestEnd

/-- Timers of the modem supervisor and the report controller (04, 08), and the lamp's cadence (07). -/
def dueModem (s : State) : List Instr :=
  dueIf (dueReady s) .readyTimerExpiry ++ dueIf (dueTraining s) .trainingTimeout ++
    dueIf (dueGrace s) .graceTimeout ++ dueIf (dueBackoff s) .backoffWaitEnd ++
    dueIf (dueMailbox s) .mailboxTimeout ++ dueIf (dueReceipt s) .receiptTimeout ++ dueIf (dueLamp s) .lampCadence

/-- Parties whose stream has stopped (R120). -/
def dueParties (s : State) : List Instr :=
  match s.call.record with
  | some r =>
    (r.parties.filter fun p => duePartySilence p.station p.port s).map fun p =>
      .partySilenceTimeout p.station p.port
  | none => []

/-- Timers of the call controller, the ringing record, and voice deadlines (01, 05, 06). -/
def dueCall (s : State) : List Instr :=
  dueIf (dueSeize s) .seizeTimeout ++ dueIf (dueLoss s) .lossTimeout ++ dueIf (dueBreak s) .outpulseBreakEnd ++
    dueIf (dueMake s) .outpulseMakeEnd ++ dueIf (duePause s) .outpulsePauseEnd ++ dueParties s ++
    dueIf (dueRinging s) .exchangeRingingEnd ++
    (s.wire.voice.filter (overdue s.now)).map fun _ => Instr.voiceDeadline

/-- The timed commands that are due: in start-up none, in the last-gasp window the quiet windows and its end, and
in a running station all (R67, R164, R172). -/
def dueCommands (s : State) : List Instr :=
  if s.active then
    dueTaps s ++ [SlotName.a, .b].flatMap (dueWindows s) ++ [SlotName.a, .b].flatMap (dueSlot s) ++ dueHold s ++
      dueModem s ++ dueCall s ++ s.fittedPorts.flatMap (duePort s)
  else if s.phase = .running then
    [SlotName.a, .b].flatMap (dueWindows s) ++ dueIf (dueWindowEnd s) .lastGaspWindowEnd
  else []

def insertAt {α : Type} (x : α) : Nat → List α → List α
  | _, [] => [x]
  | 0, y :: ys => x :: y :: ys
  | n + 1, y :: ys => y :: insertAt x n ys

/-- An order that the free values choose (R164: "in no set order"; log 1, log 8). -/
def anyOrder {α : Type} : List α → Nat → List α
  | [], _ => []
  | x :: xs, d =>
    match anyOrder xs (d + 1) with
    | [] => [x]
    | y :: ys => insertAt x (Config.drawNat d % (ys.length + 2)) (y :: ys)

/-- One tick of station time (R163); a stopped chip holds none (R175). An answer to an offer withdrawn before it can no
longer be late by an instant (R86, log 60). -/
def tick (s : State) : State :=
  if s.phase = .stopped then s.quiet
  else
    let t := { s.quiet with now := s.now + 1, taps := tapsAt (s.now + 1), sup := { s.sup with late := 0 } }
    { t with pending := anyOrder (dueCommands t) t.draws, draws := t.draws + (dueCommands t).length }

end Sys2Proof.Machine
end

