-- ==== Sys2Proof/Machine/Dispatch.lean ====
section
/-! DEFINITION. One arm for each command of the table. -/

namespace Sys2Proof.Machine

def exec (i : Instr) (s : State) : Host.Outcome State Fault Refusal :=
  match i with
  | .powerUp levels => Sys2Proof.Machine.execPowerUp levels s
  | .reset straps => Sys2Proof.Machine.execReset straps s
  | .configurationReadEnd read interfacePresent => Sys2Proof.Machine.execConfigurationReadEnd read interfacePresent s
  | .mainsPresentFall => Sys2Proof.Machine.execMainsPresentFall s
  | .mainsPresentRise => Sys2Proof.Machine.execMainsPresentRise s
  | .batteryLowChange told => Sys2Proof.Machine.execBatteryLowChange told s
  | .batteryEmpty => Sys2Proof.Machine.execBatteryEmpty s
  | .idleTimerExpiry => Sys2Proof.Machine.execIdleTimerExpiry s
  | .rejoinTimerExpiry => Sys2Proof.Machine.execRejoinTimerExpiry s
  | .settleTimerExpiry => Sys2Proof.Machine.execSettleTimerExpiry s
  | .lastGaspWindowEnd => Sys2Proof.Machine.execLastGaspWindowEnd s
  | .tap10ms codec1 codec2 line => Sys2Proof.Machine.execTap10ms codec1 codec2 line s
  | .tap1s => Sys2Proof.Machine.execTap1s s
  | .tap10s => Sys2Proof.Machine.execTap10s s
  | .carrierRise => Sys2Proof.Machine.execCarrierRise s
  | .fragment bytes => Sys2Proof.Machine.execFragment bytes s
  | .damagedFrame bytes => Sys2Proof.Machine.execDamagedFrame bytes s
  | .beacon h m => Sys2Proof.Machine.execBeacon h m s
  | .claim h tiebreak => Sys2Proof.Machine.execClaim h tiebreak s
  | .yield h m => Sys2Proof.Machine.execYield h m s
  | .lastgasp h m => Sys2Proof.Machine.execLastgasp h m s
  | .halt h m => Sys2Proof.Machine.execHalt h m s
  | .seize h m => Sys2Proof.Machine.execSeize h m s
  | .answer h m => Sys2Proof.Machine.execAnswer h m s
  | .leave h m => Sys2Proof.Machine.execLeave h m s
  | .offer h m => Sys2Proof.Machine.execOffer h m s
  | .accept h m => Sys2Proof.Machine.execAccept h m s
  | .endCall h m => Sys2Proof.Machine.execEndCall h m s
  | .reply h m => Sys2Proof.Machine.execReply h m s
  | .clear h m => Sys2Proof.Machine.execClear h m s
  | .dial h m => Sys2Proof.Machine.execDial h m s
  | .voice h m => Sys2Proof.Machine.execVoice h m s
  | .report h r => Sys2Proof.Machine.execReport h r s
  | .receipt h trigger count => Sys2Proof.Machine.execReceipt h trigger count s
  | .data h f => Sys2Proof.Machine.execData h f s
  | .contentionPoint => Sys2Proof.Machine.execContentionPoint s
  | .slotBegin slot => Sys2Proof.Machine.execSlotBegin slot s
  | .transmissionEnd => Sys2Proof.Machine.execTransmissionEnd s
  | .collision => Sys2Proof.Machine.execCollision s
  | .voiceDeadline => Sys2Proof.Machine.execVoiceDeadline s
  | .packetReceive f => Sys2Proof.Machine.execPacketReceive f s
  | .impulseDetect => Sys2Proof.Machine.execImpulseDetect s
  | .burst => Sys2Proof.Machine.execBurst s
  | .captureExpiry slot => Sys2Proof.Machine.execCaptureExpiry slot s
  | .refreshExpiry slot => Sys2Proof.Machine.execRefreshExpiry slot s
  | .quietWindowOpen slot => Sys2Proof.Machine.execQuietWindowOpen slot s
  | .quietWindowClose slot => Sys2Proof.Machine.execQuietWindowClose slot s
  | .noHolderTimeout => Sys2Proof.Machine.execNoHolderTimeout s
  | .listenTimeout => Sys2Proof.Machine.execListenTimeout s
  | .claimFollowTimeout => Sys2Proof.Machine.execClaimFollowTimeout s
  | .deferralEnd => Sys2Proof.Machine.execDeferralEnd s
  | .contestEnd => Sys2Proof.Machine.execContestEnd s
  | .readyChange level => Sys2Proof.Machine.execReadyChange level s
  | .readyTimerExpiry => Sys2Proof.Machine.execReadyTimerExpiry s
  | .syncRise => Sys2Proof.Machine.execSyncRise s
  | .syncFall => Sys2Proof.Machine.execSyncFall s
  | .trainingTimeout => Sys2Proof.Machine.execTrainingTimeout s
  | .graceTimeout => Sys2Proof.Machine.execGraceTimeout s
  | .backoffWaitEnd => Sys2Proof.Machine.execBackoffWaitEnd s
  | .sendOkRise => Sys2Proof.Machine.execSendOkRise s
  | .upstreamTransferEnd told => Sys2Proof.Machine.execUpstreamTransferEnd told s
  | .downstreamFrame began f => Sys2Proof.Machine.execDownstreamFrame began f s
  | .mailboxDelivered => Sys2Proof.Machine.execMailboxDelivered s
  | .mailboxRefused => Sys2Proof.Machine.execMailboxRefused s
  | .mailboxTimeout => Sys2Proof.Machine.execMailboxTimeout s
  | .hookFall p => Sys2Proof.Machine.execHookFall p s
  | .hookRise p => Sys2Proof.Machine.execHookRise p s
  | .onHook p => Sys2Proof.Machine.execOnHook p s
  | .pulseCountClose p => Sys2Proof.Machine.execPulseCountClose p s
  | .toneDigitEvent p k => Sys2Proof.Machine.execToneDigitEvent p k s
  | .firstDigitTimeout p => Sys2Proof.Machine.execFirstDigitTimeout p s
  | .portDigitTimeout p => Sys2Proof.Machine.execPortDigitTimeout p s
  | .requestTimeout p => Sys2Proof.Machine.execRequestTimeout p s
  | .ringBurst => Sys2Proof.Machine.execRingBurst s
  | .exchangeRingingEnd => Sys2Proof.Machine.execExchangeRingingEnd s
  | .ringDriveTimeout p => Sys2Proof.Machine.execRingDriveTimeout p s
  | .intercomRingCadence p => Sys2Proof.Machine.execIntercomRingCadence p s
  | .offerRingTimeout p => Sys2Proof.Machine.execOfferRingTimeout p s
  | .ringBackTimeout p => Sys2Proof.Machine.execRingBackTimeout p s
  | .holderSilenceTimeout p => Sys2Proof.Machine.execHolderSilenceTimeout p s
  | .farSilenceTimeout p => Sys2Proof.Machine.execFarSilenceTimeout p s
  | .howlerTimeout p => Sys2Proof.Machine.execHowlerTimeout p s
  | .toneCadence p => Sys2Proof.Machine.execToneCadence p s
  | .loopFaultChange p level => Sys2Proof.Machine.execLoopFaultChange p level s
  | .seizeTimeout => Sys2Proof.Machine.execSeizeTimeout s
  | .loopCurrentRise => Sys2Proof.Machine.execLoopCurrentRise s
  | .loopCurrentFall => Sys2Proof.Machine.execLoopCurrentFall s
  | .lossTimeout => Sys2Proof.Machine.execLossTimeout s
  | .partySilenceTimeout station port => Sys2Proof.Machine.execPartySilenceTimeout station port s
  | .outpulseBreakEnd => Sys2Proof.Machine.execOutpulseBreakEnd s
  | .outpulseMakeEnd => Sys2Proof.Machine.execOutpulseMakeEnd s
  | .outpulsePauseEnd => Sys2Proof.Machine.execOutpulsePauseEnd s
  | .testStepEnd outOfLimits => Sys2Proof.Machine.execTestStepEnd outOfLimits s
  | .receiptTimeout => Sys2Proof.Machine.execReceiptTimeout s
  | .lampCadence => Sys2Proof.Machine.execLampCadence s
  | .status => Sys2Proof.Machine.execStatus s
  | .roster => Sys2Proof.Machine.execRoster s
  | .tracks => Sys2Proof.Machine.execTracks s
  | .faults => Sys2Proof.Machine.execFaults s
  | .calls => Sys2Proof.Machine.execCalls s
  | .lineTest => Sys2Proof.Machine.execLineTest s
  | .forget id => Sys2Proof.Machine.execForget id s
  | .restart => Sys2Proof.Machine.execRestart s
  | .unknownRequest name => Sys2Proof.Machine.execUnknownRequest name s
  | .serviceResponseEnd straps => Sys2Proof.Machine.execServiceResponseEnd straps s

end Sys2Proof.Machine
end

