-- ==== Sys2Proof/WellFormed.lean ====
section
/-! DEFINITION. Which commands the outside can give: operands in the ranges the spec gives them (00 "Conventions";
R2, R3, R4, R14, R106, R153, R178; log 5). `exec` answers for every command, well formed or not. -/

namespace Sys2Proof

open Sys2Proof.Machine

/-! ## Frames -/

/-- Source 1 to 8, destination 0 to 8 (R2). -/
def Header.ok (h : Header) : Bool :=
  decide (1 ≤ h.src) && decide (h.src ≤ 8) && decide (h.dst ≤ 8) && codedOk holdOf h.hold

/-- A number carried as one byte. -/
def byteOk (n : Nat) : Bool := decide (n < 256)

/-- A track count of 0 to 2 (R3). -/
def tracksOk (ts : List TrackMsg) : Bool := decide (ts.length ≤ 2)

/-- A code called unlisted is none of its table's (log 25). -/
def RecordState.ok : RecordState → Bool
  | .unlisted b => (recordOf b.toNat).isNone
  | _ => true

def RefuseCause.ok : RefuseCause → Bool
  | .unlisted b => (refusalOf b.toNat).isNone
  | _ => true

def ClearCause.ok : ClearCause → Bool
  | .unlisted b => (clearOf b.toNat).isNone
  | _ => true

def StreamType.ok : StreamType → Bool
  | .unlisted b => (streamOf b.toNat).isNone
  | _ => true

def Answer.ok : Answer → Bool
  | .grant => true
  | .refuse c => c.ok
  | .unlisted a _ => decide (a.toNat ≠ 1) && decide (a.toNat ≠ 2)

/-- The fields of a record that are bytes on the wire (R153). -/
def FaultRecord.ok (r : FaultRecord) : Bool :=
  byteOk r.origin && byteOk r.trigger && byteOk r.severity && byteOk r.startNumber && byteOk r.count &&
    byteOk r.sentCount && r.state.ok

/-- 80 samples (R106). -/
def speechOk (x : Speech) : Bool := decide (x.length = 80)

/-- A link frame that fits a DATA frame: 14 to 1536 bytes (R3). -/
def linkOk (f : LinkFrame) : Bool := decide (14 ≤ f.length) && decide (f.length ≤ 1536)

def RequestMsg.ok (m : RequestMsg) : Bool :=
  byteOk m.port && byteOk m.cls && byteOk m.target && byteOk m.ref && byteOk m.tag

/-- Contents that a frame of their kind can carry, by the hold state its header announces (R3, R4). -/
def payloadOk (hold : Coded HoldState) : Payload → Bool
  | .beacon m =>
    decide (m.holder.isSome = decide (hold = .listed .holding)) && tracksOk m.tracks && codedOk powerOf m.fixed.power
  | .claim _ => true
  | .yield m => tracksOk m.tracks
  | .lastgasp m => m.record.ok && tracksOk m.tracks
  | .halt m => codedOk powerOf m.fixed.power && codedOk haltOf m.code
  | .request _ m => m.ok
  | .reply m => m.answer.ok && byteOk m.tag && byteOk m.refStation && byteOk m.refPort && byteOk m.ref
  | .clear m => byteOk m.ref && byteOk m.port && m.cause.ok
  | .dial m => byteOk m.ref && byteOk m.port && codedOk dialOf m.item
  | .voice m => m.stream.ok && byteOk m.ref && byteOk m.srcPort && byteOk m.dstPort && speechOk m.samples
  | .report r => r.ok
  | .receipt t c => byteOk t && byteOk c
  | .data f => linkOk f

def frameOk (h : Header) (p : Payload) : Bool := h.ok && payloadOk h.hold p

/-! ## Commands -/

/-- A configuration memory that answers gives at least the record's 36 bytes (R178). -/
def configOk : ConfigRead → Bool
  | .absent => true
  | .answered bytes => decide (36 ≤ bytes.length)

/-- The DAMAGED_FRAME row tells what R7 calls damaged, and a checked REQUEST of a kind no row has (log 25). -/
def untold : Received → Bool
  | .damaged => true
  | .nameless _ => true
  | _ => false

/-- A command that the outside can give. -/
def WellFormed : Instr → Bool
  | .configurationReadEnd r _ => configOk r
  | .tap10ms a b l => speechOk a && speechOk b && speechOk l
  | .damagedFrame bytes => untold (receiveBytes bytes)
  | .beacon h m => frameOk h (.beacon m)
  | .claim h t => frameOk h (.claim t)
  | .yield h m => frameOk h (.yield m)
  | .lastgasp h m => frameOk h (.lastgasp m)
  | .halt h m => frameOk h (.halt m)
  | .seize h m => frameOk h (.request .seize m)
  | .answer h m => frameOk h (.request .answer m)
  | .leave h m => frameOk h (.request .leave m)
  | .offer h m => frameOk h (.request .offer m)
  | .accept h m => frameOk h (.request .accept m)
  | .endCall h m => frameOk h (.request .endCall m)
  | .reply h m => frameOk h (.reply m)
  | .clear h m => frameOk h (.clear m)
  | .dial h m => frameOk h (.dial m)
  | .voice h m => frameOk h (.voice m)
  | .report h r => frameOk h (.report r)
  | .receipt h t c => frameOk h (.receipt t c)
  | .data h f => frameOk h (.data f)
  | .slotBegin n => decide (n ≤ 33)
  | .partySilenceTimeout st po => decide (1 ≤ st) && decide (st ≤ 8) && decide (1 ≤ po) && decide (po ≤ 2)
  | .forget id => byteOk id
  | _ => true

end Sys2Proof
end

