-- ==== Sys2Proof/Safety.lean ====
section
/-! DEFINITION. What the statements speak of: a command's next state, the parts of the state it leaves alone, states in
which every level rule has settled, and the bounds the spec gives queues, lists, tracks, the roster and the line call
record. -/

namespace Sys2Proof

open Sys2Proof.Machine

/-- The command answers a next state that has the property. -/
def Answers (c : Instr) (s : State) (P : State → Prop) : Prop := ∃ t, exec c s = .next t ∧ P t

/-! ## Frames: the parts of the state -/

inductive Part
  | phase | now | taps | straps | interface | cfg | pins | power | wire | hold | noise | sup | ports | call | fault
  | report | svc | draws | outs | pending
  deriving DecidableEq, Repr

/-- One part is the same in both states. -/
def Part.Same (s t : State) : Part → Prop
  | .phase => t.phase = s.phase
  | .now => t.now = s.now
  | .taps => t.taps = s.taps
  | .straps => t.straps = s.straps
  | .interface => t.interface = s.interface
  | .cfg => t.cfg = s.cfg
  | .pins => t.pins = s.pins
  | .power => t.power = s.power
  | .wire => t.wire = s.wire
  | .hold => t.hold = s.hold
  | .noise => t.noise = s.noise
  | .sup => t.sup = s.sup
  | .ports => t.ports = s.ports
  | .call => t.call = s.call
  | .fault => t.fault = s.fault
  | .report => t.report = s.report
  | .svc => t.svc = s.svc
  | .draws => t.draws = s.draws
  | .outs => t.outs = s.outs
  | .pending => t.pending = s.pending

/-- From `s` to `t` nothing changes but the parts named. -/
def Only (ps : List Part) (s t : State) : Prop := ∀ p : Part, p ∉ ps → p.Same s t

/-! ## Settled level rules (log 10): what every neighbour does with a change has been done -/

def condsSettled (s : State) : Bool :=
  decide (s.cond .noiseTracked = decide (0 < s.noise.tracked)) &&
    decide (s.cond .peerLost = !s.hold.lost.isEmpty) && decide (s.cond .mainsOff = !s.full) &&
    decide (s.cond .batteryLow = s.pins.battLow) && decide (s.cond .portParked = s.anyParked) &&
    decide (s.cond .portShort = s.anyShort) &&
    (s.holding || (!s.cond .lineDead && !s.cond .lineLeaky && !s.cond .lineForeign))

def headSettled (s : State) : Bool :=
  match s.wire.data with
  | e :: _ => e.dst.isSome || e.inTx
  | [] => true

def idleSettled (s : State) : Bool :=
  if s.idleHolds then !s.pins.battLow && s.power.idle.isSome else s.power.idle.isNone

def reportsSettled (s : State) : Bool :=
  if s.holding then s.fault.list.all fun r => !isNew r || (placeReport (asSent r) s.report.queue).isNone
  else
    match s.hold.known with
    | some h => s.report.outstanding.isSome || !s.broadbandOf h || s.halted || s.fault.list.all fun r => !isNew r
    | none => true

def offerSettled (s : State) : Bool :=
  s.report.queue.isEmpty || !(s.holding && decide (s.sup.state = .synced) && s.sup.mailbox.isNone)

def transferSettled (s : State) : Bool :=
  s.sup.uplink.isEmpty || !(decide (s.sup.state = .synced) && s.pins.sendOk && s.sup.upTransfer.isNone)

def outpulseSettled (s : State) : Bool :=
  match s.call.record with
  | some r => r.queue.isEmpty || !(r.seized && decide (r.outpulse = .idle))
  | none => true

def lossSettled (s : State) : Bool :=
  match s.call.record with
  | some r => decide (r.loss.isSome = (r.seized && s.loopClosed && !s.pins.loopCurrent))
  | none => true

def toneSettled (s : State) (n : PortNo) : Bool :=
  let p := s.port n
  !(decide (p.tone = .dial) || decide (p.tone = .stutter)) || decide (p.tone = s.dialTone)

/-- A running station outside the last-gasp window in which every level rule has settled. -/
def Calm (s : State) : Prop :=
  s.active = true ∧ s.eligibleNow = s.hold.eligible ∧
    (s.holding && s.hold.degraded && s.call.record.isNone) = false ∧ s.computeHolder = s.hold.known ∧
    s.wire.dropped = [] ∧ headSettled s = true ∧ condsSettled s = true ∧ idleSettled s = true ∧
    reportsSettled s = true ∧ offerSettled s = true ∧ transferSettled s = true ∧ outpulseSettled s = true ∧
    lossSettled s = true ∧ s.lampWanted = s.fault.lamp ∧ s.fittedPorts.all (toneSettled s) = true

/-- FULL power, or a battery that is not low: no command can then lead to WATCH but the idle timer's end (R168). -/
def Awake (s : State) : Prop := s.power.state = .full ∨ s.pins.battLow = false

/-- The front end has become live: a carrier that stands is a receive whose start was not heard, which a station that
halts at this moment abandons; on an idle wire a round opens; and while a frame of its own is in transmission the station
neither receives nor contends (R6, R14, R18, R171). -/
def WireOpens (s t : State) : Prop :=
  t.power.frontEnd = .live ∧
    (s.wire.tx = none → s.pins.carrier = true → t.wire.round = none ∧
      t.wire.rx = if t.hold.state = .halted ∧ s.hold.state ≠ .halted then none else some ⟨s.now, false⟩) ∧
    (s.wire.tx = none → s.pins.carrier = false → s.wire.rx = none → t.wire.round = some ⟨0⟩ ∧ t.wire.rx = none) ∧
    (s.wire.tx.isSome = true → t.wire.rx = s.wire.rx ∧ t.wire.round = s.wire.round)

/-- A running station at which the wire and the quiet windows go on: a settled one, or one in the last-gasp window
(R172). -/
def WireGoesOn (s : State) : Prop := Calm s ∨ (s.phase = .running ∧ s.power.window.isSome = true)

/-- A slot of the present round begins on an idle wire at a running station: no frame of its own and no carrier, a live
front end, and the slot has not begun (R14). -/
def SlotOpens (s : State) (slot : Nat) : Prop :=
  s.phase = .running ∧ s.power.frontEnd = .live ∧ s.wire.tx = none ∧ s.wire.rx = none ∧ s.pins.carrier = false ∧
    slot ≤ 33 ∧ ∃ r, s.wire.round = some r ∧ r.next ≤ slot

/-- The slot in which a class's head contends: voice 0, control 1, data 2 + k (R14). -/
def slotOf (e : TxEntry) : FrameClass → Nat
  | .voice => 0
  | .control => 1
  | .data => 2 + e.backoff

/-- The own LOCKED slots as a frame that starts now carries them, A before B. An offset is the prediction less the start;
where the prediction lies before the start, the rounded period is added to it first (R4, R51). -/
def startTracks (s : State) : List TrackMsg :=
  [s.noise.a, s.noise.b].filterMap fun slot => slot.bind fun k =>
    let ahead := -(elapsed s.now k.tNext)
    let offset := if ahead < 0 then ahead + ((k.period + 4) / 8 : Nat) else ahead
    if slotState slot = .locked then some ⟨BitVec.ofNat 32 k.period, BitVec.ofNat 8 k.conf, BitVec.ofInt 24 offset⟩
    else none

/-- The fixed part of a BEACON or HALT that starts now (R4, R37). -/
def startFixed (s : State) : BeaconFixed :=
  { tiebreak := s.hold.tiebreak, power := .listed s.power.state, modem := s.straps.modem, eligible := s.hold.eligible
    cls := s.cfg.stationClass, holdTime := BitVec.ofNat 32 s.sup.holdTime }

/-- The holder block of a HOLDING station's beacon that starts now (R37). -/
def startHolderBlock (s : State) : HolderBlock :=
  { call := s.call.record.isSome, joiners := BitVec.ofNat 2 ((s.call.record.map (·.parties.length)).getD 0)
    priv := s.call.record.any (·.priv), degraded := s.hold.degraded, broadband := decide (s.sup.state = .synced)
    profile := BitVec.ofNat 2 s.sup.inUse, dead := s.cond .lineDead, leaky := s.cond .lineLeaky
    foreign := s.cond .lineForeign }

/-- What a queued frame holds when it starts now. BEACON, YIELD, LASTGASP and HALT are filled at their start, from the
state as it then stands; the others hold what they were queued with (R4, R37, R40, R44, R174). -/
def startContents (s : State) : Body → Payload
  | .beacon =>
    .beacon ⟨startFixed s, if s.hold.state = .holding then some (startHolderBlock s) else none, startTracks s⟩
  | .halt => .halt ⟨startFixed s, .listed (s.hold.halt.getD .configBad)⟩
  | .yield => .yield ⟨BitVec.ofNat 8 s.sup.stored, startTracks s⟩
  | .lastgasp r held => .lastgasp ⟨r, held, BitVec.ofNat 2 s.sup.stored, if held then startTracks s else []⟩
  | .claim t _ => .claim t
  | .request k m => .request k m
  | .reply m => .reply m
  | .clear m => .clear m
  | .dial m => .dial m
  | .voice m => .voice m
  | .report r => .report r
  | .receipt t c => .receipt t c
  | .data f => .data f

/-- A span of `air` ticks from now shares no tick with a quiet window of a LOCKED or BORROWED slot: each window, from 12
ticks before its prediction to 20 after, has passed or begins after the span's end (R20, R58). -/
def SpanFree (s : State) (air : Nat) : Prop :=
  ∀ k, s.noise.a = some k ∨ s.noise.b = some k → k.firm = true →
    20 < elapsed s.now k.tNext ∨ (air : Int) < -(elapsed s.now k.tNext) - 12

/-- The front end when a frame of its own has ended: one that waited for it goes down (R169). -/
def frontAfter (s : State) : FrontEnd := if s.power.frontEnd = .closing then .down else s.power.frontEnd

/-- The data queue after its head has left it with `rest` behind: the next entry becomes head. One without a destination
takes the known holder's, is discarded where no holder is known, or goes to the own supervisor where the station holds
the line itself, and the next becomes head (R12, R80, R83, R84; at once, log 32). -/
def DataHeadNext (rest : List TxEntry) (s t : State) : Prop :=
  (rest = [] → t.wire.data = []) ∧
    (∀ f more, rest = f :: more → f.dst.isSome = true → t.wire.data = rest) ∧
    (∀ f more h, rest = f :: more → f.dst = none → f.inTx = false → s.hold.known = some h → h ≠ s.own →
      t.wire.data = { f with dst := some h } :: more) ∧
    (∀ pre post, rest = pre ++ post → (∀ f ∈ pre, f.dst = none ∧ f.inTx = false) →
      (∀ f, post.head? = some f → f.dst.isSome = true) →
      (s.hold.known = none → t.wire.data = post) ∧
      (∀ f l, pre = [f] → f.body = .data l → s.hold.known = some s.own →
        t.wire.data = post ∧ t.sup.map = learn ((l.drop 6).take 6) s.own s.now s.sup.map ∧
        (s.sup.state ≠ .synced ∨ 32 ≤ s.sup.uplink.length → t.sup.uplink = s.sup.uplink) ∧
        (s.sup.state = .synced → s.sup.uplink.length < 32 →
          if s.pins.sendOk = true ∧ s.sup.upTransfer = none then t.sup.upTransfer = some l ∧ t.sup.uplink = []
          else t.sup.uplink = s.sup.uplink ++ [l])))

/-- The block that offered a control frame is told that it was dropped: the station's present CLAIM returns it to
SEEKING, its YIELD ends the yield, and an outstanding request of a port fails (R1, R35, R41, R96). -/
def DropTold (b : Body) (s t : State) : Prop :=
  (∀ x n, b = .claim x n → s.hold.state = .claiming → n = s.hold.claimSerial →
    t.hold.state = .seeking ∧ t.hold.contest = none ∧ t.hold.deferral = if s.hold.eligible then some s.now else none) ∧
  (b = .yield → s.hold.state = .yielding → t.hold.state = if s.hold.known.isSome then .passive else .seeking) ∧
  (∀ k m n q, b = .request k m → n ∈ s.fittedPorts → (s.port n).outReq = some q → q.held = false →
    q.tag = m.tag → q.kind = k →
    (t.port n).state = .cleared ∧ (t.port n).outReq = none ∧ (t.port n).tone = .busy ∧
      (t.port n).lastCause = some (.refused (if k = .offer then .noStation else .noHolder)))

/-- The service request a command makes (R181). -/
def svcRequest : Instr → Option SvcReq
  | .status => some .status
  | .roster => some .roster
  | .tracks => some .tracks
  | .faults => some .faults
  | .calls => some .calls
  | .lineTest => some .lineTest
  | .forget id => some (.forget id)
  | .restart => some .restart
  | .unknownRequest n => some (.unknown n)
  | _ => none

/-- The station is hearing a frame whose start it heard (R6). -/
def Hearing (s : State) (start : Tick) : Prop := s.wire.rx = some ⟨start, true⟩

/-- A frame of another station for all stations or for this one (R8). -/
def ForUs (s : State) (h : Header) : Prop := h.src ≠ s.own ∧ (h.dst = 0 ∨ h.dst = s.own)

/-- The roster already holds the sender with the hold state the frame announces, and the sender is not lost: hearing
the frame changes no condition and no known holder (R23, R27, R28). -/
def Familiar (s : State) (h : Header) : Prop :=
  (s.peer h.src).map (·.hold) = some h.hold ∧ h.src ∉ s.hold.lost

/-- The header of a checked frame: of the eighteen frame commands, and of a checked REQUEST that no row has, which
DAMAGED_FRAME tells (log 25). -/
def frameHeader : Instr → Option Header
  | .beacon h _ => some h
  | .claim h _ => some h
  | .yield h _ => some h
  | .lastgasp h _ => some h
  | .halt h _ => some h
  | .seize h _ => some h
  | .answer h _ => some h
  | .leave h _ => some h
  | .offer h _ => some h
  | .accept h _ => some h
  | .endCall h _ => some h
  | .reply h _ => some h
  | .clear h _ => some h
  | .dial h _ => some h
  | .voice h _ => some h
  | .report h _ => some h
  | .receipt h _ _ => some h
  | .data h _ => some h
  | .damagedFrame bytes => match receiveBytes bytes with | .nameless h => some h | _ => none
  | _ => none

/-- Commands that tell a block nothing but the level of an input, and are followed in every phase (R165, log 6). -/
def tellsInput : Instr → Bool
  | .mainsPresentFall | .mainsPresentRise | .batteryLowChange _ | .batteryEmpty | .readyChange _ | .syncRise
  | .syncFall | .sendOkRise | .upstreamTransferEnd _ | .loopCurrentRise | .loopCurrentFall | .hookFall _ | .hookRise _
  | .loopFaultChange _ _ => true
  | _ => false

/-- The blocks' timers, taps, impulses and answers, the tone digits and the frames at the packet port and the modem. -/
def blockEvent : Instr → Bool
  | .idleTimerExpiry | .rejoinTimerExpiry | .settleTimerExpiry | .tap10ms _ _ _ | .tap1s | .tap10s | .voiceDeadline
  | .packetReceive _ | .impulseDetect | .burst | .captureExpiry _ | .refreshExpiry _ | .noHolderTimeout
  | .listenTimeout | .claimFollowTimeout | .deferralEnd | .contestEnd | .readyTimerExpiry | .trainingTimeout
  | .graceTimeout | .backoffWaitEnd | .downstreamFrame _ _ | .mailboxDelivered | .mailboxRefused | .mailboxTimeout
  | .onHook _ | .pulseCountClose _ | .toneDigitEvent _ _ | .firstDigitTimeout _ | .portDigitTimeout _
  | .requestTimeout _ | .ringBurst | .exchangeRingingEnd | .ringDriveTimeout _ | .intercomRingCadence _
  | .offerRingTimeout _ | .ringBackTimeout _ | .holderSilenceTimeout _ | .farSilenceTimeout _ | .howlerTimeout _
  | .toneCadence _ | .seizeTimeout | .lossTimeout | .partySilenceTimeout _ _ | .outpulseBreakEnd | .outpulseMakeEnd
  | .outpulsePauseEnd | .testStepEnd _ | .receiptTimeout | .lampCadence => true
  | _ => false

/-- The hold state the roster takes from a frame: a LASTGASP that announces HOLDING counts as YIELDING (R23, R25),
one addressed to another station alone too, which is the model's choice (log 71). -/
def heardHold : Instr → Coded HoldState → Coded HoldState
  | .lastgasp _ _, .listed .holding => .listed .yielding
  | _, h => h

/-- The tiebreak of a BEACON or CLAIM (R42). -/
def frameTie : Instr → Option (BitVec 16)
  | .beacon _ m => some m.fixed.tiebreak
  | .claim _ t => some t
  | _ => none

/-- A station that has just entered WATCH (R45, R66, R169); its front end waits for a frame in transmission to complete. -/
def Asleep (t : State) : Prop :=
  t.power.state = .watch ∧ t.power.frontEnd = (if t.wire.tx.isSome then .closing else .down) ∧ t.power.idle = none ∧
    t.hold.roster = [] ∧ t.hold.lost = [] ∧ t.hold.known = none ∧ t.hold.noHolder = none ∧ t.hold.listen = none ∧
    t.hold.deferral = none ∧ t.hold.contest = none ∧ t.hold.follow = none ∧ t.noise = ⟨none, none, [], none, 0⟩ ∧
    t.wire.rx = none ∧ t.wire.round = none ∧ t.wire.errors = 0 ∧ t.wire.voice.all (·.inTx) = true ∧
    t.wire.control.all (·.inTx) = true ∧ t.wire.data.all (·.inTx) = true ∧ t.cond .noHolder = false ∧
    t.cond .peerLost = false ∧ t.cond .noiseTracked = false

/-- The wire controller in start-up: nothing but a frame that was in transmission when the restart began, flushed, alone
in its queue; its collision is the one that can be counted (R6, R7, R13, R17, log 54). -/
def startWire (w : Wire) : Bool :=
  match w.tx with
  | none => decide (w = ⟨[], [], [], none, none, none, w.collided, 0, []⟩)
  | some x =>
    match w.queue x.cls with
    | [e] =>
      x.start.isNone && e.inTx && e.flushed &&
        decide (w = (⟨[], [], [], some x, none, none, 0, 0, []⟩ : Wire).setQueue [e] x.cls)
    | _ => false

/-- A start-up in progress: the blocks at the values of a start (R46, R68, R88, R89, R110, R162, R165). -/
def Starting (s : State) : Prop :=
  s.phase = .startUp ∧ s.power.state = .battery ∧ s.power.window = none ∧ s.power.idle = none ∧
    s.power.rejoin = none ∧ s.power.frontEnd = (if s.wire.tx.isSome then .closing else .down) ∧
    startWire s.wire = true ∧ s.hold.state = .listen ∧
    s.hold.roster = [] ∧ s.hold.lost = [] ∧ s.hold.known = none ∧ s.hold.halt = none ∧ s.hold.eligible = false ∧
    s.hold.degraded = false ∧ s.noise = ⟨none, none, [], none, 0⟩ ∧ s.sup.state = .off ∧ s.sup.uplink = [] ∧
    s.sup.readyTimer = none ∧ s.sup.upTransfer = none ∧ s.sup.map = [] ∧ s.sup.mailbox = none ∧
    s.ports = ⟨Port.start, Port.start, none, 1⟩ ∧ s.call.record = none ∧ s.call.bindings = [] ∧
    s.fault.conds = 0 ∧ s.fault.test = none ∧ s.report = ⟨none, []⟩

/-- At a HOLDING station the record `r`, SENT in `s` and NEW again, is taken into the report queue: in place of the entry
of its origin and trigger, else at the tail, else it stays NEW (R157, R158). -/
def TakenIn (r : FaultRecord) (s t : State) : Prop :=
  let q : FaultRecord := { r with state := .sent, sentCount := r.count }
  if s.report.queue.any (fun e => decide (e.origin = r.origin) && decide (e.trigger = r.trigger)) then
    q ∈ t.fault.list ∧
      t.report.queue = s.report.queue.map fun e => if e.origin = r.origin ∧ e.trigger = r.trigger then q else e
  else if s.report.queue.length < 24 then q ∈ t.fault.list ∧ t.report.queue = s.report.queue ++ [q]
  else { r with state := .new } ∈ t.fault.list ∧ t.report.queue = s.report.queue

/-- What a port of the holder itself gets for a SEIZE or ANSWER, which its own call controller judges without a frame
(R97, R112 to R116): CONNECTED to the record as its first or a further party, or CLEARED with the refusal's cause and
reference. The order of the two checks of R114 is the model's choice (log 68), and so is a record that begins SEIZING
whatever the level of loop current (log 69). -/
def JudgedInside (k : RequestKind) (n : PortNo) (s t : State) : Prop :=
  let own := (s.portCfg n).cls.toNat
  let cls := max own s.cfg.stationClass.toNat
  let party : Party := ⟨s.own, portNo n, 0, ⟨[], none, [], 0⟩, s.now⟩
  let byClass := (s.own, if s.cfg.stationClass.toNat ≤ own then portNo n else 0)
  let granted := fun (r : CallRecord) =>
    (t.port n).state = .connected ∧ (t.port n).callRef = some (.outside s.own r.id) ∧ (t.port n).outReq = none ∧
      (t.port n).seq = 0 ∧ (t.port n).silence = none ∧ (t.port n).tone = .silent ∧ t.call.record = some r
  let refused := fun (c : RefuseCause) (ref : Nat × Nat) =>
    (t.port n).state = .cleared ∧ (t.port n).outReq = none ∧ (t.port n).tone = .busy ∧
      (t.port n).lastCause = some (.refused c) ∧ (t.port n).lastRef = some ref ∧ t.call.record = s.call.record
  t.wire.control = s.wire.control ∧
    match s.call.record with
    | none =>
      if (k = .answer ∧ s.ports.ringing.isSome = true) ∨ (cls ≤ s.cfg.seizeLevel.toNat ∧ s.cond .lineDead = false) then
        granted ⟨nextId s.call.lastId, false,
            s.cfg.privateFlags.getLsbD (2 * (s.own - 1) + (portNo n - 1)), (s.own, portNo n), [party], some s.now, none,
            [], .idle⟩ ∧
          t.call.lastId = nextId s.call.lastId ∧ t.loopClosed = true ∧ t.fault.test = none
      else if s.cfg.seizeLevel.toNat < cls then refused .cls byClass
      else refused .lineFault (s.own, 0)
    | some r =>
      if r.has s.own (portNo n) then
        granted { r with parties := r.parties.map fun p =>
          if p.station = s.own ∧ p.port = portNo n then party else p }
      else if k = .seize ∧ s.hold.degraded = true then refused .degraded (s.own, 0)
      else if r.priv then refused .priv r.first
      else if s.cfg.joinLevel.toNat < cls then refused .cls byClass
      else if 3 ≤ r.parties.length then refused .full (s.own, 0)
      else granted { r with parties := r.parties ++ [party] }

/-! ## Timers that have run out (09: R163) -/

/-- A timer started at `start` has reached its length in ticks (R163). -/
def reached (s : State) (len : Nat) (start : Option Tick) : Bool :=
  start.any fun t => decide ((len : Int) ≤ elapsed s.now t)

/-- The parts of a tone's cadence in ticks (R101, R104). -/
def toneParts : Tone → List Nat
  | .stutter => [4000, 4000]
  | .busy => [20000, 20000]
  | .ringBack => [40000, 80000]
  | .howler => [10000, 10000]
  | .fault => [10000, 10000, 10000, 50000]
  | .silent | .dial => []

/-- The parts of the lamp's cadence in ticks (R147). -/
def lampParts : LampPattern → List Nat
  | .fast => [8000, 8000]
  | .slow => [40000, 40000]
  | .double => [8000, 8000, 8000, 56000]
  | .off | .steady => []

/-- A fitted port has a property. -/
def atPort (s : State) (n : PortNo) (f : Port → Bool) : Bool := s.fitted n && f (s.port n)

/-- The conditions under which the idle timer runs (R168). -/
def idleRuns (s : State) : Bool :=
  let quiet := fun (p : Port) => !p.offHook && p.callRef.isNone && p.outReq.isNone
  decide (s.power.state = .battery) && decide (s.power.frontEnd = .live) && quiet s.ports.one && quiet s.ports.two &&
    !decide (s.hold.state = .holding ∨ s.hold.state = .claiming ∨ s.hold.state = .yielding)

/-- The present time lies in a LOCKED or BORROWED slot's quiet window (R58). -/
def quietNow (s : State) (k : Track) : Bool :=
  (k.lender.isSome || decide (4 ≤ k.conf)) && decide (-12 ≤ elapsed s.now k.tNext) &&
    decide (elapsed s.now k.tNext ≤ 20)

/-- The timer that a command tells of has run out: what it needs to run, and its length in ticks. An on-hook comes once a
break is longer than 40 000 ticks (R90); a slot's capture expiry is 40 ticks after its prediction (R51). The lengths are
those of R10, R29, R32 to R35, R63, R70 to R74, R86, R91, R93, R95, R96, R98, R100 to R104, R118 to R120, R124, R147,
R154, R167, R168 and R171. -/
def blockTimerOut (s : State) : Instr → Bool
  | .idleTimerExpiry => idleRuns s && reached s 4800000 s.power.idle
  | .rejoinTimerExpiry => reached s 1200000 s.power.rejoin
  | .settleTimerExpiry => match s.power.frontEnd with | .settling t => reached s 2000 (some t) | _ => false
  | .voiceDeadline => s.wire.voice.any fun e => !e.inTx && reached s 200 (some e.due)
  | .captureExpiry n => (s.noise.slot n).any fun k => reached s 40 (some k.tNext)
  | .refreshExpiry n => (s.noise.slot n).any fun k => reached s 120000 (k.lender.map (·.refresh))
  | .noHolderTimeout => reached s 1200000 s.hold.noHolder
  | .listenTimeout => decide (s.hold.state = .listen) && reached s 120000 s.hold.listen
  | .claimFollowTimeout => decide (s.hold.state = .passive) && reached s 80000 (s.hold.follow.map (·.heard))
  | .deferralEnd => decide (s.hold.state = .seeking) && reached s (10000 * s.own) s.hold.deferral
  | .contestEnd => decide (s.hold.state = .claiming) && reached s 20000 s.hold.contest
  | .readyTimerExpiry => reached s 400000 s.sup.readyTimer
  | .trainingTimeout => decide (s.sup.state = .training) && reached s 3600000 s.sup.timer
  | .graceTimeout => decide (s.sup.state = .lost) && reached s 80000 s.sup.timer
  | .backoffWaitEnd => decide (s.sup.state = .backoff) && reached s s.sup.backoffLen s.sup.timer
  | .mailboxTimeout => reached s 200000 (s.sup.mailbox.map (·.start))
  | .onHook n => atPort s n fun p => p.offHook && reached s 40001 p.breakStart
  | .pulseCountClose n => atPort s n fun p =>
      decide (0 < p.pulses) && p.breakStart.isNone && reached s 10000 p.pulseEnd
  | .firstDigitTimeout n => atPort s n fun p => decide (p.state = .dialing) && reached s 600000 p.firstDigit
  | .portDigitTimeout n => atPort s n fun p =>
      decide (p.state = .dialing) && decide (p.pulses = 0) && reached s 120000 p.digitAt
  | .requestTimeout n => atPort s n fun p => p.outReq.any fun q => !q.held && reached s 20000 (some q.made)
  | .exchangeRingingEnd => reached s 240000 s.ports.ringing
  | .ringDriveTimeout n => atPort s n fun p =>
      decide (p.pending = some .exchange) && p.ringOn && reached s 40000 (some p.ringAt)
  | .intercomRingCadence n => atPort s n fun p =>
      match p.pending with
      | some (.offerFrom _ _ _) => reached s (if p.ringOn then 40000 else 80000) (some p.ringAt)
      | _ => false
  | .offerRingTimeout n => atPort s n fun p => reached s 1200000 p.offerAt
  | .ringBackTimeout n => atPort s n fun p => reached s 1200000 p.ringBack
  | .holderSilenceTimeout n => atPort s n fun p =>
      match p.callRef with | some (.outside _ _) => reached s 40000 p.silence | _ => false
  | .farSilenceTimeout n => atPort s n fun p =>
      match p.callRef with | some (.outside _ _) => false | _ => reached s 40000 p.silence
  | .howlerTimeout n => atPort s n fun p => reached s 1200000 p.howler
  | .toneCadence n => atPort s n fun p => (toneParts p.tone)[p.toneStep]?.any fun len => reached s len (some p.toneAt)
  | .seizeTimeout => s.call.record.any fun r => reached s 40000 r.seize
  | .lossTimeout => s.call.record.any fun r => reached s 16000 r.loss
  | .partySilenceTimeout st po => s.call.record.any fun r => r.parties.any fun p =>
      decide (p.station = st) && decide (p.port = po) && reached s 40000 (some p.silence)
  | .outpulseBreakEnd => s.call.record.any fun r =>
      match r.outpulse with | .breaking _ len t => reached s len (some t) | _ => false
  | .outpulseMakeEnd => s.call.record.any fun r =>
      match r.outpulse with | .making _ t => reached s 1600 (some t) | _ => false
  | .outpulsePauseEnd => s.call.record.any fun r =>
      match r.outpulse with | .pausing t => reached s 28000 (some t) | _ => false
  | .receiptTimeout => reached s 1200000 (s.report.outstanding.map (·.start))
  | .lampCadence => (lampParts s.fault.lamp)[s.fault.lampStep]?.any fun len => reached s len (some s.fault.lampAt)
  | _ => false

/-- The timer that a command tells of has run out: a quiet window's tick and the end of the last-gasp window at any
running station, the others outside that window alone (R67, R163, R172). -/
def timerRunOut (s : State) (c : Instr) : Bool :=
  decide (s.phase = .running) &&
    match c with
    | .quietWindowOpen n => (s.noise.slot n).any fun k => !k.winOpen && quietNow s k
    | .quietWindowClose n => (s.noise.slot n).any fun k => k.winOpen && !quietNow s k
    | .lastGaspWindowEnd => reached s 800 s.power.window
    | c => s.power.window.isNone && blockTimerOut s c

/-- The commands of the interval taps (R164). -/
def intervalTap : Instr → Bool
  | .tap10ms _ _ _ | .tap1s | .tap10s => true
  | _ => false

/-! ## The configuration record (10: R178, R179) -/

/-- The defaults: one port, station and port classes 0, both ports ring, seize and join level 3, no private port, profile
1, a test every 6 hours, and the eight triggers of R137, each enabled and ANY of its conditions ACTIVE; the conditions by
their numbers (section 7.1, R179). -/
def ConfigDefaults (c : Cfg) : Prop :=
  c.portCount = 1 ∧ c.stationClass = 0 ∧ c.port1 = ⟨0, true⟩ ∧ c.port2 = ⟨0, true⟩ ∧ c.seizeLevel = 3 ∧ c.joinLevel = 3 ∧
    c.privateFlags = 0 ∧ c.defaultProfile = 1 ∧ c.testInterval = 6 ∧ c.fromMemory = false ∧
    c.triggers = [([0], 1), ([1, 2], 2), ([3, 5], 2), ([8], 1), ([7], 3), ([11], 2), ([13, 14], 3), ([9, 10], 3)].map
      fun (conds, severity) => ⟨BitVec.ofNat 16 (conds.map (2 ^ ·)).sum, false, false, severity, true⟩

/-- A good record's format byte is 1, and its last two bytes, the lower first, are the sum of bytes 0 to 33 modulo 65 536
(R178). -/
def GoodRecord (bytes : List Byte) : Prop :=
  let byte := fun i => (bytes.getD i 0).toNat
  byte 0 = 1 ∧ byte 34 + 256 * byte 35 = ((List.range 34).map byte).sum % 65536

/-- The fields of a good record, byte for byte, four of them clamped (R178). Port 2 has the default settings where the
port count is 1 (log 66). -/
def ConfigFields (bytes : List Byte) (c : Cfg) : Prop :=
  let byte := fun i => (bytes.getD i 0).toNat
  let settings := fun (i : Nat) (p : PortCfg) => p.cls.toNat = byte i % 4 ∧ p.rings = decide (byte i / 4 % 2 = 1)
  c.portCount = (if byte 1 ≤ 1 then 1 else 2) ∧ c.stationClass.toNat = byte 2 % 4 ∧ settings 3 c.port1 ∧
    (if byte 1 ≤ 1 then c.port2 = ⟨0, true⟩ else settings 4 c.port2) ∧
    c.seizeLevel.toNat = byte 5 % 4 ∧ c.joinLevel.toNat = byte 5 / 4 % 4 ∧
    c.privateFlags.toNat = byte 6 + 256 * byte 7 ∧ c.defaultProfile = (if 3 < byte 8 then 3 else byte 8) ∧
    c.testInterval = (if 24 < byte 9 then 24 else byte 9) ∧ c.fromMemory = true ∧ c.triggers.length = 8 ∧
    ∀ n g, c.triggers[n]? = some g →
      g.mask.toNat = byte (10 + 3 * n) + 256 * byte (11 + 3 * n) ∧
        g.all = decide (byte (12 + 3 * n) % 2 = 1) ∧ g.inverse = decide (byte (12 + 3 * n) / 2 % 2 = 1) ∧
        g.severity = (if byte (12 + 3 * n) / 4 % 4 = 0 then 1 else byte (12 + 3 * n) / 4 % 4) ∧
        g.enabled = decide (byte (12 + 3 * n) / 16 % 2 = 1)

/-- The three outcomes of the configuration read: the record in force, and whether CONFIG_BAD is given (R178, R179). -/
def ConfigGives (r : ConfigRead) (c : Cfg) (bad : Bool) : Prop :=
  match r with
  | .absent => ConfigDefaults c ∧ bad = false
  | .answered bytes =>
    (GoodRecord bytes → ConfigFields bytes c ∧ bad = false) ∧ (¬ GoodRecord bytes → ConfigDefaults c ∧ bad = true)

/-! ## Frames handed over, and what ports and parties are told (01, 05, 06) -/

/-- The control queue when a frame is handed over that is neither BEACON nor LASTGASP: it joins if there is room, or in
place of a waiting BEACON, else it is dropped (R11). -/
def controlJoined (q : List TxEntry) (e : TxEntry) : List TxEntry :=
  let beacon := fun f : TxEntry => !f.inTx && decide (f.body = .beacon)
  if q.length < 8 then q ++ [e] else if q.any beacon then q.eraseP beacon ++ [e] else q

/-- No frame is handed to the wire controller, and no tag is taken. -/
def NothingSent (s t : State) : Prop := t.wire.control = s.wire.control ∧ t.ports.tag = s.ports.tag

/-- A control frame but BEACON, HALT and LASTGASP is handed to the wire controller, which a HALTED station's discards
(R11, R18). -/
def FrameHanded (dst : Nat) (b : Body) (s t : State) : Prop :=
  t.wire.control = if s.halted then s.wire.control else controlJoined s.wire.control (newEntry (some dst) b s.now)

/-- A REQUEST is handed to the wire controller (R96, R103). -/
def RequestHanded (k : RequestKind) (dst : Nat) (m : RequestMsg) (s t : State) : Prop :=
  FrameHanded dst (.request k m) s t

/-- The control queue when a BEACON is offered: it joins if the front end is live, no BEACON waits and there is room, else
the queue stays (R11, R31). -/
def beaconOffered (s : State) : List TxEntry :=
  if s.power.frontEnd = .live ∧ s.wire.control.length < 8 ∧ (∀ e ∈ s.wire.control, e.body = .beacon → e.inTx = true) then
    s.wire.control ++ [newEntry (some 0) .beacon s.now]
  else s.wire.control

/-- A port's SEIZE, ANSWER or OFFER goes to another station: it takes the next tag and is handed to the wire controller,
and the port waits for its answer; one that finds no room, in a full queue with no BEACON waiting, is reported dropped,
and the port is CLEARED at that moment (R11, R94, R96, R99). -/
def RequestMade (k : RequestKind) (n : PortNo) (dst target : Nat) (s t : State) : Prop :=
  t.ports.tag = nextTag s.ports.tag ∧
  RequestHanded k dst ⟨portNo n, (s.portCfg n).cls.toNat, target, 0, s.ports.tag⟩ s t ∧
  if s.wire.control.length < 8 ∨ ∃ e ∈ s.wire.control, e.body = .beacon ∧ e.inTx = false then
    (t.port n).state = (if k = .offer then .offering else .waiting) ∧
      (t.port n).outReq = some ⟨k, s.ports.tag, dst, target, s.now, false⟩ ∧
      (t.port n).pending = (if k = .offer then some (.offered dst target none) else none) ∧
      (t.port n).ringOn = false ∧ (t.port n).tone = .silent
  else
    (t.port n).state = .cleared ∧ (t.port n).outReq = none ∧ (t.port n).pending = none ∧ (t.port n).tone = .busy ∧
      (t.port n).lastCause = some (.refused (if k = .offer then .noStation else .noHolder))

/-- The target port of an intercom call is settled: by a tone digit or a closed pulse count of 1 or 2, or, where no pulse
count is open, by the 3 s without a digit, which name every port (R91, R92, R95). -/
def TargetSettled (c : Instr) (n : PortNo) (target : Nat) (s : State) : Prop :=
  ((target = 1 ∨ target = 2) ∧ ∃ v : Fin 10, c = .toneDigitEvent n (.digit v) ∧ v.val = target) ∨
  ((target = 1 ∨ target = 2) ∧ c = .pulseCountClose n ∧ (s.port n).pulses = target ∧ (s.port n).breakStart = none ∧
    ∃ e, (s.port n).pulseEnd = some e ∧ 10000 ≤ elapsed s.now e) ∨
  (target = 0 ∧ c = .portDigitTimeout n ∧ (s.port n).pulses = 0 ∧
    ∃ x, (s.port n).digitAt = some x ∧ 120000 ≤ elapsed s.now x)

/-- A digit or flash is taken for the exchange: it joins the outpulse queue if that holds fewer than 32, and is sent at
once where the record is SEIZED and nothing is being sent (R123, R124). -/
def TakenForExchange (i : DialItem) (r : CallRecord) (s t : State) : Prop :=
  (t.call.record.map fun q => (q.queue, q.outpulse)) =
    some (if r.seized && decide (r.outpulse = .idle) then
        ([], match i with
          | .digit v => .breaking ((if v.val = 0 then 10 else v.val) - 1) 2400 s.now
          | .flash => .breaking 0 10000 s.now)
      else if r.queue.length < 32 then (r.queue ++ [i], r.outpulse) else (r.queue, r.outpulse))

/-- A pulse digit or a flash of a port on an outside call: it is handed over inside the station where the port's own
station is the holder and the port a party of its record, else it goes to the holder as a DIAL frame (R102, R123). -/
def DialPassed (n : PortNo) (h id : Nat) (i : DialItem) (s t : State) : Prop :=
  let stays := (t.port n).state = .connected ∧ (t.port n).callRef = some (.outside h id)
  if h = s.own then
    ∀ r, s.call.record = some r → r.id = id → r.has s.own (portNo n) = true →
      TakenForExchange i r s t ∧ t.wire.control = s.wire.control ∧ stays
  else FrameHanded h (.dial ⟨id, portNo n, .listed i⟩) s t ∧ stays

/-- A party at a port of the holder itself is handed its CLEAR without a frame (R102, R120, R122). -/
def OwnPartyCleared (p : Party) (id : Nat) (cause : ClearCause) (s t : State) : Prop :=
  ∀ n, p.station = s.own → p.port = portNo n → (s.port n).callRef = some (.outside s.own id) →
    (t.port n).state = .cleared ∧ (t.port n).callRef = none ∧ (t.port n).tone = .busy ∧
      (t.port n).lastCause = some (.cleared cause) ∧ (t.port n).playout = ⟨[], none, [], 0⟩

/-- Every party of a record that ends is told: those of other stations by CLEAR frames in the order of the list, those of
the own station inside it (R11, R122). -/
def PartiesTold (r : CallRecord) (cause : ClearCause) (s t : State) : Prop :=
  t.wire.control = (r.parties.filter fun p => decide (p.station ≠ s.own)).foldl
    (fun q p => controlJoined q (newEntry (some p.station) (.clear ⟨r.id, p.port, cause⟩) s.now)) s.wire.control ∧
  ∀ p ∈ r.parties, OwnPartyCleared p r.id cause s t

/-- The port's LEAVE with the reference `ref`, judged at the holder itself without a frame (R103, R117, R122): a party
of the line call record leaves it; the last to leave ends it, and at a degraded holder the line is then yielded (R38). -/
def LeftInside (n : PortNo) (ref : Nat) (s t : State) : Prop :=
  t.ports.tag = s.ports.tag ∧
    match s.call.record with
    | none => t.call.record = none ∧ t.wire.control = s.wire.control
    | some r =>
      let left := r.parties.filter fun p => !(decide (p.station = s.own) && decide (p.port = portNo n))
      if s.hold.state = .holding ∧ (ref = 0 ∨ ref = r.id) then
        if left = [] then
          t.call.record = none ∧ t.loopClosed = false ∧
            (s.hold.degraded = false → t.hold.state = .holding ∧ t.wire.control = s.wire.control) ∧
            (s.hold.degraded = true → s.wire.control.length < 8 → t.hold.state = .yielding)
        else t.call.record = some { r with parties := left } ∧ t.wire.control = s.wire.control
      else t.call.record = some r ∧ t.wire.control = s.wire.control

/-- The port's offer to the station's other port ends inside the station: its entry leaves the list, and a port that
rings for it is IDLE (R100, R103, R130). -/
def LocalOfferEnded (n : PortNo) (ref : Nat) (s t : State) : Prop :=
  NothingSent s t ∧ (∀ b ∈ t.call.bindings, b.ref ≠ ref) ∧
    ∀ b, s.call.bindings.find? (fun b => decide (b.ref = ref)) = some b → b.connected = false →
      ∀ m ∈ b.locals, m ≠ n → (t.port m).state = .idle ∧ (t.port m).pending = none ∧ (t.port m).ringOn = false

/-- What a port sends as it goes on-hook, and what its on-hook does inside the station (R103, R117, R122, R130). -/
def OnHookDone (n : PortNo) (s t : State) : Prop :=
  let p := s.port n
  let cls := (s.portCfg n).cls.toNat
  ((p.state = .dialing ∨ p.state = .cleared) → NothingSent s t) ∧
  (p.state = .parked → t.ports.tag = s.ports.tag ∧
    ∀ e ∈ t.wire.control, e ∈ s.wire.control ∨ ∃ r, e.body = .report r) ∧
  (∀ q, p.state = .waiting → p.outReq = some q →
    if q.held then NothingSent s t
    else if q.dst = s.own then LeftInside n 0 s t
    else RequestHanded .leave q.dst ⟨portNo n, cls, 0, 0, s.ports.tag⟩ s t ∧ t.ports.tag = nextTag s.ports.tag) ∧
  (∀ st target q, p.state = .offering → p.pending = some (.offered st target none) → p.outReq = some q →
    if q.held then NothingSent s t
    else RequestHanded .endCall st ⟨portNo n, cls, target, 0, q.tag⟩ s t ∧ t.ports.tag = s.ports.tag) ∧
  (∀ st target ref, p.state = .offering → p.pending = some (.offered st target (some ref)) →
    if st = s.own then LocalOfferEnded n ref s t
    else RequestHanded .endCall st ⟨portNo n, cls, target, ref, s.ports.tag⟩ s t ∧
      t.ports.tag = nextTag s.ports.tag) ∧
  (∀ h id, p.state = .connected → p.callRef = some (.outside h id) →
    if h = s.own then LeftInside n id s t
    else RequestHanded .leave h ⟨portNo n, cls, 0, id, s.ports.tag⟩ s t ∧ t.ports.tag = nextTag s.ports.tag) ∧
  (∀ st po ref l, p.state = .connected → p.callRef = some (.intercom st po ref l) →
    if st = s.own then
      NothingSent s t ∧
        ∀ m, portOf po = some m → m ≠ n → (s.port m).state = .connected →
          (s.port m).callRef = some (.intercom s.own (portNo n) ref l) →
          (t.port m).state = .cleared ∧ (t.port m).callRef = none ∧ (t.port m).tone = .busy ∧
            (t.port m).lastCause = none ∧
            ∀ b ∈ t.call.bindings, b.connected = true → n ∉ b.locals ∧ m ∉ b.locals
    else RequestHanded .endCall st ⟨portNo n, cls, po, ref, s.ports.tag⟩ s t ∧
      t.ports.tag = nextTag s.ports.tag)

/-! ## Formation of a track (03) -/

/-- Two candidates that stand with an impulse at `t` at one steady interval (R56). -/
def PairFor (t c1 c2 : Tick) : Prop :=
  20000 ≤ elapsed c2 c1 ∧ elapsed c2 c1 ≤ 80000 ∧ -40 ≤ elapsed t c2 - elapsed c2 c1 ∧
    elapsed t c2 - elapsed c2 c1 ≤ 40

/-- The pair that an impulse takes among the candidates, oldest first: none ends later, and of those that end with the
same candidate none begins later (R56). -/
def LatestPair (t : Tick) (cs : List Tick) (c1 c2 : Tick) : Prop :=
  ∃ l1 l2 l3, cs = l1 ++ c1 :: (l2 ++ c2 :: l3) ∧ PairFor t c1 c2 ∧ (∀ c ∈ l2, ¬ PairFor t c c2) ∧
    ∀ m d m', l3 = m ++ d :: m' → ∀ c ∈ l1 ++ c1 :: (l2 ++ c2 :: m), ¬ PairFor t c d

/-- The slot a formation takes: an EMPTY one, A first; else an own TENTATIVE one with a confidence below 3, of two the one
with the lower, A if both are equal (R57). -/
def FormsIn (n : SlotName) (q : Noise) : Prop :=
  let weak := fun (k : Track) => k.lender = none ∧ k.conf < 3
  match q.a, q.b with
  | none, _ => n = .a
  | some _, none => n = .b
  | some a, some b =>
    (n = .a ∧ weak a ∧ (weak b → a.conf ≤ b.conf)) ∨ (n = .b ∧ weak b ∧ (weak a → b.conf < a.conf))

/-! ## Bounds -/

/-- The transmit queues hold at most 4, 8 and 32 frames (section 1.3). -/
def QueueBounds (s : State) : Prop :=
  s.wire.voice.length ≤ 4 ∧ s.wire.control.length ≤ 8 ∧ s.wire.data.length ≤ 32

def trackOk : Option Track → Bool
  | some t =>
    decide (160000 ≤ t.period) && decide (t.period ≤ 640000) && decide (1 ≤ t.conf) && decide (t.conf ≤ 15) &&
      (t.lender.isNone || decide (t.conf = 4))
  | none => true

/-- A slot that is not EMPTY has its period and confidence in range, a BORROWED one confidence 4 (R50, R62); at most
six candidates are kept (R55). -/
def TracksOk (s : State) : Prop :=
  trackOk s.noise.a = true ∧ trackOk s.noise.b = true ∧ s.noise.candidates.length ≤ 6

/-- A line call record has 1 to 3 parties and exists only at a HOLDING station (R110, R118), never in start-up. -/
def RecordOk (s : State) : Prop :=
  (s.phase = .startUp → s.call.record = none) ∧
  ∀ r, s.call.record = some r → s.hold.state = .holding ∧ 1 ≤ r.parties.length ∧ r.parties.length ≤ 3

/-- The fault list holds at most 16 records and the report queue at most 24 (R144, R157). -/
def ListBounds (s : State) : Prop := s.fault.list.length ≤ 16 ∧ s.report.queue.length ≤ 24

/-- What a port holds goes with its state: a call reference and a silence timer with CONNECTED, a reason to ring with
RINGING, an offer made and its ring-back with OFFERING, an outstanding OFFER with OFFERING and a SEIZE or ANSWER with
WAITING; and it is on-hook just when it is IDLE or RINGING (R89, R93, R96 to R103). -/
def portOk (p : Port) : Bool :=
  (p.callRef.isNone || decide (p.state = .connected)) && (p.silence.isNone || decide (p.state = .connected)) &&
    (p.ringBack.isNone || decide (p.state = .offering)) &&
    decide (p.offHook = !(decide (p.state = .idle) || decide (p.state = .ringing))) &&
    (match p.pending with
    | none => true
    | some (.offered _ _ _) => decide (p.state = .offering)
    | some _ => decide (p.state = .ringing)) &&
    (match p.outReq with
    | none => true
    | some q =>
      if q.kind = .offer then decide (p.state = .offering)
      else decide (p.state = .waiting) && decide (q.kind = .seize ∨ q.kind = .answer))

/-- The local ports of a connected entry are CONNECTED; those of a ringing one ring for its offer (R127 to R130). -/
def bindingOk (s : State) (b : Binding) : Bool :=
  b.locals.all fun n =>
    if b.connected then decide ((s.port n).state = .connected)
    else decide ((s.port n).pending = some (.offerFrom b.station b.port b.ref))

/-- The ports hold what their states allow, and the bindings agree with them. -/
def PortsOk (s : State) : Prop :=
  portOk s.ports.one = true ∧ portOk s.ports.two = true ∧ s.call.bindings.all (bindingOk s) = true

/-- Roster ids rise strictly, lie in 1 to 8 and are never the station's own (R22, R23): so at most 7 entries. -/
def RosterOk (s : State) : Prop :=
  1 ≤ s.own ∧ s.own ≤ 8 ∧ (s.hold.roster.map (·.id)).Pairwise (· < ·) ∧
    ∀ p ∈ s.hold.roster, 1 ≤ p.id ∧ p.id ≤ 8 ∧ p.id ≠ s.own ∧ p.miss ≤ 3

end Sys2Proof
end

