-- ==== Sys2Proof/Certificates/Slice0/Obligations.lean ====
section
/-! DEFINITION. The statements for the provers. Those about a command's result assume a `Calm` station (every level
rule has settled; `CalmKept` says that every step keeps this) and name what else they assume; durations are in ticks. -/

open Sys2Proof Sys2Proof.Machine

/-! ## The machine -/

/-- A step takes the command at the front of the queue and runs it on the state with the queue's rest. -/
def Obligations.StepRunsFront : Prop :=
  ∀ (c : Instr) (s : State), step { s with pending := c :: s.pending } = exec c s

/-- With nothing waiting, a tick passes: station time rises by one and the due timed commands enter the queue, each
as often as it is due, in an order that nothing fixes (R163, R164; the model's choice, logs 1 and 8). A timer that has
run out at the new time puts its command into the queue; one that is short by a tick, or stopped, does not; in the
last-gasp window only the quiet windows and its own end do (R67, R163, R172; `timerRunOut` has each timer's length). The
interval taps enter it at the multiples of 400, 40 000 and 400 000 ticks, at a running station outside the last-gasp
window, and at no other time (R164, R172). The model's choices: the tick brings a 10 ms tap with free samples, and no end
of a test step, which comes from outside with its result (log 3); and no answer to a mailbox offer is late once the tick
has passed (log 60). A stopped chip keeps no time and does nothing at a tick (R163, R175). -/
def Obligations.EmptyQueueTicks : Prop :=
  (∀ s : State, s.pending = [] → s.phase ≠ .stopped →
     ∃ t, step s = .next t ∧ t.now = s.now + 1 ∧
       t.taps = ⟨decide (t.now.toNat % 400 = 0), decide (t.now.toNat % 40000 = 0),
         decide (t.now.toNat % 400000 = 0)⟩ ∧
       t.sup = { s.sup with late := 0 } ∧
       t.pending.Perm (dueCommands { s with now := t.now, taps := t.taps, sup := t.sup, outs := [] }) ∧
       ((∃ a b l, .tap10ms a b l ∈ t.pending) ↔ s.active = true ∧ t.now.toNat % 400 = 0) ∧
       (.tap1s ∈ t.pending ↔ s.active = true ∧ t.now.toNat % 40000 = 0) ∧
       (.tap10s ∈ t.pending ↔ s.active = true ∧ t.now.toNat % 400000 = 0) ∧
       (∀ c, intervalTap c = false → (c ∈ t.pending ↔ timerRunOut t c = true)) ∧
       Only [.now, .taps, .sup, .pending, .draws, .outs] s t) ∧
  (∀ s : State, s.pending = [] → s.phase = .stopped → step s = .next s.quiet)

/-- Right after reset: start-up in progress with every block at its value after power-up. -/
def Obligations.ResetValues : Prop :=
  State.reset.phase = .startUp ∧ State.reset.now = 0 ∧ State.reset.power.startNumber = 0 ∧
    State.reset.power.idle = none ∧ State.reset.power.rejoin = none ∧ State.reset.power.window = none ∧
    State.reset.wire = ⟨[], [], [], none, none, none, 0, 0, []⟩ ∧ State.reset.hold.roster = [] ∧
    State.reset.hold.lost = [] ∧ State.reset.hold.halt = none ∧ State.reset.hold.known = none ∧
    State.reset.noise = ⟨none, none, [], none, 0⟩ ∧ State.reset.sup.state = .off ∧ State.reset.sup.losses = [] ∧
    State.reset.sup.failures = 0 ∧ State.reset.sup.step = 0 ∧ State.reset.sup.uplink = [] ∧
    State.reset.ports = ⟨Port.start, Port.start, none, 1⟩ ∧ State.reset.call = ⟨none, 0, none, [], 0⟩ ∧
    State.reset.fault.conds = 0 ∧ State.reset.fault.runs = List.replicate 8 ⟨false, true, false⟩ ∧
    State.reset.fault.list = [] ∧ State.reset.fault.test = none ∧ State.reset.fault.due = none ∧
    State.reset.report = ⟨none, []⟩ ∧ State.reset.pending = []

/-- Every command answers a next state, and leaves the waiting commands as they are. What no command but a start, a
stop and the end of a service response changes. -/
def Obligations.EveryCommandAnswers : Prop :=
  (∀ (c : Instr) (s : State), Answers c s fun t => t.pending = s.pending) ∧
  (∀ (c : Instr) (s : State),
     (∀ p, c ≠ .powerUp p) → (∀ p, c ≠ .reset p) → (∀ r i, c ≠ .configurationReadEnd r i) →
     c ≠ .lastGaspWindowEnd → (∀ p, c ≠ .serviceResponseEnd p) →
     Answers c s fun t =>
       t.phase = s.phase ∧ t.now = s.now ∧ t.straps = s.straps ∧ t.interface = s.interface ∧ t.cfg = s.cfg ∧
         t.power.startNumber = s.power.startNumber)

/-- The commands of a running station's blocks do nothing in the last-gasp window and when stopped (R172, R175), nor
before completion: the timers, the taps, the impulses, the modem's answers, the tone digits, the link frames and the
received frames, which end the receive and leave all else at the wire controller as it was; a change of an input changes
its level and nothing more. That no block takes an event before completion
is the model's choice (log 14): R177 is silent on it, and R46 speaks of the hold timers only; and so is that an input's
level is followed in every phase (log 6). -/
def Obligations.InactiveTakesNothing : Prop :=
  ∀ (c : Instr) (s : State), s.active = false →
    (blockEvent c = true → exec c s = .next s.quiet) ∧
    (tellsInput c = true → Answers c s fun t => Only [.pins, .outs] s t ∧ t.outs = []) ∧
    (∀ h, frameHeader c = some h → Answers c s fun t =>
      t.pins = { s.pins with carrier := false } ∧ t.wire = { s.wire with rx := none } ∧ t.outs = [] ∧
        Only [.pins, .wire, .outs] s t)

/-! ## Frames and numbers -/

/-- The reference value of the check (R5). A burst of fewer than 8 bytes is a fragment (R6). A changed check fails
the frame (R5, R7). -/
def Obligations.FrameChecks : Prop :=
  (crc [0x31, 0x32, 0x33, 0x34, 0x35, 0x36, 0x37, 0x38, 0x39] = 0x29B1#16) ∧
  (∀ bytes : List Byte, bytes.length < 8 → receiveBytes bytes = .fragment) ∧
  (∀ (h : Header) (p : Payload) (x : BitVec 16), frameOk h p = true →
     x ≠ crc ((frameBytes h.src h.dst h.hold p).dropLast.dropLast) →
     receiveBytes ((frameBytes h.src h.dst h.hold p).dropLast.dropLast ++ le16 x) = .damaged)

/-- A frame of well-formed contents is received as it was sent: no field of any of the thirteen kinds is dropped (R1
to R5, R7, R153). A field may hold a code that its table does not list; that such a code is carried on as it stands is
the model's choice (log 25). -/
def Obligations.FrameRoundTrip : Prop :=
  ∀ (h : Header) (p : Payload), frameOk h p = true →
    receiveBytes (frameBytes h.src h.dst h.hold p) = .checked h p

/-- The airtime of a frame of `p` payload bytes: its microseconds divided by 25, rounded up, and the table's figures
(R19). -/
def Obligations.AirtimeRoundsUp : Prop :=
  (∀ p : Nat, 20 + 2 * (8 + p) ≤ 25 * airtime p ∧ 25 * airtime p < 20 + 2 * (8 + p) + 25) ∧
    airtime 2 = 2 ∧ airtime 9 = 3 ∧ airtime 27 = 4 ∧ airtime 6 = 2 ∧ airtime 165 = 15 ∧ airtime 1536 = 125

/-- A trigger's expression (R138). -/
def Obligations.ExpressionMeaning : Prop :=
  ∀ (t : TrigCfg) (v : BitVec 16),
    (t.mask = 0 → exprValue t v = false) ∧
    (t.mask ≠ 0 → t.all = true →
      (exprValue t v = true ↔ ∀ i, t.mask.getLsbD i = true → v.getLsbD i = !t.inverse)) ∧
    (t.mask ≠ 0 → t.all = false →
      (exprValue t v = true ↔ ∃ i, t.mask.getLsbD i = true ∧ v.getLsbD i = !t.inverse))

/-- The mix (R126), for any number of parties: the line hears every party, and each party hears the line and every party
but itself, summed exactly and clamped once to the range of a 16-bit signed sample. With one party, the line hears that
party and the party hears the line; with two, each hears the line and the other. -/
def Obligations.MixIsExact : Prop :=
  (∀ x : Int, (clampSample x).toInt = max (-32768) (min 32767 x)) ∧
  (∀ (line own : Speech) (before after : List Speech) (i : Nat), i < 80 → line.length = 80 →
     (∀ x ∈ before ++ own :: after, x.length = 80) →
     let at' := fun (x : Speech) => (x.getD i 0).toInt
     (mixLine (before ++ own :: after))[i]? =
         some (clampSample ((before.map at').sum + at' own + (after.map at').sum)) ∧
       (mixParty line (before ++ own :: after) own)[i]? =
         some (clampSample (at' line + (before.map at').sum + (after.map at').sum))) ∧
  (∀ (line a b : Speech) (i : Nat), i < 80 → line.length = 80 → a.length = 80 → b.length = 80 →
     let at' := fun (x : Speech) => (x.getD i 0).toInt
     (mixLine [a])[i]? = some (a.getD i 0) ∧ (mixParty line [a] a)[i]? = some (line.getD i 0) ∧
       (mixLine [a, b])[i]? = some (clampSample (at' a + at' b)) ∧
       (mixParty line [a, b] a)[i]? = some (clampSample (at' line + at' b)) ∧
       (mixParty line [a, b] b)[i]? = some (clampSample (at' line + at' a))) ∧
  (∀ (line : Speech) (parties : List Speech) (own : Speech), (mixLine parties).length = 80 ∧
     (mixParty line parties own).length = 80)

/-! ## Starts and power (09, 10) -/

/-- POWER_UP begins a start with every block at its power-up values (R163, R177, R180). RESET begins a restart: the
fault list is kept with its SENT records NEW, their triggers disarmed, the start number rises, an offer in the mailbox
is withdrawn, and a frame in transmission goes on, flushed; after a stop it is a power-up, and in the last-gasp window it
is ignored (R13, R136, R146, R161, R172, R175 to R177, R180). The model's choices: the values `Starting` gives the power
state, the hold state and the eligibility before completion are placeholders (log 7), POWER_UP acts in any phase (log 15),
a power-up finds no frame in transmission, and one that outlives a restart keeps a closing front end and tells no block
of its end (log 54), and a trigger with a kept NEW record is disarmed though it is then disabled (log 70). -/
def Obligations.StartsBegin : Prop :=
  (∀ (s : State) (p : Pins), Answers (.powerUp p) s fun t =>
     t.phase = .startUp ∧ t.now = 0 ∧ t.straps.id = (if p.straps.rank = 0 then 8 else p.straps.rank.toNat) ∧
       t.straps.modem = p.straps.modem ∧ t.pins = p ∧ t.power.startNumber = 0 ∧ t.fault.list = [] ∧
       t.fault.runs = List.replicate 8 ⟨false, true, false⟩ ∧ t.call.lastId = 0 ∧ t.call.lastRef = 0 ∧
       t.sup.losses = [] ∧ t.sup.failures = 0 ∧ t.sup.step = 0 ∧ t.loopClosed = false ∧ t.wire.tx = none ∧
       Starting t) ∧
  (∀ (s : State) (p : StrapPins),
     (s.phase ≠ .stopped → s.power.window = none → Answers (.reset p) s fun t =>
       t.now = 0 ∧ t.straps.id = (if p.rank = 0 then 8 else p.rank.toNat) ∧ t.straps.modem = p.modem ∧
         t.power.startNumber = min 255 (s.power.startNumber + 1) ∧
         t.fault.list = (s.fault.list.map fun r => if r.state = .sent then { r with state := .new } else r) ∧
         t.fault.runs = ((List.range 8).map fun n =>
           ⟨false, !s.fault.list.any fun r => decide (r.trigger = n) && decide (r.state = .new ∨ r.state = .sent),
             false⟩) ∧
         t.outs = (if s.sup.mailbox.isSome then [.mailWithdraw] else []) ∧
         t.call.lastId = 0 ∧ t.sup.failures = 0 ∧ t.sup.step = 0 ∧ t.loopClosed = false ∧ Starting t ∧
         (s.wire.tx = none → t.wire.tx = none) ∧
         (∀ x e, s.wire.tx = some x → (s.wire.queue x.cls).find? (·.inTx) = some e →
           t.wire.tx = some { x with start := none } ∧ t.wire.queue x.cls = [{ e with flushed := true }])) ∧
     (s.phase = .stopped → Answers (.reset p) s fun t =>
       t.now = 0 ∧ t.power.startNumber = 0 ∧ t.fault.list = [] ∧ t.wire.tx = none ∧ Starting t) ∧
     (s.phase ≠ .stopped → s.power.window.isSome = true → exec (.reset p) s = .next s.quiet))

/-- What the read gives: a good record's fields, byte for byte and clamped, the defaults and CONFIG_BAD where the format
byte or the sum is wrong, and the defaults without a halt code where the memory is absent (R137, R178, R179). That port 2
has the default settings where the port count is 1 is the model's choice (log 66). The read ends with a record in force
and no halt code: start-up completes in LISTEN (R29, R32, R89, R165, R177, R178), and the front end is live: a round opens,
or a frame whose start was not heard is being received (R6, R14); a frame that outlived the restart is still in
transmission (R13; `Starting` holds the choices of logs 7 and 54). -/
def Obligations.ConfigurationReadListens : Prop :=
  (∀ r : ConfigRead, configOk r = true → ConfigGives r (readConfig r).1 (readConfig r).2) ∧
  (∀ (s : State) (r : ConfigRead) (i : Bool), Starting s → (readConfig r).2 = false →
     (s.straps.modem = true → i = true) → s.pins.battEmpty = false →
     (s.pins.mains = true ∨ s.pins.battLow = false) →
     Answers (.configurationReadEnd r i) s fun t =>
       t.phase = .running ∧ t.cfg = (readConfig r).1 ∧ t.interface = i ∧
         t.power.state = (if s.pins.mains then .full else .battery) ∧ WireOpens s t ∧
         t.hold.state = .listen ∧ t.hold.listen = some s.now ∧ t.hold.noHolder = some s.now ∧
         t.hold.eligible = (s.straps.modem && s.pins.mains) ∧ t.sup.stored = (readConfig r).1.defaultProfile ∧
         t.cond .mainsOff = !s.pins.mains ∧ t.cond .batteryLow = s.pins.battLow ∧
         t.sup.readyTimer = (if s.pins.mains && s.straps.modem && !s.pins.ready then some s.now else none) ∧
         t.ports.one.state = (if s.pins.hook1 then .dialing else .idle) ∧ t.ports.one.offHook = s.pins.hook1 ∧
         t.wire.tx = s.wire.tx ∧ (s.wire.tx.isSome = true → t.wire.rx = none ∧ t.wire.round = none))

/-- A bad record, or a modem without a line interface, halts the station (R43, R44, R109, R147, R177, R178). A first
power state of STOP opens the last-gasp window (R165, R172 to R174). What a read gives, `ConfigGives` says (R178, R179).
The front end is live in both: a round opens, or a frame whose start was not heard is being received, which a station
that halts abandons (R6, R14, R18). `Starting` holds the choices of logs 7 and 54. -/
def Obligations.ConfigurationReadHaltsOrStops : Prop :=
  (∀ (s : State) (r : ConfigRead) (i : Bool), Starting s →
     ((readConfig r).2 = true ∨ (s.straps.modem = true ∧ i = false)) → s.pins.battEmpty = false →
     (s.pins.mains = true ∨ s.pins.battLow = false) →
     Answers (.configurationReadEnd r i) s fun t =>
       t.phase = .running ∧ t.cfg = (readConfig r).1 ∧ WireOpens s t ∧ t.hold.state = .halted ∧
         t.hold.halt = some (if (readConfig r).2 then .configBad else .noLineInterface) ∧ t.hold.eligible = false ∧
         t.wire.control = s.wire.control ++ [newEntry (some 0) .halt s.now] ∧ t.fault.lamp = .double ∧
         t.ports.one.state = (if s.pins.hook1 then .cleared else .idle) ∧
         t.ports.one.tone = (if s.pins.hook1 then .fault else .silent)) ∧
  (∀ (s : State) (r : ConfigRead) (i : Bool), Starting s → s.pins.battEmpty = true →
     Answers (.configurationReadEnd r i) s fun t =>
       t.phase = .running ∧ t.cfg = (readConfig r).1 ∧ WireOpens s t ∧ t.power.state = .stop ∧
         t.power.window = some s.now ∧ t.cond .mainsOff = true ∧
         t.power.gasp = (if (readConfig r).2 || (s.straps.modem && !i) then .notSent else .offered))

/-- Mains lost in FULL (R13, R35, R38, R69, R70, R75, R135, R166); in another power state only the level changes.
Mains returns: FULL, with the rejoin wait, from BATTERY and from WATCH (R69, R70, R71, R135, R167, R171). -/
def Obligations.MainsChanges : Prop :=
  (∀ s : State, Calm s →
     (s.power.state = .full → s.pins.battLow = false → Answers .mainsPresentFall s fun t =>
       t.pins.mains = false ∧ t.power.state = .battery ∧ t.power.rejoin = none ∧ t.sup.state = .off ∧
         t.sup.readyTimer = none ∧ t.sup.upTransfer = none ∧ t.sup.uplink = [] ∧
         t.wire.data.all (·.inTx) = true ∧ t.cond .modemAbsent = false ∧ t.cond .mainsOff = true ∧
         t.hold.eligible = false ∧ t.holdBack = true ∧
         (s.hold.eligible = true → s.hold.state = .claiming → t.hold.state = .seeking ∧ t.hold.deferral = none) ∧
         (s.hold.eligible = true → s.hold.state = .seeking → t.hold.deferral = none) ∧
         (s.hold.eligible = true → s.holding = true → s.call.record.isSome = true →
           t.holding = true ∧ t.hold.degraded = true) ∧
         (s.hold.eligible = true → s.holding = true → s.call.record = none → s.wire.control.length < 8 →
           t.hold.state = .yielding ∧ newEntry (some 0) .yield s.now ∈ t.wire.control)) ∧
     (s.power.state ≠ .full → Answers .mainsPresentFall s fun t =>
       t.pins = { s.pins with mains := false } ∧ Only [.pins, .outs] s t)) ∧
  (∀ s : State, Calm s →
     (s.power.state = .battery ∨ s.power.state = .watch → Answers .mainsPresentRise s fun t =>
       t.pins.mains = true ∧ t.power.state = .full ∧ t.power.rejoin = some s.now ∧ t.power.idle = none ∧
         t.cond .mainsOff = false ∧ t.hold.eligible = false ∧
         t.sup.readyTimer = (if s.straps.modem && !s.pins.ready then some s.now else none) ∧
         t.power.frontEnd = (if s.power.state = .watch then .settling s.now else s.power.frontEnd) ∧
         (s.holding = true → t.holding = true ∧ t.sup.state = (if s.pins.sync then .synced else .training))) ∧
     (s.power.state = .full → Answers .mainsPresentRise s fun t =>
       t.pins = { s.pins with mains := true } ∧ Only [.pins, .outs] s t))

/-- Battery low changes BATTERY_LOW, and sends an idle station on battery into WATCH at once (R135, R168 to R170). The
idle timer runs out: WATCH (R45, R66, R169). A start on battery, and a fall of the mains, enter WATCH at once when battery
low is asserted and the idle timer's conditions hold (R165, R166, R168). The model's choices: no WATCH follows while the
idle timer is off (log 20), and a front end whose frame in transmission has still to complete stands in a state of its
own (log 37). -/
def Obligations.SleepEntered : Prop :=
  (∀ (s : State) (level : Bool), Calm s → Answers (.batteryLowChange (.low level)) s fun t =>
     t.pins.battLow = level ∧ t.cond .batteryLow = level ∧
       (level = true → s.power.idle.isSome = true → Asleep t) ∧
       (level = false ∨ s.power.idle = none → t.power = { s.power with idle := t.power.idle } ∧
         t.hold = s.hold ∧ t.ports.one.state = s.ports.one.state ∧ t.call = s.call)) ∧
  (∀ (s : State) (t0 : Tick), Calm s → s.power.idle = some t0 → 4800000 ≤ elapsed s.now t0 →
     Answers .idleTimerExpiry s fun t =>
       Asleep t ∧ t.hold.state = (if s.hold.state = .halted then .halted else .listen) ∧
         t.hold.tiebreak = s.hold.tiebreak ∧ t.report.outstanding = s.report.outstanding ∧ t.call = s.call) ∧
  (∀ (s : State) (r : ConfigRead) (i : Bool), Starting s → s.pins.battEmpty = false → s.pins.mains = false →
     s.pins.battLow = true → s.pins.hook1 = false → s.pins.hook2 = false →
     Answers (.configurationReadEnd r i) s fun t =>
       t.phase = .running ∧ Asleep t ∧
         t.hold.state = (if (readConfig r).2 || (s.straps.modem && !i) then .halted else .listen) ∧
         t.cond .mainsOff = true ∧ t.cond .batteryLow = true) ∧
  (∀ s : State, Calm s → s.power.state = .full → s.pins.battLow = true → s.power.frontEnd = .live →
     portIdle s.ports.one = true → portIdle s.ports.two = true →
     (s.hold.state = .listen ∨ s.hold.state = .passive ∨ s.hold.state = .seeking ∨ s.hold.state = .halted) →
     Answers .mainsPresentFall s fun t =>
       t.pins.mains = false ∧ Asleep t ∧ t.hold.state = (if s.halted then .halted else .listen) ∧
         t.power.rejoin = none ∧ t.sup.state = .off ∧ t.cond .mainsOff = true)

/-- Battery empty (R11, R69, R75, R132, R142, R152, R172 to R174); ring drive and codecs are silent in the window
(R172). The last-gasp window ends: the chip stops, every output released (R175). The model's choices: eligibility is not
computed again at battery empty (log 19), a stopped chip's fields stand at their start values (log 43) and its PROFILE
lines read 0 (log 55), and a fall of the battery empty input is told by BATTERY_LOW_CHANGE and changes the level alone
(log 16). -/
def Obligations.LastGaspWindow : Prop :=
  (∀ s : State, Calm s → Answers .batteryEmpty s fun t =>
     t.pins.battEmpty = true ∧
     t.power.state = .stop ∧ t.power.window = some s.now ∧ t.power.idle = none ∧ t.power.rejoin = none ∧
       (∀ n, t.ringDrive n = false ∧ t.tonePlayed n = .silent) ∧
       (s.power.state = .full → t.sup.state = .off ∧ t.sup.readyTimer = none) ∧ t.cond .mainsOff = true ∧
       t.call.record = none ∧ t.loopClosed = false ∧ t.fault.test = none ∧ t.hold = s.hold ∧ t.noise = s.noise ∧
       t.fault.gaspRecord = some ⟨s.own, 8, 1, t.fault.conds, s.power.startNumber, s.now, 1, 1, .sent⟩ ∧
       (s.halted = true ∨ s.power.frontEnd ≠ .live → t.power.gasp = .notSent ∧ t.wire.control = s.wire.control) ∧
       (s.halted = false → s.power.frontEnd = .live → t.power.gasp = .offered ∧
         ((t.wire.control.filter fun e => !e.inTx).head?.map fun e => (e.dst, e.body)) =
           some (some 0, .lastgasp ⟨s.own, 8, 1, t.fault.conds, s.power.startNumber, s.now, 1, 1, .sent⟩
             (s.holding || decide (s.hold.state = .yielding))))) ∧
  (∀ (s : State) (w : Tick), s.phase = .running → s.power.window = some w → 800 ≤ elapsed s.now w →
     Answers .lastGaspWindowEnd s fun t =>
       t.phase = .stopped ∧ t.fault.list = [] ∧ t.hold.roster = [] ∧ t.noise = ⟨none, none, [], none, 0⟩ ∧
         t.wire.voice = [] ∧ t.wire.control = [] ∧ t.wire.data = [] ∧ t.power.startNumber = 0 ∧
         t.pwrEn = false ∧ t.holdLine = false ∧ t.blank = false ∧ t.loopClosed = false ∧ t.lampOn = false ∧
         t.holdBack = false ∧ t.profileLines = 0 ∧ (∀ n, t.ringDrive n = false ∧ t.tonePlayed n = .silent)) ∧
  (∀ s : State, Answers (.batteryLowChange .emptyFell) s fun t =>
     t.pins = { s.pins with battEmpty := false } ∧ Only [.pins, .outs] s t)

/-- The rejoin wait ends and eligibility is recomputed (R30, R34, R38, R167). The settle timer runs out: the front
end is live and LISTEN begins, or the HALT frames resume (R6, R29, R32, R44, R171). On an idle wire a round opens, which
frames that sit rounds out count; a carrier that stands is a receive whose start was not heard; while a frame of its own
is in transmission the station does neither (R6, R14, R16, R171). -/
def Obligations.PowerTimers : Prop :=
  (∀ (s : State) (t0 : Tick), Calm s → Awake s → s.power.rejoin = some t0 → 1200000 ≤ elapsed s.now t0 →
     Answers .rejoinTimerExpiry s fun t =>
       t.power.rejoin = none ∧
         t.hold.eligible = (s.straps.modem && s.full && !s.cond .modemAbsent && !s.halted) ∧
         (s.hold.state = .seeking → t.hold.eligible = true → t.hold.deferral = some s.now) ∧
         (s.holding = true → t.holding = true ∧ t.hold.degraded = (s.hold.degraded && !t.hold.eligible))) ∧
  (∀ (s : State) (t0 : Tick), Calm s → Awake s → s.hold.known = none → s.power.frontEnd = .settling t0 →
     2000 ≤ elapsed s.now t0 →
     Answers .settleTimerExpiry s fun t =>
       WireOpens s t ∧ t.hold.noHolder = some s.now ∧ t.hold.state = s.hold.state ∧
         (s.pins.carrier = false → s.wire.tx = none → s.wire.rx = none →
           s.halted = false ∨ s.wire.control.length < 8 → t.wire = { s.wire with
             round := some ⟨0⟩
             voice := s.wire.voice.map fun e => { e with sitOut := e.sitOut - 1 }
             control := (s.wire.control.map fun e => { e with sitOut := e.sitOut - 1 }) ++
               if s.halted then [newEntry (some 0) .halt s.now] else [] }) ∧
         (s.wire.tx.isSome = true → t.wire = { s.wire with control := t.wire.control }) ∧
         (s.halted = false → t.hold.listen = some s.now) ∧
         (s.halted = true → s.wire.control.length < 8 → newEntry (some 0) .halt s.now ∈ t.wire.control))

/-! ## Interval taps (09) -/

/-- The 10 ms tap (R106 to R108, R125, R126, R164). A port's stream goes on, whatever its call. A port on another
station's outside call, or on an intercom call with another station, sends the next frame of its stream and plays its
buffer. Two ports on one intercom call hear each other. One to three remote parties hear the line and one another, and the
line hears them; that their frames are queued in the order of the party list is the model's choice (log 62). A party at a
port of the holder itself is heard and hears inside the station; that it is heard and
hears within one tap, in its port's own buffer, is the model's choice (logs 24 and 59). A tap that does not fall on the
present station time, or has been handed out, has no effect (R164, log 3). -/
def Obligations.Tap10msCarriesSpeech : Prop :=
  (∀ (s : State) (a b l : Speech), Calm s → s.taps.ten = false →
     Answers (.tap10ms a b l) s fun t => Only [.outs] s t ∧ t.outs = []) ∧
  (∀ (s : State) (a b l : Speech), Calm s → s.taps.ten = true →
     Answers (.tap10ms a b l) s fun t =>
       let codec := fun (n : PortNo) => if n = .one then a else b
       let quietPort := fun (n : PortNo) => (s.port n).callRef = none
       t.taps = { s.taps with ten := false } ∧
       (t.call.record.map fun r => r.parties.map fun p => (p.station, p.port, p.seq)) =
         (s.call.record.map fun r => r.parties.map fun p => (p.station, p.port, p.seq + 1)) ∧
       (∀ n, s.fitted n = true → (s.port n).callRef.isSome = true → (t.port n).seq = (s.port n).seq + 1) ∧
       (∀ n h id, s.fitted n = true → (s.port n).callRef = some (.outside h id) → h ≠ s.own →
         quietPort (otherPort n) → s.call.record = none → s.wire.voice = [] → s.halted = false →
         t.wire.voice = [newEntry (some h) (.voice ⟨.toHolder, id, portNo n, 0, (s.port n).seq, codec n⟩) s.now] ∧
           (t.port n).playout = (s.port n).playout.draw.2 ∧
           .portCodec n (s.port n).playout.draw.1 ∈ t.outs) ∧
       (∀ n st po ref x, s.fitted n = true → (s.port n).callRef = some (.intercom st po ref x) → st ≠ s.own →
         quietPort (otherPort n) → s.call.record = none → s.wire.voice = [] → s.halted = false →
         t.wire.voice = [newEntry (some st) (.voice ⟨.intercom, ref, portNo n, po, (s.port n).seq, codec n⟩) s.now] ∧
           (t.port n).playout = (s.port n).playout.draw.2 ∧
           .portCodec n (s.port n).playout.draw.1 ∈ t.outs) ∧
       (∀ ref x y, s.fitted .two = true → s.ports.one.callRef = some (.intercom s.own 2 ref x) →
         s.ports.two.callRef = some (.intercom s.own 1 ref y) →
         .portCodec .two a ∈ t.outs ∧ .portCodec .one b ∈ t.outs ∧
           (s.call.record = none → t.wire.voice = s.wire.voice)) ∧
       (∀ r, s.call.record = some r → r.parties.length ≤ 3 → (∀ p ∈ r.parties, p.station ≠ s.own) →
         quietPort .one → quietPort .two → s.wire.voice = [] → s.halted = false →
         let xs := r.parties.map fun p => p.playout.draw.1
         .lineCodec (mixLine xs) ∈ t.outs ∧
           t.wire.voice = r.parties.map fun p => newEntry (some p.station)
             (.voice ⟨.toParty, r.id, 0, p.port, p.seq, mixParty l xs p.playout.draw.1⟩) s.now) ∧
       (∀ n r p, s.fitted n = true → s.call.record = some r → r.parties = [p] → p.station = s.own →
         p.port = portNo n → (s.port n).state = .connected → (s.port n).callRef = some (.outside s.own r.id) →
         quietPort (otherPort n) →
         let heard := (p.playout.insert (s.port n).seq (codec n)).draw.1
         let played := ((s.port n).playout.insert p.seq (mixParty l [heard] heard)).draw
         .lineCodec (mixLine [heard]) ∈ t.outs ∧ .portCodec n played.1 ∈ t.outs ∧
           (t.port n).playout = played.2 ∧ t.wire.voice = s.wire.voice))

/-- The 1 s tap (R26, R31, R78, R164): entries not HALTED age and expire, a BEACON is queued unless one waits, the
hold-time counter rises. The 10 s tap (R9, R26, R44, R55, R64, R77, R84, R149, R150, R164): the address map ages too,
a line test that is due starts, and a due time with a rest is set the rest later, and no test starts. A tap that does
not fall on the present station time, or has been handed out, has no effect (R164, log 3). The order of the blocks at
a 10 s tap is the model's choice (log 45), and so is the time of the entry to SYNCED, forgotten at 15 min (log 18). -/
def Obligations.SlowTaps : Prop :=
  (∀ s : State, Calm s →
     (s.taps.one = false → Answers .tap1s s fun t => Only [.outs] s t ∧ t.outs = []) ∧
     (s.taps.slow = false → Answers .tap10s s fun t => Only [.outs] s t ∧ t.outs = [])) ∧
  (∀ s : State, Calm s → Awake s → s.taps.one = true → Answers .tap1s s fun t =>
     t.taps = { s.taps with one := false } ∧
     t.hold.roster = ((s.hold.roster.filter fun p => decide (p.hold = .listed .halted) || decide (p.miss < 3)).map
       fun p => if p.hold = .listed .halted then p else { p with miss := p.miss + 1 }) ∧
     (∀ p ∈ s.hold.roster, p.hold ≠ .listed .halted → 3 ≤ p.miss → p.id ∈ t.hold.lost) ∧
     (s.halted = false → s.power.frontEnd = .live → s.wire.control = [] →
       newEntry (some 0) .beacon s.now ∈ t.wire.control) ∧
     (s.halted = false → (∀ p ∈ s.hold.roster, p.hold = .listed .halted ∨ p.miss < 3) →
       t.wire.control = beaconOffered s) ∧
     (s.holding = true → s.sup.state = .synced → s.sup.holdTime + 1 < 4294967296 → s.sup.holdTime + 1 ≠ 86400 →
       t.sup.holdTime = s.sup.holdTime + 1 ∧ (s.sup.holdTime + 1 = 3600 → t.cond .syncUnstable = false)) ∧
     (s.holding = true → s.sup.state = .synced → s.sup.holdTime + 1 = 86400 →
       t.sup.holdTime = 0 ∧ t.sup.stored = s.sup.stored - 1)) ∧
  (∀ s : State, Calm s → Awake s → s.taps.slow = true → Answers .tap10s s fun t =>
     t.taps = { s.taps with slow := false } ∧ t.wire.errors = 0 ∧ t.cond .wireErrors = decide (16 ≤ s.wire.errors) ∧
       t.noise.unmatched = 0 ∧
       t.cond .noiseHeavy = decide (20 ≤ s.noise.unmatched) ∧
       t.noise.candidates = (s.noise.candidates.filter fun c => decide (elapsed s.now c ≤ 160040)) ∧
       t.sup.losses = (s.sup.losses.filter fun x => decide (elapsed s.now x ≤ 36000000)) ∧
       t.sup.map = (s.sup.map.filter fun e => decide (elapsed s.now e.seen ≤ 12000000)) ∧
       t.sup.syncedAt = (s.sup.syncedAt.filter fun x => decide (elapsed s.now x ≤ 36000000)) ∧
       t.hold.roster = ((s.hold.roster.filter fun p => decide (p.hold ≠ .listed .halted) || decide (p.miss < 3)).map
         fun p => if p.hold = .listed .halted then { p with miss := p.miss + 1 } else p) ∧
       (s.halted = true → s.power.frontEnd = .live →
         t.wire.control = controlJoined s.wire.control (newEntry (some 0) .halt s.now)) ∧
       (∀ d, s.holding = true → s.fault.due = some d → 0 ≤ elapsed s.now d → s.fault.rest = 0 →
         s.fault.test = none → s.call.record = none → s.fault.lastBurst = none →
         t.fault.test = some ⟨1, [], s.now⟩) ∧
       (∀ d, s.fault.due = some d → 0 ≤ elapsed s.now d → 0 < s.fault.rest →
         t.fault.due = some (d + ticks s.fault.rest) ∧ t.fault.rest = 0 ∧ t.fault.test = s.fault.test))

/-! ## Receiving (01, 02) -/

/-- Carrier, fragments and damaged frames (R6, R7, R14, R58): a carrier ends the round and begins a receive, and the
wire is no longer idle in the quiet windows that are open. A contention point opens a round, and frames sitting rounds out
count it (R14, R16); a station that transmits or is not live opens none. In the last-gasp window carrier and contention
points act as before it, and no frame is taken or counted (R172). The model's choices: a contention point says that no
carrier is left and ends a receive (log 11), FRAGMENT is not counted whatever its bytes (log 26), and the level of carrier
is followed in every phase (log 6). -/
def Obligations.WireEvents : Prop :=
  (∀ s : State, WireGoesOn s →
     (s.power.frontEnd = .live → s.wire.tx = none → Answers .carrierRise s fun t =>
       t.pins = { s.pins with carrier := true } ∧
         t.wire = { s.wire with round := none, rx := some ⟨s.now, true⟩, dropped := [] } ∧
         t.noise = { s.noise with
           a := s.noise.a.map fun k => { k with winIdle := false }
           b := s.noise.b.map fun k => { k with winIdle := false } } ∧ Only [.pins, .wire, .noise, .outs] s t) ∧
     (s.power.frontEnd ≠ .live ∨ s.wire.tx.isSome = true → Answers .carrierRise s fun t =>
       t.pins = { s.pins with carrier := true } ∧ t.wire = { s.wire with dropped := [] } ∧
         Only [.pins, .wire, .outs] s t)) ∧
  (∀ s : State, Calm s →
     (∀ bytes, Answers (.fragment bytes) s fun t =>
       t.pins.carrier = false ∧ t.wire = { s.wire with rx := none } ∧ Only [.pins, .wire, .outs] s t) ∧
     (∀ bytes start, Hearing s start → receiveBytes bytes = .damaged → Answers (.damagedFrame bytes) s fun t =>
       t.wire = { s.wire with rx := none, errors := min 65535 (s.wire.errors + 1) } ∧
         Only [.pins, .wire, .outs] s t)) ∧
  (∀ s : State, WireGoesOn s → Answers .contentionPoint s fun t =>
     Only [.pins, .wire, .outs] s t ∧ t.pins = { s.pins with carrier := false } ∧
       (s.power.frontEnd = .live → s.wire.tx = none → t.wire = { s.wire with
         rx := none
         round := some ⟨0⟩
         voice := s.wire.voice.map fun e => { e with sitOut := e.sitOut - 1 }
         control := s.wire.control.map fun e => { e with sitOut := e.sitOut - 1 }
         dropped := [] }) ∧
       (s.power.frontEnd ≠ .live ∨ s.wire.tx.isSome = true → t.wire = { s.wire with rx := none, dropped := [] })) ∧
  (∀ (s : State) (bytes : List Byte) (c : Instr), s.active = false → c = .fragment bytes ∨ c = .damagedFrame bytes →
     Answers c s fun t => t.pins = { s.pins with carrier := false } ∧ t.wire = { s.wire with rx := none } ∧
       t.outs = [] ∧ Only [.pins, .wire, .outs] s t) ∧
  (∀ s : State, s.phase ≠ .running →
     (Answers .carrierRise s fun t =>
       t.pins = { s.pins with carrier := true } ∧ t.outs = [] ∧ Only [.pins, .outs] s t) ∧
     (Answers .contentionPoint s fun t =>
       t.pins = { s.pins with carrier := false } ∧ t.outs = [] ∧ Only [.pins, .outs] s t))

/-- Every heard frame of another station, of all eighteen kinds: its sender's entry, and the lost set (R8, R23, R25,
R27). A frame for another station updates the roster, restarts the holder silence timer of a port whose outside call names
its sender, and changes nothing else at ports, calls, noise tracks or reports (R8, R102). A checked REQUEST of a kind that
R3 does not list is heard in the same way; that DAMAGED_FRAME tells it is the model's choice (log 25). A LASTGASP
addressed to another station alone that announces HOLDING is entered as YIELDING, which is the model's choice (log 71). -/
def Obligations.HeardFrameUpdatesRoster : Prop :=
  (∀ (s : State) (c : Instr) (h : Header) (start : Tick), Calm s → Awake s → Hearing s start →
     frameHeader c = some h → h.src ≠ s.own →
     Answers c s fun t =>
       (t.peer h.src).map (fun p => (p.hold, p.miss, p.lastHeard)) = some (heardHold c h.hold, 0, start) ∧
         h.src ∉ t.hold.lost ∧ t.wire.rx = none ∧ t.pins.carrier = false ∧ t.hold.known = t.computeHolder ∧
         t.cond .peerLost = !t.hold.lost.isEmpty) ∧
  (∀ (s : State) (c : Instr) (h : Header) (start : Tick), Calm s → Hearing s start → Familiar s h →
     frameHeader c = some h → heardHold c h.hold = h.hold → h.src ≠ s.own → h.dst ≠ 0 → h.dst ≠ s.own →
     Answers c s fun t =>
       Only [.pins, .wire, .hold, .ports, .outs] s t ∧ t.wire = { s.wire with rx := none } ∧
         t.hold = { s.hold with roster := t.hold.roster } ∧
         (let fed := fun (p : Port) =>
            match p.callRef, p.silence with
            | some (.outside k _), some x => { p with silence := some (if k = h.src then s.now else x) }
            | _, _ => p
          t.ports = { s.ports with one := fed s.ports.one, two := fed s.ports.two }))

/-- A frame with the station's own id (R8, R42, R43); a checked REQUEST of a kind that R3 does not list is one too, and
that DAMAGED_FRAME tells it is the model's choice (log 25). -/
def Obligations.OwnIdFrameIsRankClash : Prop :=
  ∀ (s : State) (c : Instr) (h : Header) (start : Tick), Calm s → Hearing s start → frameHeader c = some h →
    h.src = s.own →
    Answers c s fun t =>
      t.cond .rankClash = true ∧
        (frameTie c = none ∨ s.halted = true → t.hold.halt = s.hold.halt ∧ t.hold.tiebreak = s.hold.tiebreak) ∧
        (∀ x, frameTie c = some x → s.halted = false →
          (s.hold.tiebreak.toNat < x.toNat → t.hold.state = .halted ∧ t.hold.halt = some .rankClash) ∧
          (x.toNat < s.hold.tiebreak.toNat → t.hold.halt = s.hold.halt ∧ t.hold.tiebreak = s.hold.tiebreak) ∧
          (s.hold.tiebreak = x → t.hold.halt = s.hold.halt ∧ t.hold.tiebreak = Config.draw16 s.draws ∧
            t.draws = s.draws + 1))

/-- What BEACON, HALT, CLAIM and LASTGASP write into the sender's entry (R24, R25). -/
def Obligations.ContentsWrittenToRoster : Prop :=
  ∀ (s : State) (h : Header) (start : Tick), Calm s → Awake s → Hearing s start → ForUs s h →
    (∀ m, Answers (.beacon h m) s fun t =>
      (t.peer h.src).map (fun p => (p.tiebreak, p.part, p.block)) =
        some (some m.fixed.tiebreak,
          some ⟨m.fixed.power, m.fixed.modem, m.fixed.eligible, m.fixed.cls, m.fixed.holdTime⟩,
          if h.hold = .listed .holding then m.holder else none)) ∧
    (∀ m, Answers (.halt h m) s fun t =>
      (t.peer h.src).map (fun p => (p.tiebreak, p.part, p.halt)) =
        some (some m.fixed.tiebreak,
          some ⟨m.fixed.power, m.fixed.modem, m.fixed.eligible, m.fixed.cls, m.fixed.holdTime⟩,
          if h.hold = .listed .halted then some m.code else none)) ∧
    (∀ x, Answers (.claim h x) s fun t => (t.peer h.src).map (·.tiebreak) = some (some x)) ∧
    (∀ m, Answers (.lastgasp h m) s fun t =>
      (t.peer h.src).map (fun p => (p.part.map (·.power), p.block)) = some (some (.listed .stop), none))

/-- A CLAIM heard while no holder is known, in each hold state that can be without one (R32 to R35). A YIELDING and a
HALTED station do not follow it: the frame changes the roster, and the lost set where the sender was in it, and nothing
else of the hold controller, which queues no frame (R23, R24, R27, R41, R44). That the follow is timed from the moment the
frame is taken, and not from its start, is the model's choice (log 28). -/
def Obligations.ClaimJudgedByHoldState : Prop :=
  ∀ (s : State) (h : Header) (x : BitVec 16) (start : Tick), Calm s → Awake s → Hearing s start → ForUs s h →
    s.hold.known = none → h.hold ≠ .listed .holding →
    Answers (.claim h x) s fun t =>
      (s.hold.state = .listen → t.hold.state = .listen) ∧
      (s.hold.state = .seeking →
        t.hold.state = .passive ∧ t.hold.follow = some ⟨h.src, s.now⟩ ∧ t.hold.deferral = none) ∧
      (s.hold.state = .claiming → h.src < s.own →
        t.hold.state = .passive ∧ t.hold.follow = some ⟨h.src, s.now⟩ ∧ t.hold.contest = none) ∧
      (s.hold.state = .claiming → s.own < h.src → t.hold.state = .claiming ∧ t.hold.contest = s.hold.contest) ∧
      (∀ f, s.hold.state = .passive → s.hold.follow = some f →
        t.hold.state = .passive ∧ t.hold.follow = some (if h.src < f.id then ⟨h.src, s.now⟩ else f)) ∧
      (s.hold.state = .yielding ∨ s.hold.state = .halted →
        t.hold = { s.hold with
          roster := t.hold.roster, lost := s.hold.lost.filter fun i => decide (i ≠ h.src) } ∧
          (t.peer h.src).map (fun p => (p.hold, p.tiebreak)) = some (h.hold, some x) ∧
          t.wire = { s.wire with rx := none } ∧ Only [.pins, .wire, .hold, .ports, .fault, .report, .outs] s t)

/-- The keeper rule (R28): the lowest id among the candidates with a call if there is one, else the lowest of all. Two
holders meet: the one that loses the keeper rule yields, and its parties get DUAL, a port of its own inside the
station (R28, R39, R40, R122), where at most 4 frames wait in its control queue, so that there is room for all. -/
def Obligations.KeeperRule : Prop :=
  (∀ (cs : List (Nat × Bool)),
     (cs = [] → keeper cs = none) ∧
     (∀ i b, (i, b) ∈ cs → ∃ j, keeper cs = some j ∧ (∃ c, (j, c) ∈ cs ∧
       ((∃ k, (k, true) ∈ cs) → (j, true) ∈ cs ∧ (b = true → j ≤ i)) ∧ ((∀ k, (k, true) ∉ cs) → j ≤ i)))) ∧
  (∀ (s : State) (h : Header) (m : BeaconMsg) (b : HolderBlock) (start : Tick), Calm s → Hearing s start →
     ForUs s h → h.hold = .listed .holding → m.holder = some b → s.holding = true → RecordOk s →
     s.wire.control.length ≤ 4 → Answers (.beacon h m) s fun t =>
       (if (b.call = true ∧ s.call.record = none) ∨ (b.call = s.call.record.isSome ∧ h.src < s.own) then
         t.hold.state = .yielding ∧ t.call.record = none ∧ t.sup.state = .off ∧ t.sup.map = [] ∧
           t.report.queue = [] ∧ t.fault.test = none ∧ t.fault.due = none ∧
           newEntry (some 0) .yield s.now ∈ t.wire.control ∧
           (∀ r p, s.call.record = some r → p ∈ r.parties → OwnPartyCleared p r.id .dual s t ∧ (p.station ≠ s.own →
             newEntry (some p.station) (.clear ⟨r.id, p.port, .dual⟩) s.now ∈ t.wire.control))
       else t.hold.state = .holding))

/-- A YIELD and a held LASTGASP hand on the profile, and the tracks they carry are taken at the frame start (R60 to R62,
R76), and a holder takes a LASTGASP's trigger-8 record (R160). A BEACON's tracks: it confirms, it refreshes, and it
leaves a LOCKED slot alone (R60 to R62). The model's choices: a YIELD's profile above 3 is not adopted (log 25), and
tracks that come with the held flag clear are not taken (log 44). -/
def Obligations.TracksHandedOver : Prop :=
  (∀ (s : State) (h : Header) (start : Tick), Calm s → Awake s → Hearing s start → ForUs s h →
     (∀ m, Answers (.yield h m) s fun t =>
       t.sup.stored = if s.holding = true ∨ 4 ≤ m.profile.toNat then s.sup.stored else m.profile.toNat) ∧
     (∀ m, Answers (.lastgasp h m) s fun t =>
       (t.sup.stored = if m.held && !s.holding then m.profile.toNat else s.sup.stored) ∧
         (s.holding = true → m.record.origin = h.src → m.record.trigger = 8 → s.report.queue.length < 24 →
           m.record ∈ t.report.queue) ∧ (m.held = false → t.noise = s.noise)) ∧
     (∀ (x : TrackMsg) (c : Instr), s.noise.a = none → s.noise.b = none → 160000 ≤ x.period.toNat →
       x.period.toNat ≤ 640000 → 4 ≤ x.conf.toNat → x.conf.toNat ≤ 15 → x.offset.toNat ≤ rounded x.period.toNat + 40 →
       elapsed s.now (start + x.offset.setWidth 32) ≤ 40 →
       (∃ p, c = .yield h ⟨p, [x]⟩) ∨ (∃ r p, c = .lastgasp h ⟨r, true, p, [x]⟩) →
       Answers c s fun t =>
         (t.noise.a.map fun k => (k.period, k.tNext, k.conf, k.missed, k.lender)) =
           some (x.period.toNat, start + x.offset.setWidth 32, 4, false, some ⟨h.src, start⟩))) ∧
  (∀ (s : State) (h : Header) (m : BeaconMsg) (x : TrackMsg) (k : Track) (start : Tick), Calm s → Awake s →
     Hearing s start → ForUs s h → m.tracks = [x] → s.noise.a = some k → announcedOk x = true →
     -40 ≤ elapsed (start + x.offset.setWidth 32) k.tNext → elapsed (start + x.offset.setWidth 32) k.tNext ≤ 40 →
     Answers (.beacon h m) s fun t =>
       (k.lender = none → k.conf < 4 → k.missed = false →
         (t.noise.a.map fun q => (q.period, q.tNext, q.conf, q.lender)) = some (k.period, k.tNext, 4, none)) ∧
       (k.lender = none → 4 ≤ k.conf ∨ k.missed = true →
         (t.noise.a.map fun q => (q.period, q.tNext, q.conf, q.missed, q.lender)) =
           some (k.period, k.tNext, k.conf, k.missed, none)) ∧
       (∀ l, k.lender = some l → l.id ≠ h.src →
         (t.noise.a.map fun q => (q.period, q.tNext, q.conf, q.lender)) =
           some (k.period, k.tNext, k.conf, some ⟨l.id, start⟩)) ∧
       (∀ l, k.lender = some l → l.id = h.src → elapsed s.now (start + x.offset.setWidth 32) ≤ 40 →
         (t.noise.a.map fun q => (q.period, q.tNext, q.conf, q.lender)) =
           some (x.period.toNat, start + x.offset.setWidth 32, min x.conf.toNat 4, some ⟨h.src, start⟩)))

/-! ## Requests and other frames of calls and reports (04, 05, 06, 08) -/

/-- A station that does not hold the line refuses a SEIZE and an ANSWER; a HALTED one gives no answer (R112). A SEIZE
or ANSWER at a holder without a record creates one, within the seize gate or on a ringing call (R111, R113, R114,
R118, R152). A REPLY joins the control queue as R11 says, a YIELD that waits there or not. With a record or without, a
port number that is not 1 or 2 is refused with NO_PORT (R113, check 2); checks 1 and 2 are stated of the judging
operation too, since a frame makes its sender's entry before it is judged (R23) and a station asks for no port it does
not have (R89). The model's choices: the reference a GRANT carries, this station and port 0 (log 39), CLASS where both
checks of R114 fail (log 68), and a record that begins SEIZING though loop current is already high (log 69). -/
def Obligations.SeizeWithoutRecord : Prop :=
  (∀ (s : State) (h : Header) (m : RequestMsg) (start : Tick) (c : Instr), Calm s → Hearing s start →
     ForUs s h → Familiar s h → RosterOk s → (c = .seize h m ∨ c = .answer h m) →
     Answers c s fun t =>
       (s.hold.state = .listen ∨ s.hold.state = .passive ∨ s.hold.state = .seeking ∨ s.hold.state = .claiming →
         FrameHanded h.src (.reply ⟨m.tag, .refuse .noHolder, s.own, 0, 0⟩) s t) ∧
       (s.hold.state = .yielding → FrameHanded h.src (.reply ⟨m.tag, .refuse .handover, s.own, 0, 0⟩) s t) ∧
       (s.hold.state = .halted → t.wire.control = s.wire.control) ∧ (s.holding = false → t.call = s.call)) ∧
  (∀ (s : State) (h : Header) (m : RequestMsg) (start : Tick) (c : Instr), Calm s → Hearing s start → ForUs s h →
     Familiar s h → RosterOk s → s.holding = true → s.call.record = none →
     m.port = 1 ∨ m.port = 2 → (c = .seize h m ∨ c = .answer h m) →
     Answers c s fun t =>
       (if (c = .answer h m ∧ s.ports.ringing.isSome = true) ∨
           (max m.cls (s.classOf h.src) ≤ s.cfg.seizeLevel.toNat ∧ s.cond .lineDead = false) then
         t.call.record = some ⟨nextId s.call.lastId, false,
             s.cfg.privateFlags.getLsbD (2 * (h.src - 1) + (m.port - 1)), (h.src, m.port),
             [⟨h.src, m.port, 0, ⟨[], none, [], 0⟩, s.now⟩], some s.now, none, [], .idle⟩ ∧
           t.call.lastId = nextId s.call.lastId ∧ t.loopClosed = true ∧ t.fault.test = none ∧
           FrameHanded h.src (.reply ⟨m.tag, .grant, s.own, 0, nextId s.call.lastId⟩) s t
       else if s.cfg.seizeLevel.toNat < max m.cls (s.classOf h.src) then
         t.call = s.call ∧ FrameHanded h.src (.reply ⟨m.tag, .refuse .cls, h.src,
           (if s.classOf h.src ≤ m.cls then m.port else 0), 0⟩) s t
       else t.call = s.call ∧ FrameHanded h.src (.reply ⟨m.tag, .refuse .lineFault, s.own, 0, 0⟩) s t)) ∧
  (∀ (s : State) (h : Header) (m : RequestMsg) (start : Tick) (c : Instr), Calm s → Hearing s start → ForUs s h →
     Familiar s h → RosterOk s → s.holding = true → m.port ≠ 1 → m.port ≠ 2 →
     (c = .seize h m ∨ c = .answer h m) →
     Answers c s fun t => t.call = s.call ∧ FrameHanded h.src (.reply ⟨m.tag, .refuse .noPort, h.src, m.port, 0⟩) s t) ∧
  (∀ (s : State) (k : RequestKind) (st po cls : Nat),
     (st ≠ s.own → s.peer st = none → judgeHolding k st po cls s = (s, ⟨.refuse .noStation, st, 0, 0⟩)) ∧
     (st = s.own ∨ s.peer st ≠ none →
       (po ≠ 1 ∧ po ≠ 2) ∨ (st = s.own ∧ po = 2 ∧ s.cfg.portCount ≠ 2) →
       judgeHolding k st po cls s = (s, ⟨.refuse .noPort, st, po, 0⟩)))

/-- A SEIZE or ANSWER at a holder with a record: re-granted to a party, else joined under the gate, DEGRADED and
PRIVATE, CLASS and FULL in their order (R113, R115, R116). A REPLY joins the control queue as R11 says. The reference
a GRANT carries, this station and port 0, is the model's choice (log 39). -/
def Obligations.SeizeJoinsRecord : Prop :=
  ∀ (s : State) (h : Header) (m : RequestMsg) (start : Tick) (c : Instr) (r : CallRecord), Calm s →
    Hearing s start → ForUs s h → Familiar s h → RosterOk s → s.holding = true → s.call.record = some r →
    m.port = 1 ∨ m.port = 2 → (c = .seize h m ∨ c = .answer h m) →
    Answers c s fun t =>
      let replied := fun (a : Answer) (st po ref : Nat) => FrameHanded h.src (.reply ⟨m.tag, a, st, po, ref⟩) s t
      if r.has h.src m.port then
        replied .grant s.own 0 r.id ∧
          t.call.record = some { r with parties := r.parties.map fun p =>
            if p.station = h.src ∧ p.port = m.port then
              { p with seq := 0, playout := ⟨[], none, [], 0⟩, silence := s.now } else p }
      else if c = .seize h m ∧ s.hold.degraded = true then
        replied (.refuse .degraded) s.own 0 0 ∧ t.call = s.call
      else if r.priv then replied (.refuse .priv) r.first.1 r.first.2 0 ∧ t.call = s.call
      else if s.cfg.joinLevel.toNat < max m.cls (s.classOf h.src) then
        replied (.refuse .cls) h.src (if s.classOf h.src ≤ m.cls then m.port else 0) 0 ∧ t.call = s.call
      else if 3 ≤ r.parties.length then replied (.refuse .full) s.own 0 0 ∧ t.call = s.call
      else
        replied .grant s.own 0 r.id ∧
          t.call.record = some { r with
            parties := r.parties ++ [⟨h.src, m.port, 0, ⟨[], none, [], 0⟩, s.now⟩] }

/-- An OFFER for one port, and for every port (R98, R127, R128). A REPLY and an END join the control queue as R11
says. An ACCEPT connects the OFFERING port, and stands for the GRANT where that has not arrived; at a port in another
state, at one that offers another binding, and for a port that no station has it is answered with an END (R100, R129).
An END ends the entry of the list that it names by its binding reference or, with reference 0, by the tag of its
OFFER, and every port of that entry is IDLE or, if connected, CLEARED; or it clears the OFFERING or CONNECTED port it
names (R98, R100, R102, R130). The model's choices (log 39): the reference a GRANT carries, this station and port 0,
and the class in the END that answers a late ACCEPT. -/
def Obligations.IntercomFrames : Prop :=
  (∀ (s : State) (h : Header) (m : RequestMsg) (n : PortNo) (start : Tick), Calm s → Hearing s start → ForUs s h →
     Familiar s h → PortsOk s → s.halted = false → m.target = portNo n →
     Answers (.offer h m) s fun t =>
       let ref := nextRef s.call.lastRef (s.call.bindings.map (·.ref))
       if s.fitted n = false then
         FrameHanded h.src (.reply ⟨m.tag, .refuse .noPort, s.own, m.target, 0⟩) s t ∧
           t.call = s.call
       else if (s.port n).state = .idle ∧ faultLevel s.pins n = false then
         (t.port n).state = .ringing ∧ (t.port n).pending = some (.offerFrom h.src m.port ref) ∧
           (t.port n).ringOn = true ∧ (t.port n).offerAt = some s.now ∧
           t.call.bindings = s.call.bindings ++ [⟨ref, h.src, m.port, some m.tag, [n], false⟩] ∧
           t.call.lastRef = ref ∧
           FrameHanded h.src (.reply ⟨m.tag, .grant, s.own, 0, ref⟩) s t
       else
         FrameHanded h.src (.reply ⟨m.tag, .refuse .portBusy, s.own, m.target, 0⟩) s t ∧
           t.call = s.call) ∧
  (∀ (s : State) (h : Header) (m : RequestMsg) (start : Tick), Calm s → Hearing s start → ForUs s h →
     Familiar s h → PortsOk s → s.halted = false →
     Answers (.offer h m) s fun t =>
       let ref := nextRef s.call.lastRef (s.call.bindings.map (·.ref))
       let takers := s.fittedPorts.filter fun n => decide ((s.port n).state = .idle) && !faultLevel s.pins n
       (m.target = 0 → takers = [] → t.call = s.call ∧
         FrameHanded h.src (.reply ⟨m.tag, .refuse .portBusy, s.own, 0, 0⟩) s t) ∧
       (m.target = 0 → takers ≠ [] →
         (∀ n ∈ takers, (t.port n).state = .ringing ∧ (t.port n).pending = some (.offerFrom h.src m.port ref) ∧
           (t.port n).ringOn = true ∧ (t.port n).offerAt = some s.now) ∧
         (∀ n, n ∉ takers → t.port n = s.port n ∨ ∃ k, (s.port n).callRef = some (.outside h.src k)) ∧
         t.call.bindings = s.call.bindings ++ [⟨ref, h.src, m.port, some m.tag, takers, false⟩] ∧
         t.call.lastRef = ref ∧
         FrameHanded h.src (.reply ⟨m.tag, .grant, s.own, 0, ref⟩) s t) ∧
       (3 ≤ m.target → t.call = s.call ∧ FrameHanded h.src (.reply ⟨m.tag, .refuse .noPort, s.own, m.target, 0⟩) s t)) ∧
  (∀ (s : State) (h : Header) (m : RequestMsg) (n : PortNo) (start : Tick), Calm s → Hearing s start → ForUs s h →
     Familiar s h → PortsOk s → s.halted = false → m.target = portNo n →
     Answers (.accept h m) s fun t =>
       (∀ po x, (s.port n).state = .offering → (s.port n).pending = some (.offered h.src po x) →
         x = some m.ref ∨ (x = none ∧ ∃ q, (s.port n).outReq = some q ∧ q.held = false) →
         (t.port n).state = .connected ∧ (t.port n).callRef = some (.intercom h.src m.port m.ref h.src) ∧
           (t.port n).pending = none ∧ (t.port n).outReq = none ∧
           (t.port n).seq = 0 ∧ (t.port n).silence = some s.now ∧ (t.port n).ringBack = none ∧
           (t.port n).tone = .silent ∧ t.wire.control = s.wire.control) ∧
       ((s.port n).state ≠ .offering ∨
           (∃ st po x, (s.port n).pending = some (.offered st po x) ∧
             (st ≠ h.src ∨ (∃ ref, x = some ref ∧ ref ≠ m.ref) ∨
               x = none ∧ ∀ q, (s.port n).outReq = some q → q.held = true)) →
         RequestHanded .endCall h.src ⟨m.target, (s.portCfg n).cls.toNat, m.port, m.ref, s.ports.tag⟩ s t ∧
         t.ports.tag = nextTag s.ports.tag ∧ (t.port n).state = (s.port n).state ∧
         (t.port n).pending = (s.port n).pending ∧ (t.port n).outReq = (s.port n).outReq)) ∧
  (∀ (s : State) (h : Header) (m : RequestMsg) (start : Tick), Calm s → Hearing s start → ForUs s h →
     Familiar s h → PortsOk s → s.halted = false → (m.target = 0 ∨ 3 ≤ m.target) →
     Answers (.accept h m) s fun t =>
       RequestHanded .endCall h.src ⟨m.target, 0, m.port, m.ref, s.ports.tag⟩ s t ∧
         t.ports.tag = nextTag s.ports.tag ∧ ∀ n, (t.port n).state = (s.port n).state) ∧
  (∀ (s : State) (h : Header) (m : RequestMsg) (start : Tick), Calm s → Hearing s start → ForUs s h →
     Familiar s h → PortsOk s →
     Answers (.endCall h m) s fun t =>
       (∀ b, s.call.bindings.find? (fun b => decide (b.station = h.src ∧ b.port = m.port ∧
           (if m.ref = 0 then b.tag = some m.tag else b.ref = m.ref))) = some b →
         (∀ x ∈ t.call.bindings, x.ref ≠ b.ref) ∧ ∀ n ∈ b.locals,
           (t.port n).state = (if b.connected then .cleared else .idle) ∧ (t.port n).callRef = none ∧
             (t.port n).pending = none ∧ (t.port n).ringOn = false ∧
             (t.port n).tone = (if b.connected then .busy else .silent) ∧
             (t.port n).lastCause = (if b.connected then none else (s.port n).lastCause)) ∧
       (∀ n po, s.call.bindings = [] → m.target = portNo n → (s.port n).state = .connected →
         (s.port n).callRef = some (.intercom h.src po m.ref h.src) →
         (t.port n).state = .cleared ∧ (t.port n).callRef = none ∧ (t.port n).tone = .busy ∧
           (t.port n).lastCause = none) ∧
       (∀ n po, s.call.bindings = [] → m.target = portNo n → (s.port n).state = .offering →
         (s.port n).pending = some (.offered h.src po (some m.ref)) →
         (t.port n).state = .cleared ∧ (t.port n).pending = none ∧ (t.port n).ringBack = none ∧
           (t.port n).tone = .busy ∧ (t.port n).lastCause = none) ∧
       ((∀ b ∈ s.call.bindings, b.station ≠ h.src) → (∀ n, m.target = portNo n → (s.port n).state ≠ .offering ∧
           (s.port n).state ≠ .connected) →
         t.call = s.call ∧ ∀ n, (t.port n).state = (s.port n).state ∧ (t.port n).pending = (s.port n).pending))

/-- A REPLY to a port's outstanding request (R8, R96). A CLEAR for the port's call id, and one for another (R102). The
model's choices: a REPLY and a CLEAR are taken whatever station sent them (log 38), and an answer that is neither GRANT
nor REFUSE leaves the request outstanding (log 25). -/
def Obligations.ReplyAndClear : Prop :=
  (∀ (s : State) (h : Header) (m : ReplyMsg) (n : PortNo) (q : OutReq) (start : Tick), Calm s → Hearing s start →
     ForUs s h → Familiar s h → (s.port n).outReq = some q → q.held = false → q.tag = m.tag →
     (∀ k, (s.port (otherPort n)).outReq = some k → k.held = true ∨ k.tag ≠ m.tag) →
     Answers (.reply h m) s fun t =>
       (∀ x y, m.answer = .unlisted x y →
         (t.port n).outReq = some q ∧ (t.port n).state = (s.port n).state ∧
           (t.port n).pending = (s.port n).pending) ∧
       (∀ c, m.answer = .refuse c → (t.port n).outReq = none ∧
         (t.port n).state = .cleared ∧ (t.port n).tone = .busy ∧ (t.port n).lastCause = some (.refused c) ∧
           (t.port n).lastRef = some (m.refStation, m.refPort)) ∧
       (m.answer = .grant → q.kind = .offer → (t.port n).outReq = none ∧
         (t.port n).state = (s.port n).state ∧ (t.port n).tone = .ringBack ∧
           (t.port n).ringBack = some s.now ∧
           (∀ st po x, (s.port n).pending = some (.offered st po x) →
             (t.port n).pending = some (.offered st po (some m.ref)))) ∧
       (m.answer = .grant → q.kind ≠ .offer → (t.port n).outReq = none ∧
         (t.port n).state = .connected ∧ (t.port n).callRef = some (.outside h.src m.ref) ∧
           (t.port n).seq = 0 ∧ (t.port n).silence = some s.now ∧ (t.port n).tone = .silent)) ∧
  (∀ (s : State) (h : Header) (m : ClearMsg) (n : PortNo) (holder id : Nat) (start : Tick), Calm s →
     Hearing s start → ForUs s h → Familiar s h → m.port = portNo n →
     (s.port n).callRef = some (.outside holder id) →
     Answers (.clear h m) s fun t =>
       if m.ref = id then
         (t.port n).state = .cleared ∧ (t.port n).callRef = none ∧ (t.port n).tone = .busy ∧
           (t.port n).lastCause = some (.cleared m.cause) ∧ (t.port n).playout = ⟨[], none, [], 0⟩
       else (t.port n).state = (s.port n).state ∧ (t.port n).callRef = (s.port n).callRef)

/-- A DIAL from a party joins the outpulse queue, and starts when the line is free for it (R123, R124). A stale DIAL
or VOICE frame is answered with a CLEAR, once a second, by a YIELDING station too, and it joins the control queue as
R11 says (R11, R121, R131). The model's choices: the second includes its end, 40 000 ticks (log 21), and an item that
R3 does not list is discarded (log 25). -/
def Obligations.DialAndStaleFrames : Prop :=
  (∀ (s : State) (h : Header) (m : DialMsg) (r : CallRecord) (start : Tick), Calm s → Hearing s start → ForUs s h →
     Familiar s h → s.call.record = some r → r.id = m.ref → r.has h.src m.port = true →
     Answers (.dial h m) s fun t =>
       (∀ b, m.item = .unlisted b → t.call = s.call) ∧
       (∀ i, m.item = .listed i → TakenForExchange i r s t)) ∧
  (∀ (s : State) (h : Header) (po ref : Nat) (start : Tick) (c : Instr), Calm s → Hearing s start →
     ForUs s h → Familiar s h → s.halted = false → recordFor h.src po ref s = false →
     ((∃ i, c = .dial h ⟨ref, po, i⟩) ∨ ∃ d q x, c = .voice h ⟨.toHolder, ref, po, d, q, x⟩) →
     Answers c s fun t =>
       let cause : ClearCause := if s.holding = true ∧ s.call.record.any (fun r => decide (r.id = ref)) = true
         then .partyLimit else .restart
       t.call.record = s.call.record ∧
         (∀ x, s.call.stale = some ⟨h.src, po, ref, x⟩ → 0 ≤ elapsed s.now x → elapsed s.now x ≤ 40000 →
           t.wire.control = s.wire.control ∧ t.call.stale = s.call.stale) ∧
         (s.call.stale = none ∨ (∃ y, s.call.stale = some y ∧
             (y.station ≠ h.src ∨ y.port ≠ po ∨ y.ref ≠ ref ∨ 40000 < elapsed s.now y.time)) →
           FrameHanded h.src (.clear ⟨ref, po, cause⟩) s t ∧
             t.call.stale = some ⟨h.src, po, ref, s.now⟩))

/-- A frame arrives at the playout buffer (R108): one played or held already is discarded, another takes its place in
sequence, and a full buffer drops its earliest frame. The buffer at a tap (R108): before any frame the earliest or
silence; then the due frame, which leaves the buffer, else once the halved repeat of the last one and silence after that.
A VOICE frame that
belongs to a call (R102, R107, R108, R120, R125). The model's choices: the frame that R108 drops counts as played with its
samples (log 23), the source of a VOICE frame for a port is not compared with the call's (log 38), and a stream type that
R3 does not list enters no buffer (log 25). -/
def Obligations.VoiceEntersPlayout : Prop :=
  (∀ (b : Playout),
     (b.last = none → b.frames = [] → b.draw = (List.replicate 80 0#16, b)) ∧
     (∀ q x rest, b.last = none → b.frames = (q, x) :: rest → b.draw = (x, ⟨rest, some q, x, 0⟩)) ∧
     (∀ l q x, b.last = some l → b.frames.find? (fun f => f.1 == l + 1) = some (q, x) →
       b.draw.1 = x ∧ b.draw.2.last = some (l + 1) ∧ b.draw.2.conceal = 0 ∧ b.draw.2.samples = x ∧
         b.draw.2.frames = b.frames.filter fun f => decide (f.1 ≠ l + 1)) ∧
     (∀ l, b.last = some l → b.frames.find? (fun f => f.1 == l + 1) = none →
       b.draw.1 = (if b.conceal = 0 then b.samples.map fun x => BitVec.ofInt 16 (x.toInt.tdiv 2)
         else List.replicate 80 0#16) ∧ b.draw.2.last = some (l + 1) ∧ b.draw.2.frames = b.frames ∧
         (b.conceal = 0 → b.draw.2.conceal = 1)) ∧
     (∀ q x, (∃ l, b.last = some l ∧ (q - l).toInt ≤ 0) ∨ (∃ f ∈ b.frames, f.1 = q) → b.insert q x = b) ∧
     (∀ q x, (∀ l, b.last = some l → 0 < (q - l).toInt) → (∀ f ∈ b.frames, f.1 ≠ q) →
       ∃ l1 l2, b.frames = l1 ++ l2 ∧ (∀ f ∈ l1, 0 ≤ (q - f.1).toInt) ∧
         (∀ f, l2.head? = some f → (q - f.1).toInt < 0) ∧
         (b.frames.length < 3 → b.insert q x = { b with frames := l1 ++ (q, x) :: l2 }) ∧
         (b.frames.length = 3 → ∀ r y rest, l1 ++ (q, x) :: l2 = (r, y) :: rest →
           b.insert q x = { b with frames := rest, last := some r, samples := y }))) ∧
  (∀ (s : State) (h : Header) (m : VoiceMsg) (start : Tick), Calm s → Hearing s start → ForUs s h →
     Familiar s h →
     (∀ r, s.call.record = some r → m.stream = .toHolder → r.id = m.ref → r.has h.src m.srcPort = true →
       Answers (.voice h m) s fun t =>
         (t.call.record.map (·.parties)) = some (r.parties.map fun p =>
           if p.station = h.src ∧ p.port = m.srcPort then
             { p with silence := s.now, playout := p.playout.insert m.seq m.samples } else p)) ∧
     (∀ n k, m.dstPort = portNo n → m.stream = .toParty → (s.port n).callRef = some (.outside k m.ref) →
       Answers (.voice h m) s fun t =>
         (t.port n).playout = (s.port n).playout.insert m.seq m.samples ∧
           (t.port n).silence = if k = h.src ∧ (s.port n).silence.isSome = true then some s.now
             else (s.port n).silence) ∧
     (∀ n st po l, m.dstPort = portNo n → m.stream = .intercom →
       (s.port n).callRef = some (.intercom st po m.ref l) →
       Answers (.voice h m) s fun t =>
         (t.port n).playout = (s.port n).playout.insert m.seq m.samples ∧
           (t.port n).silence = if (s.port n).silence.isSome then some s.now else none) ∧
     (∀ n b, m.dstPort = portNo n → (m.stream = .unlisted b ∨ (s.port n).callRef = none) → m.stream ≠ .toHolder →
       Answers (.voice h m) s fun t => (t.port n).playout = (s.port n).playout))

/-- A REPORT at a holder, and at another station (R157). A RECEIPT judged against the SENT record of its trigger, at
another station and at a HOLDING one, where a record that is NEW again is taken into the report queue (R141, R155, R157,
R158); one that finds no SENT record is discarded (R155). The receipt timer returns the record to NEW; the oldest NEW
record is then sent where the known holder announces broadband up, and at a HOLDING station the record is taken in (R154,
R156, R158). -/
def Obligations.ReportFrames : Prop :=
  (∀ (s : State) (h : Header) (r : FaultRecord) (start : Tick), Calm s → Hearing s start → ForUs s h →
     Familiar s h →
     Answers (.report h r) s fun t =>
       (s.holding = true → r.origin = h.src → r.trigger < 8 → r.count ≠ 0 →
         (s.report.queue.any (fun e => decide (e.origin = r.origin) && decide (e.trigger = r.trigger)) = true →
           t.report.queue = s.report.queue.map fun e =>
             if r.origin = e.origin ∧ r.trigger = e.trigger then r else e) ∧
         (s.report.queue.any (fun e => decide (e.origin = r.origin) && decide (e.trigger = r.trigger)) = false →
           t.report.queue = if s.report.queue.length < 24 then s.report.queue ++ [r] else s.report.queue)) ∧
       (s.holding = false ∨ r.origin ≠ h.src ∨ 8 ≤ r.trigger ∨ r.count = 0 → t.report = s.report) ∧
       t.wire.errors = s.wire.errors) ∧
  (∀ (s : State) (h : Header) (n count : Nat) (r : FaultRecord) (start : Tick), Calm s → Hearing s start →
     ForUs s h → Familiar s h → s.holding = false → r ∈ s.fault.list →
     (∀ x ∈ s.fault.list, x.trigger = n → x.state = .sent → x = r) → r.trigger = n → r.state = .sent →
     Answers (.receipt h n count) s fun t =>
       (r.count = count → { r with state := .reported } ∈ t.fault.list ∧
         t.fault.runs[n]? = s.fault.runs[n]?.map fun q =>
           if q.last then { q with rearm := true } else { q with armed := true }) ∧
       (r.count ≠ count → t.fault.runs = s.fault.runs ∧
         ({ r with state := .new } ∈ t.fault.list ∨ { r with state := .sent, sentCount := r.count } ∈ t.fault.list)) ∧
       (∀ o, s.report.outstanding = some o → o.trigger = n → r.count = count →
         (∀ x ∈ s.fault.list, x.state ≠ .new) → t.report.outstanding = none)) ∧
  (∀ (s : State) (h : Header) (n count : Nat) (r : FaultRecord) (start : Tick), Calm s → Hearing s start →
     ForUs s h → Familiar s h → s.holding = true → r ∈ s.fault.list →
     (∀ x ∈ s.fault.list, x.trigger = n → x.state = .sent → x = r) → r.trigger = n → r.state = .sent →
     Answers (.receipt h n count) s fun t =>
       (r.count = count → { r with state := .reported } ∈ t.fault.list ∧ t.report.queue = s.report.queue ∧
         t.fault.runs[n]? = s.fault.runs[n]?.map fun q =>
           if q.last then { q with rearm := true } else { q with armed := true }) ∧
       (r.count ≠ count → TakenIn r s t ∧ t.fault.runs = s.fault.runs) ∧
       (∀ o, s.report.outstanding = some o →
         t.report.outstanding = if o.trigger = n then none else s.report.outstanding)) ∧
  (∀ (s : State) (h : Header) (n count : Nat) (start : Tick), Calm s → Hearing s start → ForUs s h → Familiar s h →
     (∀ x ∈ s.fault.list, x.trigger = n → x.state ≠ .sent) →
     Answers (.receipt h n count) s fun t => t.fault = s.fault ∧ t.report = s.report) ∧
  (∀ (s : State) (o : OutReport), Calm s → s.report.outstanding = some o → 1200000 ≤ elapsed s.now o.start →
     let news := s.fault.list.map fun r => if r.trigger = o.trigger ∧ r.state = .sent then { r with state := .new } else r
     (s.hold.known = none ∨ s.halted = true ∨ (∃ h, s.hold.known = some h ∧ s.broadbandOf h = false) →
       s.holding = false → Answers .receiptTimeout s fun t =>
         t.report.outstanding = none ∧ t.fault.runs = s.fault.runs ∧ t.fault.list = news) ∧
     (∀ h, s.hold.known = some h → s.broadbandOf h = true → s.halted = false → s.holding = false →
       Answers .receiptTimeout s fun t =>
         (∀ l1 r l2, news = l1 ++ r :: l2 → (∀ x ∈ l1, x.state ≠ .new) → r.state = .new →
           let q := { r with state := .sent, sentCount := r.count }
           t.fault.list = l1 ++ q :: l2 ∧ t.report.outstanding = some ⟨r.trigger, r.count, h, s.now⟩ ∧
             FrameHanded h (.report q) s t ∧ t.fault.runs = s.fault.runs)) ∧
     (∀ r ∈ s.fault.list, s.holding = true → r.trigger = o.trigger → r.state = .sent →
       (∀ x ∈ s.fault.list, x.trigger = o.trigger → x.state = .sent → x = r) →
       Answers .receiptTimeout s fun t =>
         TakenIn r s t ∧ t.report.outstanding = none ∧ t.fault.runs = s.fault.runs))

/-- The address map learns a source address: a group address is not learned, another joins the tail in place of its
own entry, and the oldest of 32 makes room (R84). A DATA frame leaves another station by its packet port; at a holder it
teaches the map and joins the uplink queue or goes to the modem (R8, R80, R81, R84). -/
def Obligations.DataFrameRouted : Prop :=
  (∀ (a : List Byte) (station : Nat) (now : Tick) (m : List MapEntry),
     let others := m.filter fun e => decide (e.addr ≠ a)
     ((a.headD 0).getLsbD 0 = true → learn a station now m = m) ∧
     ((a.headD 0).getLsbD 0 = false → others.length < 32 → learn a station now m = others ++ [⟨a, station, now⟩]) ∧
     ((a.headD 0).getLsbD 0 = false → 32 ≤ others.length →
       learn a station now m = others.drop 1 ++ [⟨a, station, now⟩])) ∧
  ∀ (s : State) (h : Header) (f : LinkFrame) (start : Tick), Calm s → Hearing s start → ForUs s h → Familiar s h →
    RosterOk s → Answers (.data h f) s fun t =>
      (s.holding = false → .packet f ∈ t.outs ∧ t.sup = s.sup) ∧
      (s.holding = true → h.dst = 0 → t.sup = s.sup) ∧
      (s.holding = true → h.dst = s.own →
        t.sup.map = learn ((f.drop 6).take 6) h.src s.now s.sup.map ∧
        (s.sup.state ≠ .synced ∨ 32 ≤ s.sup.uplink.length → t.sup.uplink = s.sup.uplink) ∧
        (s.sup.state = .synced → s.sup.uplink.length < 32 →
          if s.pins.sendOk = true ∧ s.sup.upTransfer = none then
            t.sup.upTransfer = some f ∧ t.sup.uplink = [] ∧ .upstream f ∈ t.outs
          else t.sup.uplink = s.sup.uplink ++ [f] ∧ t.sup.upTransfer = s.sup.upTransfer))

/-! ## Medium access and the packet port (01, 04) -/

/-- A head's slot begins on an idle wire: it starts if its span shares no tick with a quiet window, else it stands aside
(R2, R14, R20). A slot whose class has no head, or whose head sits the round out or has no destination, passes (R12,
R14, R16). A slot that has begun, or is not on an idle wire, has no effect (R14). In the last-gasp window the LASTGASP
alone contends, in slot 1, and starts only if its end lies within the window (R21, R172, R174). The bytes that go out
carry what `startContents` says of the moment of the start: a BEACON's and a HALT's fixed part, a HOLDING station's
holder block, the own LOCKED tracks with their offsets, and the profile of a YIELD and a LASTGASP (R4, R37, R40, R44,
R174). -/
def Obligations.SlotBegins : Prop :=
  (∀ (s : State) (slot : Nat) (c : FrameClass) (e : TxEntry), Calm s → SlotOpens s slot →
     (s.wire.queue c).head? = some e → e.sitOut = 0 → e.dst.isSome = true → slot = slotOf e c →
     let air := airtime (payloadBytes (startContents s e.body)).length
     let bytes := frameBytes s.own (e.dst.getD 0) (.listed s.hold.state) (startContents s e.body)
     (SpanFree s air → Answers (.slotBegin slot) s fun t =>
       t.wire.tx = some ⟨c, bytes, some s.now⟩ ∧ t.wire.round = none ∧ t.outs = [.wireFrame bytes] ∧
         Only [.wire, .noise, .outs] s t) ∧
     (¬ SpanFree s air → Answers (.slotBegin slot) s fun t =>
       t.wire = { s.wire with round := some ⟨slot + 1⟩ } ∧ t.outs = [] ∧ Only [.wire, .outs] s t)) ∧
  (∀ (s : State) (slot : Nat), Calm s → SlotOpens s slot →
     (∀ c e, (s.wire.queue c).head? = some e → slot = slotOf e c → e.sitOut ≠ 0 ∨ e.dst = none) →
     Answers (.slotBegin slot) s fun t =>
       t.wire = { s.wire with round := some ⟨slot + 1⟩ } ∧ t.outs = [] ∧ Only [.wire, .outs] s t) ∧
  (∀ (s : State) (slot : Nat), Calm s → ¬ SlotOpens s slot →
     Answers (.slotBegin slot) s fun t => Only [.outs] s t ∧ t.outs = []) ∧
  (∀ (s : State) (slot : Nat) (w : Tick), s.power.window = some w → SlotOpens s slot →
     (∀ e, slot = 1 → (s.wire.control.find? fun e => isGasp e.body) = some e → e.sitOut = 0 → e.dst.isSome = true →
       let air := airtime (payloadBytes (startContents s e.body)).length
       let bytes := frameBytes s.own (e.dst.getD 0) (.listed s.hold.state) (startContents s e.body)
       (SpanFree s air → elapsed s.now w + air ≤ 800 → Answers (.slotBegin slot) s fun t =>
         t.wire.tx = some ⟨.control, bytes, some s.now⟩ ∧ t.outs = [.wireFrame bytes]) ∧
       (¬ SpanFree s air ∨ 800 < elapsed s.now w + air → Answers (.slotBegin slot) s fun t =>
         t.wire.tx = none ∧ t.outs = [] ∧ t.wire.control = s.wire.control)) ∧
     (slot ≠ 1 ∨ (s.wire.control.find? fun e => isGasp e.body) = none → Answers (.slotBegin slot) s fun t =>
       t.wire.tx = none ∧ t.outs = [] ∧ t.wire.voice = s.wire.voice ∧ t.wire.control = s.wire.control ∧
         t.wire.data = s.wire.data))

/-- A frame ends without a collision: it leaves its queue, the count of collisions in a row is 0, and its sender is
told: the contest begins, a yield ends (R1, R17, R35, R41). The DATA frame behind one that has ended becomes head: one
without a destination takes the known holder's, is discarded where no holder is known, or goes to the own supervisor
where the station holds the line itself, and the next becomes head (R12, R80, R83, R84; at once, log 32). A frame that
was in transmission when a restart began ends in start-up or after it, and leaves its queue as flushed (R13). A
collision counts against the frame and in a row. A control frame leaves its queue at its 16th collision, and a CLAIM's
drop returns its station to SEEKING; a data frame leaves its queue at its 8th, and a VOICE frame when it collides past
its deadline; before that a control or VOICE frame sits rounds out and a data frame draws a new k, each by a draw that
nothing fixes (R10, R15, R16, R35; log 8). The 32nd collision in a row halts the station (R17). A front end that waited
for its frame to complete goes down (R169). A frame flushed while in transmission, at entry to WATCH or to HALTED or
with the data queue, completes or collides and leaves its queue, whatever its count; a front end that waited for it goes
down, and the block that offered a control frame is told of its drop (R1, R13, R18, R169); its collision too can be the
32nd (R17). A VOICE frame that has not started 5 ms after its due time is discarded (R10). A LASTGASP that ends without
a collision in the last-gasp window is transmitted, and another frame that ends there leaves the LASTGASP as it was
(R172, R174); a collision there counts as elsewhere, its limit drops the LASTGASP, and no collision halts the station
(R16, R172, R174). The model's choices: VOICE_DEADLINE discards the oldest overdue frame alone (log 30), a CLAIM is
known again by a serial number (log 12), a front end that waits stands in a state of its own (log 37), no block is told
of the end of a frame that has outlived a restart (log 54), and a flushed frame leaves at its collision too, and is told
as dropped (log 35). -/
def Obligations.TransmissionEnds : Prop :=
  (∀ (s : State) (x : Tx) (e : TxEntry) (rest : List TxEntry), Calm s → Awake s → s.wire.tx = some x →
     s.wire.queue x.cls = e :: rest → e.inTx = true → e.flushed = false →
     Answers .transmissionEnd s fun t =>
       t.wire.tx = none ∧ t.wire.collided = 0 ∧ t.power.frontEnd = frontAfter s ∧
         (x.cls = .voice → t.wire.voice = rest) ∧ (x.cls = .data → DataHeadNext rest s t) ∧
         (x.cls = .control → s.hold.state ≠ .yielding → t.wire.control = rest) ∧
         (∀ b n, e.body = .claim b n → s.hold.state = .claiming → n = s.hold.claimSerial →
           t.hold.state = .claiming ∧ t.hold.contest = some s.now) ∧
         (e.body = .yield → s.hold.state = .yielding →
           t.hold.state = if s.hold.known.isSome then .passive else .seeking)) ∧
  (∀ (s : State) (x : Tx) (e : TxEntry) (rest : List TxEntry), Calm s → Awake s → s.wire.tx = some x →
     s.wire.queue x.cls = e :: rest → e.inTx = true → e.flushed = false →
     Answers .collision s fun t =>
       t.wire.tx = none ∧ t.wire.collided = s.wire.collided + 1 ∧ t.power.frontEnd = frontAfter s ∧
         (s.halted = false → 31 ≤ s.wire.collided → t.hold.state = .halted ∧ t.hold.halt = some .wireDead) ∧
         (s.halted = true → t.hold.halt = s.hold.halt) ∧
         (s.wire.collided < 31 → x.cls = .control → e.collisions < 15 →
           t.wire.control = { e with
             inTx := false, collisions := e.collisions + 1
             sitOut := drawBelow (2 ^ min (e.collisions + 1) 3) s.draws + 1 } :: rest) ∧
         (s.wire.collided < 31 → x.cls = .control → 15 ≤ e.collisions → t.wire.control = rest ∧
           (s.hold.state = .claiming → e.body = .claim s.hold.tiebreak s.hold.claimSerial →
             t.hold.state = .seeking)) ∧
         (s.wire.collided < 31 → x.cls = .data → e.dst.isSome = true → e.collisions < 7 →
           t.wire.data = { e with
             inTx := false, collisions := e.collisions + 1
             backoff := drawBelow (2 ^ min (e.collisions + 1) 5) s.draws } :: rest) ∧
         (s.wire.collided < 31 → x.cls = .data → 7 ≤ e.collisions →
           t.wire.data.map (·.body) <:+ rest.map (·.body) ∧
             ((∀ f, rest.head? = some f → f.dst.isSome = true) → t.wire.data = rest)) ∧
         (s.wire.collided < 31 → x.cls = .voice → elapsed s.now e.due < 200 →
           t.wire.voice = { e with
             inTx := false, collisions := e.collisions + 1
             sitOut := drawBelow (2 ^ min (e.collisions + 1) 3) s.draws + 1 } :: rest) ∧
         (s.wire.collided < 31 → x.cls = .voice → 200 ≤ elapsed s.now e.due → t.wire.voice = rest)) ∧
  (∀ (s : State) (e : TxEntry) (rest : List TxEntry), Calm s → s.wire.voice = e :: rest → e.inTx = false →
     200 ≤ elapsed s.now e.due →
     Answers .voiceDeadline s fun t => t.wire = { s.wire with voice := rest } ∧ Only [.wire, .outs] s t) ∧
  (∀ (s : State) (w : Tick) (x : Tx) (e : TxEntry) (rest : List TxEntry), s.phase = .running →
     s.power.window = some w → s.wire.tx = some x → s.wire.queue x.cls = e :: rest → e.inTx = true →
     e.flushed = false → s.power.frontEnd = .live →
     Answers .transmissionEnd s fun t =>
       t.wire.tx = none ∧ t.wire.queue x.cls = rest ∧
         t.power = (if isGasp e.body then { s.power with gasp := .transmitted } else s.power) ∧
         Only [.wire, .power, .outs] s t) ∧
  (∀ (s : State) (x : Tx) (c : Instr), Starting s → s.wire.tx = some x → c = .transmissionEnd ∨ c = .collision →
     Answers c s fun t =>
       t.wire = ⟨[], [], [], none, none, none, if c = .collision then 1 else 0, 0, []⟩ ∧
         t.power = { s.power with frontEnd := .down } ∧ Only [.wire, .power, .outs] s t) ∧
  (∀ (s : State) (x : Tx) (e : TxEntry) (rest : List TxEntry), Calm s → s.wire.tx = some x → x.start = none →
     s.wire.queue x.cls = e :: rest → e.inTx = true → e.flushed = true → x.cls ≠ .data →
     Answers .transmissionEnd s fun t =>
       t.wire.tx = none ∧ t.wire.queue x.cls = rest ∧ t.wire.collided = 0 ∧ t.outs = [] ∧
         Only [.wire, .power, .outs] s t) ∧
  (∀ (s : State) (x : Tx) (e : TxEntry) (rest : List TxEntry) (c : Instr), Calm s → PortsOk s →
     Awake s ∨ s.power.state = .watch → s.wire.tx = some x → s.wire.queue x.cls = e :: rest → e.inTx = true →
     e.flushed = true → x.cls ≠ .data →
     c = .transmissionEnd ∨ (c = .collision ∧ (s.halted = true ∨ s.wire.collided < 31)) →
     Answers c s fun t =>
       t.wire = { s.wire.setQueue rest x.cls with
         tx := none, collided := if c = .collision then s.wire.collided + 1 else 0 } ∧
         t.power.frontEnd = frontAfter s ∧ t.power.state = s.power.state ∧ t.hold.halt = s.hold.halt ∧
         (x.cls = .control → x.start.isSome = true → DropTold e.body s t) ∧
         (x.cls = .voice ∨ x.start = none ∨
           ((∀ b n, e.body ≠ .claim b n) ∧ e.body ≠ .yield ∧ ∀ k m, e.body ≠ .request k m) →
           t.outs = [] ∧ Only [.wire, .power, .outs] s t)) ∧
  (∀ (s : State) (x : Tx) (e : TxEntry) (rest : List TxEntry) (c : Instr), Calm s →
     Awake s ∨ s.power.state = .watch → s.wire.tx = some x → x.cls = .data → s.wire.data = e :: rest →
     e.inTx = true → e.flushed = true →
     c = .transmissionEnd ∨ (c = .collision ∧ (s.halted = true ∨ s.wire.collided < 31)) →
     Answers c s fun t =>
       t.wire = { s.wire with
         data := t.wire.data, tx := none, collided := if c = .collision then s.wire.collided + 1 else 0 } ∧
         t.power.frontEnd = frontAfter s ∧ t.power.state = s.power.state ∧ DataHeadNext rest s t ∧
         Only [.wire, .power, .sup, .outs] s t) ∧
  (∀ (s : State) (x : Tx) (e : TxEntry) (rest : List TxEntry), Calm s → Awake s ∨ s.power.state = .watch →
     s.wire.tx = some x → s.wire.queue x.cls = e :: rest → e.inTx = true → e.flushed = true → s.halted = false →
     31 ≤ s.wire.collided →
     Answers .collision s fun t =>
       t.hold.state = .halted ∧ t.hold.halt = some .wireDead ∧ t.wire.tx = none ∧
         t.wire.collided = s.wire.collided + 1 ∧ t.power.frontEnd = frontAfter s ∧
         ((∀ f ∈ rest, f.inTx = false) →
           t.wire.queue x.cls = if x.cls = .control then [newEntry (some 0) .halt s.now] else [])) ∧
  (∀ (s : State) (w : Tick) (x : Tx) (e : TxEntry) (rest : List TxEntry), s.phase = .running →
     s.power.window = some w → s.wire.tx = some x → s.wire.queue x.cls = e :: rest → e.inTx = true →
     (∀ c, e.flushed = true → c = .transmissionEnd ∨ c = .collision → Answers c s fun t =>
       t.wire = { s.wire.setQueue rest x.cls with
         tx := none, collided := if c = .collision then s.wire.collided + 1 else 0, dropped := [] } ∧
         t.power.window = some w ∧ t.power.frontEnd = frontAfter s ∧ t.outs = [] ∧
         Only [.wire, .power, .outs] s t) ∧
     (e.flushed = false → Answers .collision s fun t =>
       t.wire.tx = none ∧ t.wire.collided = s.wire.collided + 1 ∧ t.power.window = some w ∧
         t.power.frontEnd = frontAfter s ∧
         t.power.gasp = (if isGasp e.body = true ∧ 15 ≤ e.collisions then .dropped else s.power.gasp) ∧
         (x.cls = .control → t.wire.control = if 15 ≤ e.collisions then rest else { e with
           inTx := false, collisions := e.collisions + 1
           sitOut := drawBelow (2 ^ min (e.collisions + 1) 3) s.draws + 1 } :: rest) ∧
         Only [.wire, .power, .draws, .outs] s t))

/-- A link frame from the packet port (R12, R80, R82, R84): to the data queue, to the holder's uplink queue, or
discarded for its size. The upstream port: SEND-OK rises or falls, a transfer ends (R81). A downstream frame is routed
by the address map, or discarded (R12, R13, R73, R84, R85). The model's choices: UPSTREAM_TRANSFER_END carries SEND-OK's
level, and tells its fall at any other moment (log 17), a downstream frame carries the time its transfer began, which is
compared with the entry to SYNCED (log 18), and a frame that becomes head is addressed at once (log 32). -/
def Obligations.LinkFramesRouted : Prop :=
  (∀ (s : State) (f : LinkFrame), Calm s →
     (f.length < 14 ∨ 1536 < f.length → Answers (.packetReceive f) s fun t => Only [.outs] s t) ∧
     (14 ≤ f.length → f.length ≤ 1536 → s.holdBack = false →
       (∀ h, s.holding = false → s.hold.known = some h → h ≠ s.own → Answers (.packetReceive f) s fun t =>
         t.wire.data = s.wire.data ++ [⟨if s.wire.data = [] then some h else none, .data f, s.now, 0, 0, 0, false,
           false⟩] ∧ Only [.wire, .outs] s t) ∧
       (s.holding = true → Answers (.packetReceive f) s fun t =>
         t.sup.map = learn ((f.drop 6).take 6) s.own s.now s.sup.map ∧
           (if s.pins.sendOk = true ∧ s.sup.upTransfer = none then t.sup.upTransfer = some f ∧ t.sup.uplink = []
           else t.sup.uplink = s.sup.uplink ++ [f]) ∧ Only [.sup, .outs] s t))) ∧
  (∀ (s : State), Calm s →
     (∀ f rest, s.sup.state = .synced → s.sup.uplink = f :: rest → s.sup.upTransfer = none →
       Answers .sendOkRise s fun t =>
         t.sup = { s.sup with uplink := rest, upTransfer := some f } ∧ t.outs = [.upstream f] ∧
           Only [.pins, .sup, .outs] s t) ∧
     (s.sup.state ≠ .synced ∨ s.sup.uplink = [] ∨ s.sup.upTransfer.isSome = true →
       Answers .sendOkRise s fun t => t.pins.sendOk = true ∧ Only [.pins, .outs] s t) ∧
     (Answers (.upstreamTransferEnd .sendOkFell) s fun t =>
       t.pins = { s.pins with sendOk := false } ∧ t.outs = [] ∧ Only [.pins, .outs] s t) ∧
     (∀ f rest, s.sup.state = .synced → s.sup.uplink = f :: rest →
       Answers (.upstreamTransferEnd (.ended true)) s fun t =>
       t.sup = { s.sup with uplink := rest, upTransfer := some f } ∧ t.outs = [.upstream f] ∧
         Only [.pins, .sup, .outs] s t) ∧
     (Answers (.upstreamTransferEnd (.ended false)) s fun t =>
       t.sup = { s.sup with upTransfer := none } ∧ t.outs = [] ∧ Only [.pins, .sup, .outs] s t)) ∧
  (∀ (s : State) (began : Tick) (f : LinkFrame), Calm s →
     s.sup.state ≠ .synced ∨ (∃ x, s.sup.syncedAt = some x ∧ elapsed began x < 0) ∨ f.length < 14 ∨ 1536 < f.length →
     Answers (.downstreamFrame began f) s fun t => Only [.outs] s t ∧ t.outs = []) ∧
  (∀ (s : State) (began : Tick) (f : LinkFrame), Calm s → s.sup.state = .synced →
     (∀ x, s.sup.syncedAt = some x → 0 ≤ elapsed began x) → 14 ≤ f.length → f.length ≤ 1536 → s.power.state = .full →
     s.halted = false → s.wire.data.length < 32 →
     Answers (.downstreamFrame began f) s fun t =>
       t.sup = s.sup ∧
       (((f.headD 0).getLsbD 0 = true ∨ s.sup.map.all (fun e => decide (e.addr ≠ f.take 6)) = true) →
         .packet f ∈ t.outs ∧ t.wire.data = s.wire.data ++ [newEntry (some 0) (.data f) s.now]) ∧
       (∀ e, (f.headD 0).getLsbD 0 = false → s.sup.map.find? (fun e => decide (e.addr = f.take 6)) = some e →
         (e.station = s.own → .packet f ∈ t.outs ∧ t.wire.data = s.wire.data) ∧
         (e.station ≠ s.own → .packet f ∉ t.outs ∧
           t.wire.data = s.wire.data ++ [newEntry (some e.station) (.data f) s.now])))

/-! ## Noise (03) -/

/-- An impulse from the front end, or from BURST at a SYNCED holder: merged, or it hits a slot (R47 to R53), or it is
counted unmatched (R49) and offered to formation: it joins the candidates, of which six are kept (R55), or the latest pair
forms a track with it (R56) in an EMPTY slot or in place of a weak TENTATIVE one, and where there is neither the formation
is discarded (R57). BURST away from a SYNCED holder, and an impulse while the front
end is not live, change nothing (R47). -/
def Obligations.ImpulseMovesSlot : Prop :=
  (∀ (s : State) (c : Instr), Calm s →
     (c = .impulseDetect ∧ s.power.frontEnd = .live ∨
       c = .burst ∧ s.holding = true ∧ s.sup.state = .synced) →
     Answers c s fun t =>
       (∀ x, s.noise.lastImpulse = some x → elapsed s.now x ≤ 40 → t.noise = s.noise) ∧
       (s.noise.lastImpulse = none ∨ (∃ x, s.noise.lastImpulse = some x ∧ 40 < elapsed s.now x) →
         t.noise.lastImpulse = some s.now ∧
         (∀ n k, s.noise.slot n = some k → -40 ≤ elapsed s.now k.tNext → elapsed s.now k.tNext ≤ 40 →
           let p := clampPeriod (k.period + elapsed s.now k.tNext)
           t.noise.slot n =
               some ⟨p, s.now + ticks (rounded p), min 15 (k.conf + 1), false, none, false, false⟩ ∧
             slotState (t.noise.slot n) = (if 4 ≤ k.conf + 1 then .locked else .tentative) ∧
             t.noise.unmatched = s.noise.unmatched ∧ t.noise.candidates = s.noise.candidates ∧
             (∀ m, m ≠ n → (∀ q, s.noise.slot m = some q → elapsed s.now q.tNext < -40 ∨ 40 < elapsed s.now q.tNext) →
               t.noise.slot m = s.noise.slot m)) ∧
         (s.noise.a = none → s.noise.b = none →
           t.noise.unmatched = min 65535 (s.noise.unmatched + 1) ∧
           (∀ c2, s.noise.candidates = [c2] → t.noise.candidates = [c2, s.now] ∧ t.noise.a = none) ∧
           (∀ c1 c2, s.noise.candidates = [c1, c2] → 20000 ≤ elapsed c2 c1 → elapsed c2 c1 ≤ 80000 →
             -40 ≤ elapsed s.now c2 - elapsed c2 c1 → elapsed s.now c2 - elapsed c2 c1 ≤ 40 →
             let p := clampPeriod (elapsed s.now c1 * 4)
             (t.noise.a.map fun q => (q.period, q.tNext, q.conf, q.missed, q.lender)) =
               some (p, s.now + ticks (rounded p), 3, false, none) ∧ c1 ∉ t.noise.candidates ∧
               c2 ∉ t.noise.candidates)) ∧
         ((∀ n k, s.noise.slot n = some k → elapsed s.now k.tNext < -40 ∨ 40 < elapsed s.now k.tNext) →
           t.noise.unmatched = min 65535 (s.noise.unmatched + 1) ∧
           (s.noise.candidates.Pairwise (fun c1 c2 => ¬ PairFor s.now c1 c2) ∨ (∀ n, ¬ FormsIn n s.noise) →
             t.noise.a = s.noise.a ∧ t.noise.b = s.noise.b ∧ t.noise.candidates =
               (if s.noise.candidates.length < 6 then s.noise.candidates else s.noise.candidates.tail) ++ [s.now]) ∧
           (∀ c1 c2 n, LatestPair s.now s.noise.candidates c1 c2 → FormsIn n s.noise →
             let p := clampPeriod (elapsed s.now c1 * 4)
             t.noise.slot n = some ⟨p, s.now + ticks (rounded p), 3, false, none, false, false⟩ ∧
               slotState (t.noise.slot n) = .tentative ∧
               t.noise.slot (otherSlot n) = s.noise.slot (otherSlot n) ∧
               t.noise.candidates = s.noise.candidates.filter fun c => decide (c ≠ c1) && decide (c ≠ c2))))) ∧
  (∀ s : State, Calm s →
     (s.power.frontEnd ≠ .live → Answers .impulseDetect s fun t => Only [.outs] s t) ∧
     (s.holding = false ∨ s.sup.state ≠ .synced → Answers .burst s fun t => Only [.outs] s t))

/-- A miss, and the end of a borrowed slot's 3 s (R54, R59, R63). A slot's quiet window opens and closes with its
span, raising and lowering BLANK at a holder, where the other slot's window keeps BLANK raised while it is open. Windows
that coincide are one span: one that closes while the other is open opens no round, and the last to close opens one when
the wire was idle throughout the span; an impulse that hits both slots closes both and opens one round (R14, R53, R58,
R79). In the last-gasp window the windows of the standing table open and close as before it (R67, R172); at a station that
does not run they do nothing. The model's choices: whether a window is open, and whether the wire was idle since its span
began, are kept in the slot (log 41), a window counts as coinciding with another that is open when it opens or closes (log
56), and no block takes an event before completion (log 14). -/
def Obligations.SlotsFollowTime : Prop :=
  (∀ (s : State) (n : SlotName) (k : Track), Calm s → s.noise.slot n = some k →
     (40 ≤ elapsed s.now k.tNext → Answers (.captureExpiry n) s fun t =>
       (k.lender = none → k.conf ≤ 2 → t.noise.slot n = none) ∧
       (k.lender = none → 2 < k.conf →
         ((t.noise.slot n).map fun q => (q.period, q.tNext, q.conf, q.missed, q.lender)) =
           some (k.period, k.tNext + ticks (rounded k.period), k.conf - 2, true, none)) ∧
       (k.lender.isSome = true →
         ((t.noise.slot n).map fun q => (q.period, q.tNext, q.conf, q.missed, q.lender)) =
           some (k.period, k.tNext + ticks (rounded k.period), k.conf, k.missed, k.lender)) ∧
       t.cond .noiseTracked = decide (0 < t.noise.tracked)) ∧
     (∀ l, k.lender = some l → 120000 ≤ elapsed s.now l.refresh → Answers (.refreshExpiry n) s fun t =>
       t.noise.slot n = none ∧ t.cond .noiseTracked = decide (0 < t.noise.tracked))) ∧
  (∀ (s : State) (n : SlotName) (k : Track), WireGoesOn s → s.noise.slot n = some k →
     (k.winOpen = false → k.firm = true → -12 ≤ elapsed s.now k.tNext → elapsed s.now k.tNext ≤ 20 →
       Answers (.quietWindowOpen n) s fun t =>
         t.noise.slot n = some { k with
           winOpen := true
           winIdle := s.wireIdle && (match s.noise.slot (otherSlot n) with
             | some q => !q.winOpen || q.winIdle
             | none => true) } ∧
           t.blank = (s.holding && decide (s.sup.state ≠ .off)) ∧ t.wire = { s.wire with dropped := [] } ∧
           Only [.noise, .wire, .outs] s t) ∧
     (k.winOpen = true → 20 < elapsed s.now k.tNext → Answers (.quietWindowClose n) s fun t =>
       t.noise.slot n = some { k with winOpen := false, winIdle := false } ∧
         (∀ m, m ≠ n → t.blank = (s.holding && decide (s.sup.state ≠ .off) && openNow (s.noise.slot m))) ∧
         (k.winIdle = true → openNow (s.noise.slot (otherSlot n)) = false → s.power.frontEnd = .live →
           s.wireIdle = true → s.wire.rx = none → t.wire = { s.wire with
             round := some ⟨0⟩
             voice := s.wire.voice.map fun e => { e with sitOut := e.sitOut - 1 }
             control := s.wire.control.map fun e => { e with sitOut := e.sitOut - 1 }
             dropped := [] }) ∧
         (k.winIdle = false ∨ openNow (s.noise.slot (otherSlot n)) = true →
           t.wire = { s.wire with dropped := [] }) ∧
         Only [.noise, .wire, .outs] s t)) ∧
  (∀ (s : State) (n : SlotName), s.phase ≠ .running →
     exec (.quietWindowOpen n) s = .next s.quiet ∧ exec (.quietWindowClose n) s = .next s.quiet) ∧
  (∀ (s : State) (ka kb : Track), Calm s → s.noise.a = some ka → s.noise.b = some kb → s.noise.lastImpulse = none →
     (∀ k, k = ka ∨ k = kb → k.winOpen = true ∧ k.winIdle = true ∧ 4 ≤ k.conf ∧ -40 ≤ elapsed s.now k.tNext ∧
       elapsed s.now k.tNext ≤ 40) →
     s.power.frontEnd = .live → s.wireIdle = true → s.wire.rx = none → Answers .impulseDetect s fun t =>
       t.noise.anyOpen = false ∧ t.blank = false ∧ t.wire = { s.wire with
         round := some ⟨0⟩
         voice := s.wire.voice.map fun e => { e with sitOut := e.sitOut - 1 }
         control := s.wire.control.map fun e => { e with sitOut := e.sitOut - 1 } })

/-! ## The hold controller's timers and the modem (02, 04) -/

/-- NO_HOLDER after 30 s, and LISTEN's end after 3 s (R29, R32, R34, R97). The followed claim lapses, the deferral
ends in a CLAIM, the contest ends in HOLDING (R31, R33 to R36, R71, R149). -/
def Obligations.HoldTimers : Prop :=
  (∀ (s : State) (x : Tick), Calm s →
     (s.hold.noHolder = some x → 1200000 ≤ elapsed s.now x → Answers .noHolderTimeout s fun t =>
       t.cond .noHolder = true ∧ t.hold = { s.hold with noHolder := none }) ∧
     (Awake s → s.hold.state = .listen → s.hold.listen = some x → 120000 ≤ elapsed s.now x →
       Answers .listenTimeout s fun t =>
       (t.hold = { s.hold with
           state := if s.hold.known.isSome then .passive else .seeking
           listen := none, follow := none, contest := none
           deferral := if s.hold.known = none ∧ s.hold.eligible = true then some s.now else none }) ∧
       (∀ q, s.ports.one.outReq = some q → q.held = true → q.kind ≠ .offer → s.hold.known = none →
         t.ports.one.state = .cleared ∧ t.ports.one.lastCause = some (.refused .noHolder) ∧
           t.ports.one.outReq = none))) ∧
  (∀ (s : State) (x : Tick), Calm s →
     (∀ f, s.hold.state = .passive → s.hold.follow = some f → 80000 ≤ elapsed s.now f.heard →
       Answers .claimFollowTimeout s fun t =>
         t.hold.state = .seeking ∧ t.hold.follow = none ∧
           t.hold.deferral = (if s.hold.eligible then some s.now else none) ∧ Only [.hold, .outs] s t) ∧
     (s.hold.state = .seeking → s.hold.deferral = some x → s.hold.eligible = true → s.hold.known = none →
       ((10000 * s.own : Nat) : Int) ≤ elapsed s.now x → s.wire.control.length < 8 → Answers .deferralEnd s fun t =>
         t.hold.state = .claiming ∧ t.hold.deferral = none ∧ t.hold.contest = none ∧
           t.wire.control = s.wire.control ++
             [newEntry (some 0) (.claim s.hold.tiebreak t.hold.claimSerial) s.now] ∧ Only [.hold, .wire, .outs] s t) ∧
     (s.hold.state = .claiming → s.hold.contest = some x → 20000 ≤ elapsed s.now x → s.hold.eligible = true →
       s.hold.known = none → Answers .contestEnd s fun t =>
         t.hold.state = .holding ∧ t.hold.known = some s.own ∧ t.hold.degraded = false ∧
           t.sup.state = (if s.pins.sync then .synced else .training) ∧
           t.sup.inUse = max s.sup.stored s.noise.tracked ∧ t.sup.map = [] ∧
           t.fault.due = (if s.cfg.testInterval = 0 then none else some (s.now + ticks 2000000)) ∧
           t.wire.control = beaconOffered s))

/-- READY and MODEM_ABSENT (R30, R38, R70). SYNC rises in TRAINING or LOST, and falls in SYNCED; the third loss
within 15 min steps down (R72, R73, R77, R86). A failed training, the grace's end and the backoff wait's end (R71 to
R74). -/
def Obligations.ModemSupervised : Prop :=
  (∀ (s : State) (level : Bool) (x : Tick), Calm s →
     (s.power.state = .full → s.straps.modem = true → s.pins.ready ≠ level →
       Answers (.readyChange level) s fun t =>
         t.pins.ready = level ∧ t.sup.readyTimer = (if level then none else some s.now) ∧
           (level = true → t.cond .modemAbsent = false)) ∧
     (s.power.state ≠ .full ∨ s.straps.modem = false → Answers (.readyChange level) s fun t =>
       t.pins.ready = level ∧ Only [.pins, .outs] s t) ∧
     (s.sup.readyTimer = some x → 400000 ≤ elapsed s.now x → Answers .readyTimerExpiry s fun t =>
       t.cond .modemAbsent = true ∧ t.sup.readyTimer = none ∧ t.hold.eligible = false ∧
         (s.hold.eligible = true → s.holding = true → s.call.record.isSome = true →
           t.holding = true ∧ t.hold.degraded = true) ∧
         (s.hold.eligible = true → s.hold.state = .claiming → t.hold.state = .seeking))) ∧
  (∀ s : State, Calm s →
     (s.sup.state = .training ∨ s.sup.state = .lost → Answers .syncRise s fun t =>
       t.sup.state = .synced ∧ t.sup.timer = none ∧ t.sup.failures = 0 ∧ t.sup.step = 0 ∧ t.sup.holdTime = 0 ∧
         t.cond .trainFail = false) ∧
     (s.sup.state = .off ∨ s.sup.state = .backoff ∨ s.sup.state = .synced → Answers .syncRise s fun t =>
       t.pins.sync = true ∧ Only [.pins, .outs] s t) ∧
     (s.sup.state = .synced → Answers .syncFall s fun t =>
       t.sup.state = .lost ∧ t.sup.timer = some s.now ∧ t.sup.holdTime = 0 ∧ t.sup.mailbox = none ∧
         t.sup.uplink = s.sup.uplink ∧ t.sup.inUse = s.sup.inUse ∧
         (if (s.sup.losses.filter fun y => decide (elapsed s.now y ≤ 36000000)).length < 2 then
           t.sup.losses = (s.sup.losses.filter fun y => decide (elapsed s.now y ≤ 36000000)) ++ [s.now] ∧
             t.sup.stored = s.sup.stored
         else t.sup.losses = [] ∧ t.sup.stored = min 3 (s.sup.stored + 1) ∧ t.cond .syncUnstable = true)) ∧
     (s.sup.state ≠ .synced → Answers .syncFall s fun t => t.pins.sync = false ∧ Only [.pins, .outs] s t)) ∧
  (∀ (s : State) (x : Tick), Calm s → s.sup.timer = some x →
     (s.sup.state = .training → 3600000 ≤ elapsed s.now x → Answers .trainingTimeout s fun t =>
       t.sup.state = .backoff ∧ t.sup.failures = min 255 (s.sup.failures + 1) ∧ t.sup.timer = some s.now ∧
         t.sup.backoffLen = 400000 * 2 ^ s.sup.step ∧ t.sup.step = min 5 (s.sup.step + 1) ∧ t.sup.uplink = [] ∧
         t.holdLine = false ∧ (1 ≤ s.sup.failures → t.cond .trainFail = true)) ∧
     (s.sup.state = .lost → 80000 ≤ elapsed s.now x → Answers .graceTimeout s fun t =>
       t.sup.state = .backoff ∧ t.sup.timer = some s.now ∧ t.sup.backoffLen = 400000 * 2 ^ s.sup.step ∧
         t.sup.step = min 5 (s.sup.step + 1) ∧ t.sup.uplink = [] ∧ t.sup.failures = s.sup.failures) ∧
     (s.sup.state = .backoff → (s.sup.backoffLen : Int) ≤ elapsed s.now x → Answers .backoffWaitEnd s fun t =>
       t.sup.state = (if s.pins.sync then .synced else .training) ∧
         t.sup.inUse = max s.sup.stored s.noise.tracked ∧ (s.pins.sync = false → t.sup.timer = some s.now)))

/-- What becomes of a mailbox offer, and the next offer in the form of R153 (R86, R87, R153, R159). An answer that comes
after its offer was withdrawn at the same instant, by the timer or by the leaving of SYNCED, is ignored (R86); that one
answer for each offer withdrawn at the present station time is taken for such an answer is the model's choice (log 60).
The delivery of the holder's own record is judged inside the station: the SENT record of the trigger is REPORTED, or,
with another count, NEW and at once taken in again, and no RECEIPT is sent (R155, R157 to R159). That the holder's own
record is one with the station's present id is the model's choice (log 63). -/
def Obligations.MailboxOutcomes : Prop :=
  ∀ (s : State) (o : MailOffer) (r : FaultRecord) (rest : List FaultRecord), Calm s → s.holding = true →
    s.sup.state = .synced → s.sup.mailbox = some o → s.report.queue = r :: rest →
    o.record.origin = r.origin → o.record.trigger = r.trigger →
    (∀ e ∈ rest, ¬ (e.origin = r.origin ∧ e.trigger = r.trigger)) →
    (∀ x ∈ s.fault.list, x.state ≠ .new) →
    (s.sup.late = 0 → o.record.origin ≠ s.own → o.record.trigger ≠ 8 → Answers .mailboxDelivered s fun t =>
      t.report.queue = (if r.count = o.record.count then rest else r :: rest) ∧
        FrameHanded o.record.origin (.receipt o.record.trigger o.record.count) s t ∧
        t.sup.mailbox = (t.report.queue.head?.map fun q => ⟨q, s.now⟩) ∧
        ∀ q, t.report.queue.head? = some q → .mailOffer (recordBytes q) ∈ t.outs) ∧
    (s.sup.late = 0 → o.record.origin = s.own → o.record.trigger ≠ 8 → Answers .mailboxDelivered s fun t =>
      let left := if r.count = o.record.count then rest else r :: rest
      let ofTrigger := fun (y : FaultRecord) => y.trigger = o.record.trigger ∧ y.state = .sent
      t.wire.control = s.wire.control ∧ t.sup.mailbox = (t.report.queue.head?.map fun q => ⟨q, s.now⟩) ∧
        (∀ q, t.report.queue.head? = some q → .mailOffer (recordBytes q) ∈ t.outs) ∧
        ((∀ x ∈ s.fault.list, ¬ ofTrigger x) → t.fault = s.fault ∧ t.report.queue = left) ∧
        (∀ x ∈ s.fault.list, ofTrigger x → (∀ y ∈ s.fault.list, ofTrigger y → y = x) →
          (x.count = o.record.count → t.report.queue = left ∧
            t.fault.list = (s.fault.list.map fun y => if ofTrigger y then { y with state := .reported } else y) ∧
            t.fault.runs[x.trigger]? = s.fault.runs[x.trigger]?.map fun q =>
              if q.last then { q with rearm := true } else { q with armed := true }) ∧
          (x.count ≠ o.record.count → x.origin = s.own → rest.length < 24 →
            let q : FaultRecord := { x with sentCount := x.count }
            t.report.queue = (if r.count = o.record.count then rest ++ [q] else q :: rest) ∧
              t.fault.list = (s.fault.list.map fun y => if ofTrigger y then q else y) ∧
              t.fault.runs = s.fault.runs))) ∧
    (s.sup.late = 0 → o.record.trigger = 8 → Answers .mailboxDelivered s fun t =>
      t.report.queue = rest ∧ t.wire.control = s.wire.control) ∧
    (s.sup.late = 0 → Answers .mailboxRefused s fun t =>
      t.report.queue = rest ++ [r] ∧ t.wire.control = s.wire.control ∧
        t.sup.mailbox = ((rest ++ [r]).head?.map fun q => ⟨q, s.now⟩) ∧
        ∀ q, (rest ++ [r]).head? = some q → .mailOffer (recordBytes q) ∈ t.outs) ∧
    (200000 ≤ elapsed s.now o.start → Answers .mailboxTimeout s fun t =>
      t.report.queue = rest ++ [r] ∧ .mailWithdraw ∈ t.outs ∧ t.sup.late = s.sup.late + 1) ∧
    (Answers .syncFall s fun t =>
      (t.report.queue.head?.map fun q => (q.origin, q.trigger)) = some (r.origin, r.trigger) ∧
        t.sup.mailbox = none ∧ .mailWithdraw ∈ t.outs ∧ t.sup.late = s.sup.late + 1) ∧
    (∀ c, 0 < s.sup.late → c = .mailboxDelivered ∨ c = .mailboxRefused → Answers c s fun t =>
      t.sup = { s.sup with late := s.sup.late - 1 } ∧ t.outs = [] ∧ Only [.sup, .outs] s t)

/-! ## Phone ports (05) -/

/-- Hook falls and rises: a break begins; it ends as a dial pulse or a flash by its length (R90, R91, R93). An on-hook:
the port sends what its state requires and is IDLE, its last cause kept (R90, R91, R103). DIALING, CLEARED and PARKED
send nothing, nor does a request still held; WAITING sends a LEAVE with reference 0, OFFERING an END with the tag of its
OFFER, and after the GRANT with the reference, CONNECTED a LEAVE or an END (R103). At the holder itself the LEAVE is
judged inside the station, and the last party's ends the record (R117, R122); an offer or an intercom between the own
ports ends inside it (R103, R130). A frame joins the control queue as R11 says. The model's choices: a hook rise that
comes when the 1 s has passed and before the on-hook is that on-hook and a fresh off-hook (log 29), what stays inside
the station takes no tag (log 46), and a LEAVE carries target port 0, an END from OFFERING that of its offer (log 61).
-/
def Obligations.HookBreaksAndOnHook : Prop :=
  (∀ (s : State) (n : PortNo), Calm s → PortsOk s → s.fitted n = true →
     ((s.port n).offHook = true → (s.port n).breakStart = none → Answers (.hookFall n) s fun t =>
       t.port n = { s.port n with breakStart := some s.now } ∧ hookLevel t.pins n = false ∧
         Only [.pins, .ports, .outs] s t) ∧
     ((s.port n).offHook = false → Answers (.hookFall n) s fun t => Only [.pins, .outs] s t) ∧
     (∀ b, (s.port n).offHook = true → (s.port n).breakStart = some b → elapsed s.now b < 5600 →
       Answers (.hookRise n) s fun t =>
         (t.port n).breakStart = none ∧ (t.port n).pulses = min 11 ((s.port n).pulses + 1) ∧
           (t.port n).pulseEnd = some s.now ∧ (t.port n).state = (s.port n).state ∧
           ((s.port n).state = .dialing → (t.port n).firstDigit = none) ∧ Only [.pins, .ports, .outs] s t) ∧
     (∀ b, (s.port n).offHook = true → (s.port n).breakStart = some b → 5600 ≤ elapsed s.now b →
       elapsed s.now b ≤ 40000 → Answers (.hookRise n) s fun t =>
         (t.port n).breakStart = none ∧ (0 < (s.port n).pulses → (t.port n).pulses = 0) ∧
           ((s.port n).state = .dialing → 0 < (s.port n).pulses →
             (t.port n).state = .cleared ∧ (t.port n).tone = .busy ∧ (t.port n).lastCause = none) ∧
           ((s.port n).state = .dialing → (s.port n).pulses = 0 → (t.port n).state = .dialing)) ∧
     (∀ b, (s.port n).offHook = true → (s.port n).breakStart = some b → 40000 < elapsed s.now b →
       Answers (.hookRise n) s fun t =>
         (t.port n).offHook = true ∧ (t.port n).breakStart = none ∧ (t.port n).callRef = none ∧
           (t.port n).pending = none ∧ (t.port n).outReq = none ∧ (t.port n).pulses = 0 ∧ (t.port n).digit = none ∧
           (s.halted = false → (t.port n).state = .dialing ∧ (t.port n).firstDigit = some s.now ∧
             (t.port n).tone = if t.alert then .stutter else .dial) ∧
           (s.halted = true → (t.port n).state = .cleared ∧ (t.port n).tone = .fault ∧
             (t.port n).lastCause = some (.refused .halted)) ∧
           OnHookDone n s t)) ∧
  (∀ (s : State) (n : PortNo) (b : Tick), Calm s → Awake s → PortsOk s → (s.port n).offHook = true →
     (s.port n).breakStart = some b → 40000 < elapsed s.now b →
     Answers (.onHook n) s fun t =>
       (t.port n).state = .idle ∧ (t.port n).offHook = false ∧ (t.port n).callRef = none ∧
         (t.port n).pending = none ∧ (t.port n).outReq = none ∧ (t.port n).tone = .silent ∧
         (t.port n).pulses = 0 ∧ (t.port n).digit = none ∧ (t.port n).lastCause = (s.port n).lastCause ∧
         OnHookDone n s t)

/-- An off-hook: dial tone from IDLE, fault tone at a HALTED station, an answer from RINGING; it wakes a sleeping
station (R90, R93, R97, R99, R109, R171). An ANSWER to another station is handed over, or finds the control queue
full, and the port is CLEARED (R11, R96); with no holder known it is refused (R97). An answered intercom offer
connects the port, its other ringing port is IDLE, and its entry holds the answering port alone, CONNECTED; the offer
of the station's own other port is accepted inside it, and that port is CONNECTED too (R99, R102, R129). An ANSWER at
the holder itself is judged inside the station (R97, R112 to R116). The model's choices: an ACCEPT takes the next tag
of the shared counter (log 58), an acceptance inside the station none (log 46), the order of the two checks of R114
(log 68), and a record that begins SEIZING though loop current is already high (log 69). -/
def Obligations.OffHookTaken : Prop :=
  ∀ (s : State) (n : PortNo), Calm s → PortsOk s → s.fitted n = true → (s.port n).offHook = false →
    Answers (.hookRise n) s fun t =>
      (t.port n).offHook = true ∧
      (s.power.state = .watch → t.power.state = .battery ∧ t.power.frontEnd = .settling s.now) ∧
      ((s.port n).state = .idle → s.halted = false → (t.port n).state = .dialing ∧
        (t.port n).tone = (if s.alert then .stutter else .dial) ∧ (t.port n).firstDigit = some s.now) ∧
      ((s.port n).state = .idle → s.halted = true → (t.port n).state = .cleared ∧ (t.port n).tone = .fault ∧
        (t.port n).lastCause = some (.refused .halted)) ∧
      ((s.port n).state = .ringing → (s.port n).pending = some .exchange → s.hold.state = .listen →
        (t.port n).state = .waiting ∧ (t.port n).outReq = some ⟨.answer, 0, 0, 0, s.now, true⟩ ∧
          (t.port n).ringOn = false) ∧
      (∀ h, (s.port n).state = .ringing → (s.port n).pending = some .exchange → s.hold.state ≠ .listen →
        s.hold.known = some h → h ≠ s.own → s.halted = false → RequestMade .answer n h 0 s t) ∧
      ((s.port n).state = .ringing → (s.port n).pending = some .exchange → s.hold.state ≠ .listen →
        s.hold.known = none → (t.port n).state = .cleared ∧ (t.port n).tone = .busy ∧
          (t.port n).lastCause = some (.refused .noHolder) ∧ NothingSent s t) ∧
      ((s.port n).state = .ringing → (s.port n).pending = some .exchange → s.holding = true →
        s.hold.known = some s.own → JudgedInside .answer n s t) ∧
      (∀ st po ref, (s.port n).state = .ringing → (s.port n).pending = some (.offerFrom st po ref) →
        (t.port n).state = .connected ∧ (t.port n).callRef = some (.intercom st po ref s.own) ∧
          (t.port n).pending = none ∧ (t.port n).outReq = none ∧ (t.port n).ringOn = false ∧
          (t.port n).seq = 0 ∧ (t.port n).tone = .silent ∧
          (∀ m ∈ s.fittedPorts, m ≠ n → (s.port m).pending = some (.offerFrom st po ref) →
            (t.port m).state = .idle ∧ (t.port m).pending = none ∧ (t.port m).ringOn = false) ∧
          t.call.bindings = (s.call.bindings.map fun b =>
            if b.ref = ref then { b with locals := [n], connected := true } else b) ∧
          if st = s.own then
            NothingSent s t ∧ (t.port n).silence = none ∧
              ∀ m target, po = portNo m → m ≠ n → (s.port m).state = .offering →
                (s.port m).pending = some (.offered s.own target (some ref)) →
                (t.port m).state = .connected ∧ (t.port m).callRef = some (.intercom s.own (portNo n) ref s.own) ∧
                  (t.port m).pending = none ∧ (t.port m).ringBack = none ∧ (t.port m).silence = none ∧
                  (t.port m).seq = 0 ∧ (t.port m).tone = .silent
          else
            RequestHanded .accept st ⟨portNo n, (s.portCfg n).cls.toNat, po, ref, s.ports.tag⟩ s t ∧
              t.ports.tag = nextTag s.ports.tag ∧ (t.port n).silence = some s.now)

/-- The first digit, dialled by tone or by pulses (R91 to R94, R96, R97). A 9 at the holder itself is judged inside
the station (R97, R112 to R116). A bad first digit, a bad port digit and an invalid digit clear the port (R91, R93 to
R95). The port digit, or its absence for 3 s, makes the offer, which LISTEN holds (R95, R96, R97); a REQUEST that
finds the control queue full clears the port (R11, R96). An offer to the station's own other port rings it (R95, R98,
R100). On an outside call a pulse digit and a flash go to the holder as DIAL frames, at the holder itself into the
outpulse queue, and tone digits are ignored (R92, R102, R123, R124). That a tone digit is still taken as the port
digit where an open pulse count has carried the wait past 3 s is the model's choice (log 47), and so are that an offer
inside the station takes no tag (log 46), the order of the two checks of R114 (log 68) and a record that begins
SEIZING though loop current is already high (log 69). -/
def Obligations.DigitsChooseCall : Prop :=
  (∀ (s : State) (n : PortNo) (v : Fin 10) (c : Instr), Calm s → s.fitted n = true →
     (s.port n).state = .dialing → (s.port n).digit = none →
     (c = .toneDigitEvent n (.digit v) ∨
       (c = .pulseCountClose n ∧ (s.port n).pulses = (if v.val = 0 then 10 else v.val) ∧
         (s.port n).breakStart = none ∧ ∃ e, (s.port n).pulseEnd = some e ∧ 10000 ≤ elapsed s.now e)) →
     Answers c s fun t =>
       (v.val = 0 → (t.port n).state = .cleared ∧ (t.port n).tone = .busy ∧ (t.port n).lastCause = none) ∧
       (1 ≤ v.val → v.val ≤ 8 → (t.port n).state = .dialing ∧ (t.port n).digit = some v.val ∧
         (t.port n).digitAt = some s.now ∧ (t.port n).tone = .silent ∧ (t.port n).firstDigit = none) ∧
       (v.val = 9 → s.hold.state = .listen → (t.port n).state = .waiting ∧
         (t.port n).outReq = some ⟨.seize, 0, 0, 0, s.now, true⟩) ∧
       (v.val = 9 → s.hold.state ≠ .listen → s.hold.known = none → (t.port n).state = .cleared ∧
         (t.port n).lastCause = some (.refused .noHolder)) ∧
       (∀ h, v.val = 9 → s.hold.state ≠ .listen → s.hold.known = some h → h ≠ s.own → s.halted = false →
         PortsOk s → RequestMade .seize n h 0 s t) ∧
       (v.val = 9 → s.holding = true → s.hold.known = some s.own → JudgedInside .seize n s t) ∧
       (c = .pulseCountClose n → (t.port n).pulses = 0)) ∧
  (∀ (s : State) (n : PortNo) (c : Instr), Calm s → s.fitted n = true → (s.port n).state = .dialing →
     (∃ k, c = .toneDigitEvent n k ∧ (k = .star ∨ k = .hash ∨
         ((s.port n).digit.isSome = true ∧ ∃ v : Fin 10, k = .digit v ∧ v.val ≠ 1 ∧ v.val ≠ 2))) ∨
       (c = .pulseCountClose n ∧ (s.port n).breakStart = none ∧
         (∃ e, (s.port n).pulseEnd = some e ∧ 10000 ≤ elapsed s.now e) ∧
         (11 ≤ (s.port n).pulses ∨ ((s.port n).digit.isSome = true ∧ 3 ≤ (s.port n).pulses))) →
     Answers c s fun t =>
       (t.port n).state = .cleared ∧ (t.port n).tone = .busy ∧ (t.port n).lastCause = none ∧
         (t.port n).digit = none ∧ (t.port n).firstDigit = none) ∧
  (∀ (s : State) (n : PortNo) (st target : Nat) (c : Instr), Calm s → s.fitted n = true →
     (s.port n).state = .dialing → (s.port n).digit = some st → TargetSettled c n target s →
     Answers c s fun t =>
       let refusedAtHome := fun (cause : RefuseCause) (ref : Nat × Nat) =>
         (t.port n).state = .cleared ∧ (t.port n).tone = .busy ∧ (t.port n).lastCause = some (.refused cause) ∧
           (t.port n).lastRef = some ref
       let other := otherPort n
       let ref := nextRef s.call.lastRef (s.call.bindings.map (·.ref))
       (t.port n).digit = none ∧
       (s.hold.state = .listen → (t.port n).state = .offering ∧
         (t.port n).pending = some (.offered st target none) ∧
         (t.port n).outReq = some ⟨.offer, 0, st, target, s.now, true⟩ ∧ NothingSent s t) ∧
       (s.hold.state ≠ .listen → st ≠ s.own →
         (∀ e, s.peer st = some e → e.hold ≠ .listed .halted → s.halted = false → PortsOk s →
           RequestMade .offer n st target s t) ∧
         (∀ e, s.peer st = some e → e.hold = .listed .halted → refusedAtHome .halted (st, 0)) ∧
         (s.peer st = none → refusedAtHome .noStation (st, 0))) ∧
       (s.hold.state ≠ .listen → st = s.own →
         if target = portNo n then refusedAtHome .portBusy (s.own, target)
         else if s.fitted other = false then refusedAtHome .noPort (s.own, target)
         else if (s.port other).state = .idle ∧ faultLevel s.pins other = false ∧ s.halted = false then
           (t.port n).state = .offering ∧ (t.port n).pending = some (.offered s.own target (some ref)) ∧
             (t.port n).tone = .ringBack ∧ (t.port n).ringBack = some s.now ∧ (t.port other).state = .ringing ∧
             (t.port other).pending = some (.offerFrom s.own (portNo n) ref) ∧ (t.port other).ringOn = true ∧
             t.call.bindings = s.call.bindings ++ [⟨ref, s.own, portNo n, none, [other], false⟩] ∧
             t.call.lastRef = ref ∧ (PortsOk s → NothingSent s t)
         else refusedAtHome .portBusy (s.own, target))) ∧
  (∀ (s : State) (n : PortNo) (h id : Nat) (e : Tick), Calm s → s.fitted n = true → (s.port n).state = .connected →
     (s.port n).callRef = some (.outside h id) →
     (∀ (v : Fin 10), (s.port n).pulses = (if v.val = 0 then 10 else v.val) → (s.port n).breakStart = none →
       (s.port n).pulseEnd = some e → 10000 ≤ elapsed s.now e → Answers (.pulseCountClose n) s fun t =>
         (t.port n).pulses = 0 ∧ DialPassed n h id (.digit v) s t) ∧
     ((s.port n).offHook = true → (s.port n).breakStart = some e → 5600 ≤ elapsed s.now e →
       elapsed s.now e ≤ 40000 → Answers (.hookRise n) s fun t =>
         (t.port n).breakStart = none ∧ DialPassed n h id .flash s t) ∧
     (∀ k, Answers (.toneDigitEvent n k) s fun t => Only [.outs] s t))

/-- A port's timers: no first digit, no reply, no answer, no speech, and the howler's end (R93, R96, R100, R102,
R104). A local offer ends inside the station, and its other port stops ringing (R100, R130). That the END of an offer
not answered carries the target port as offered is the model's choice (log 61), and that the end of a local offer
takes no tag (log 46). -/
def Obligations.PortTimersClear : Prop :=
  ∀ (s : State) (n : PortNo) (x : Tick), Calm s → Awake s → PortsOk s → s.fitted n = true →
    ((s.port n).state = .dialing → (s.port n).firstDigit = some x → 600000 ≤ elapsed s.now x →
      Answers (.firstDigitTimeout n) s fun t => (t.port n).state = .parked ∧ (t.port n).tone = .howler ∧
        (t.port n).howler = some s.now ∧ t.cond .portParked = true) ∧
    (∀ q, (s.port n).outReq = some q → q.held = false → 20000 ≤ elapsed s.now q.made →
      Answers (.requestTimeout n) s fun t => (t.port n).state = .cleared ∧ (t.port n).outReq = none ∧
        (t.port n).tone = .busy ∧
        (t.port n).lastCause = some (.refused (if q.kind = .offer then .noStation else .noHolder))) ∧
    ((s.port n).ringBack = some x → 1200000 ≤ elapsed s.now x → Answers (.ringBackTimeout n) s fun t =>
      (t.port n).state = .cleared ∧ (t.port n).tone = .busy ∧ (t.port n).lastCause = none ∧
        (∀ st po ref, (s.port n).state = .offering → (s.port n).pending = some (.offered st po (some ref)) →
          if st = s.own then LocalOfferEnded n ref s t
          else RequestHanded .endCall st ⟨portNo n, (s.portCfg n).cls.toNat, po, ref, s.ports.tag⟩ s t ∧
            t.ports.tag = nextTag s.ports.tag)) ∧
    (∀ h id, (s.port n).callRef = some (.outside h id) → (s.port n).silence = some x → 40000 ≤ elapsed s.now x →
      Answers (.holderSilenceTimeout n) s fun t => (t.port n).state = .cleared ∧ (t.port n).callRef = none ∧
        (t.port n).lastCause = some (.cleared .holderLost) ∧ t.wire.control = s.wire.control) ∧
    (∀ st po ref l, (s.port n).callRef = some (.intercom st po ref l) → (s.port n).silence = some x →
      40000 ≤ elapsed s.now x → Answers (.farSilenceTimeout n) s fun t => (t.port n).state = .cleared ∧
        (t.port n).callRef = none ∧ (t.port n).lastCause = some (.cleared .partyLimit)) ∧
    ((s.port n).howler = some x → 1200000 ≤ elapsed s.now x → Answers (.howlerTimeout n) s fun t =>
      (t.port n).howler = none ∧ (t.port n).tone = .silent ∧ (t.port n).state = (s.port n).state ∧
        Only [.ports, .outs] s t)

/-- A ring burst, and the ringing record's end (R98, R105, R109, R149, R152, R171). Intercom ringing ends after 30 s,
and a binding left without ringing ports goes (R98, R130). The model's choices: without a line interface a ring burst has
no effect (log 42), and a station woken while battery low is asserted stays in BATTERY (log 20). -/
def Obligations.RingingBeginsAndEnds : Prop :=
  (∀ (s : State) (n : PortNo) (x : Tick), Calm s → PortsOk s → s.fitted n = true →
     (s.interface = true → Answers .ringBurst s fun t =>
       t.ports.ringing = some s.now ∧ t.fault.lastBurst = some s.now ∧ t.fault.test = none ∧
         (s.power.state = .watch → t.power.state = .battery ∧ t.power.frontEnd = .settling s.now) ∧
         ((s.port n).state = .idle → (s.portCfg n).rings = true → faultLevel s.pins n = false → s.halted = false →
           (t.port n).state = .ringing ∧ (t.port n).pending = some .exchange ∧ t.ringDrive n = true ∧
             (t.port n).ringAt = s.now) ∧
         ((s.port n).state ≠ .idle → (s.port n).pending = some .exchange →
           (t.port n).ringOn = true ∧ (t.port n).ringAt = s.now) ∧
         ((s.port n).state ≠ .idle → (s.port n).pending ≠ some .exchange → t.port n = s.port n)) ∧
     (s.interface = false → Answers .ringBurst s fun t => Only [.outs] s t) ∧
     (s.ports.ringing = some x → 240000 ≤ elapsed s.now x → Answers .exchangeRingingEnd s fun t =>
       t.ports.ringing = none ∧
         ((s.port n).pending = some .exchange → (t.port n).state = .idle ∧ (t.port n).pending = none ∧
           (t.port n).ringOn = false) ∧
         ((s.port n).pending ≠ some .exchange → t.port n = s.port n))) ∧
  (∀ (s : State) (n : PortNo) (x : Tick) (st po ref : Nat), Calm s → PortsOk s →
     (s.port n).pending = some (.offerFrom st po ref) → (s.port n).offerAt = some x → 1200000 ≤ elapsed s.now x →
     Answers (.offerRingTimeout n) s fun t =>
       (t.port n).state = .idle ∧ (t.port n).pending = none ∧ (t.port n).ringOn = false ∧
         (∀ b, s.call.bindings = [b] → b.ref = ref → b.locals = [n] → t.call.bindings = []))

/-- Ring drive and tones on their cadences (R98, R101, R104): a tone begins on, dial tone and the howler go on without a
break, and each other tone is on and off by the lengths of its cadence, ring-back 1 s on and 2 s off. That the howler's
level rises in its first 250 ms and falls in the next is the model's choice (log 65). A loop fault sets PORT_SHORT and
holds the port's ring drive off (R105). -/
def Obligations.CadencesAndLoopFaults : Prop :=
  (∀ (s : State) (n : PortNo), Calm s →
     ((s.port n).pending = some .exchange → (s.port n).ringOn = true → 40000 ≤ elapsed s.now (s.port n).ringAt →
       Answers (.ringDriveTimeout n) s fun t =>
         t.port n = { s.port n with ringOn := false } ∧ Only [.ports, .outs] s t) ∧
     (∀ st po ref, (s.port n).pending = some (.offerFrom st po ref) →
       (if (s.port n).ringOn then 40000 else 80000) ≤ elapsed s.now (s.port n).ringAt →
       Answers (.intercomRingCadence n) s fun t =>
         t.port n = { s.port n with ringOn := !(s.port n).ringOn, ringAt := s.now } ∧ Only [.ports, .outs] s t) ∧
     (∀ len, (toneSteps (s.port n).tone)[(s.port n).toneStep]? = some len →
       (len : Int) ≤ elapsed s.now (s.port n).toneAt → Answers (.toneCadence n) s fun t =>
         t.port n = { s.port n with
           toneStep := ((s.port n).toneStep + 1) % (toneSteps (s.port n).tone).length, toneAt := s.now } ∧
         Only [.ports, .outs] s t) ∧
     ((s.port n).toneStep = 0 ∨ (s.port n).tone = .dial ∨ (s.port n).tone = .howler →
       s.tonePlayed n = (s.port n).tone) ∧
     (∀ x ∈ ([(.stutter, 0, 4000, .silent), (.stutter, 1, 4000, .stutter), (.busy, 0, 20000, .silent),
         (.busy, 1, 20000, .busy), (.ringBack, 0, 40000, .silent), (.ringBack, 1, 80000, .ringBack),
         (.howler, 0, 10000, .howler), (.howler, 1, 10000, .howler), (.fault, 0, 10000, .silent),
         (.fault, 1, 10000, .fault), (.fault, 2, 10000, .silent), (.fault, 3, 50000, .fault)] :
           List (Tone × Nat × Nat × Tone)),
       (s.port n).tone = x.1 → (s.port n).toneStep = x.2.1 → (x.2.2.1 : Int) ≤ elapsed s.now (s.port n).toneAt →
       Answers (.toneCadence n) s fun t => t.tonePlayed n = x.2.2.2 ∧ (t.port n).toneAt = s.now ∧
         (x.1 = .howler → t.toneLevel n = if x.2.1 = 0 then .falling else .rising))) ∧
  (∀ (s : State) (n : PortNo) (level : Bool), Calm s → Answers (.loopFaultChange n level) s fun t =>
     faultLevel t.pins n = level ∧ t.cond .portShort = t.anyShort ∧
       (s.fitted n = true → level = true → t.cond .portShort = true ∧ t.ringDrive n = false) ∧
       (t.port n).state = (s.port n).state ∧ t.call = s.call)

/-! ## The exchange line (06) -/

/-- Loop current: SEIZED, LINE_DEAD cleared, the first item that waited in SEIZING sent, and the loss timer (R118,
R119, R123, R124, R134). Outpulsing: breaks, makes, the
pause, and the next item (R119, R124). -/
def Obligations.ExchangeLoop : Prop :=
  (∀ (s : State) (r : CallRecord), Calm s → s.call.record = some r →
     (r.seized = false → s.holding = true → Answers .loopCurrentRise s fun t =>
       t.cond .lineDead = false ∧
       (r.queue = [] ∨ r.outpulse ≠ .idle → t.call.record = some { r with seized := true, seize := none }) ∧
       (∀ v rest, r.queue = .digit v :: rest → r.outpulse = .idle → t.loopClosed = false ∧
         t.call.record = some { r with
           seized := true, seize := none, queue := rest
           outpulse := .breaking ((if v.val = 0 then 10 else v.val) - 1) 2400 s.now }) ∧
       (∀ rest, r.queue = .flash :: rest → r.outpulse = .idle → t.loopClosed = false ∧
         t.call.record = some { r with
           seized := true, seize := none, queue := rest, outpulse := .breaking 0 10000 s.now })) ∧
     (r.seized = true → Answers .loopCurrentRise s fun t =>
       t.call.record = some { r with loss := none } ∧ Only [.pins, .call, .outs] s t) ∧
     (Answers .loopCurrentFall s fun t =>
       (t.call.record.map (·.loss)) =
           some (if r.seized && s.loopClosed then some (r.loss.getD s.now) else none) ∧
         Only [.pins, .call, .outs] s t)) ∧
  (∀ (s : State) (r : CallRecord) (x : Tick), Calm s → s.call.record = some r →
     (∀ left len, r.outpulse = .breaking left len x → (len : Int) ≤ elapsed s.now x →
       Answers .outpulseBreakEnd s fun t =>
         (t.call.record.map (·.outpulse)) = some (if left = 0 then .pausing s.now else .making left s.now) ∧
           t.loopClosed = true ∧ Only [.call, .outs] s t) ∧
     (∀ left, r.outpulse = .making left x → 1600 ≤ elapsed s.now x → Answers .outpulseMakeEnd s fun t =>
       (t.call.record.map fun q => (q.outpulse, q.loss)) = some (.breaking (left - 1) 2400 s.now, none) ∧
         t.loopClosed = false ∧ Only [.call, .outs] s t) ∧
     (r.outpulse = .pausing x → 28000 ≤ elapsed s.now x → r.seized = true → Answers .outpulsePauseEnd s fun t =>
       (r.queue = [] → (t.call.record.map (·.outpulse)) = some .idle) ∧
       (∀ v rest, r.queue = .digit v :: rest → (t.call.record.map fun q => (q.outpulse, q.queue)) =
         some (.breaking ((if v.val = 0 then 10 else v.val) - 1) 2400 s.now, rest)) ∧
       (∀ rest, r.queue = .flash :: rest → (t.call.record.map fun q => (q.outpulse, q.queue)) =
         some (.breaking 0 10000 s.now, rest)) ∧ Only [.call, .outs] s t))

/-- A LEAVE removes its port from the call it names, or from any call with reference 0; the last party's LEAVE ends
the record (R117, R122). A failed seize and a far-end clear end the record, and its parties are told, those of other
stations by CLEAR frames in the order of the list, a port of the holder itself by a CLEAR handed over inside the
station (R11, R118, R119, R122, R134). A party whose stream has stopped is removed with a CLEAR of PARTY_LIMIT, at the
holder's own port too (R120, R122). A degraded holder yields when its record ends, however it ends (R38, R40), where
its control queue has room for the CLEARs and the YIELD. That a seize fails without a rise of loop current, though its
level was high, is the model's choice (log 69). -/
def Obligations.RecordEnds : Prop :=
  (∀ (s : State) (h : Header) (m : RequestMsg) (start : Tick), Calm s → Hearing s start → ForUs s h →
     Familiar s h → s.hold.degraded = false →
     Answers (.leave h m) s fun t =>
       (∀ r, s.call.record = some r → s.holding = true → m.ref = 0 ∨ m.ref = r.id →
         (if r.parties.all (fun p => decide (p.station = h.src) && decide (p.port = m.port)) then
           t.call.record = none ∧ t.loopClosed = false
         else (t.call.record.map (·.parties)) =
           some (r.parties.filter fun p => !(decide (p.station = h.src) && decide (p.port = m.port))))) ∧
       (s.call.record = none ∨ s.holding = false ∨
           (∀ r, s.call.record = some r → m.ref ≠ 0 ∧ m.ref ≠ r.id) → t.call = s.call) ∧
       t.wire.control = s.wire.control) ∧
  (∀ (s : State) (r : CallRecord) (x : Tick), Calm s → s.call.record = some r → RecordOk s →
     s.hold.degraded = false →
     (r.seize = some x → 40000 ≤ elapsed s.now x → Answers .seizeTimeout s fun t =>
       t.call.record = none ∧ t.loopClosed = false ∧ t.cond .lineDead = true ∧ PartiesTold r .lineFault s t) ∧
     (r.loss = some x → 16000 ≤ elapsed s.now x → Answers .lossTimeout s fun t =>
       t.call.record = none ∧ t.loopClosed = false ∧ PartiesTold r .farEnd s t)) ∧
  (∀ (s : State) (r : CallRecord) (p : Party), Calm s → s.call.record = some r → p ∈ r.parties →
     40000 ≤ elapsed s.now p.silence → s.hold.degraded = false →
     Answers (.partySilenceTimeout p.station p.port) s fun t =>
       (if r.parties.all (fun q => decide (q.station = p.station) && decide (q.port = p.port)) then
           t.call.record = none
         else (t.call.record.map (·.parties)) =
           some (r.parties.filter fun q => !(decide (q.station = p.station) && decide (q.port = p.port)))) ∧
       (p.station ≠ s.own → FrameHanded p.station (.clear ⟨r.id, p.port, .partyLimit⟩) s t) ∧
       (p.station = s.own → PortsOk s → OwnPartyCleared p r.id .partyLimit s t ∧ t.wire.control = s.wire.control)) ∧
  (∀ (s : State) (r : CallRecord) (c : Instr), Calm s → RecordOk s → s.call.record = some r →
     s.hold.degraded = true → s.wire.control.length ≤ 4 →
     (∃ h m start, c = .leave h m ∧ Hearing s start ∧ ForUs s h ∧ Familiar s h ∧ (m.ref = 0 ∨ m.ref = r.id) ∧
         r.parties.all (fun p => decide (p.station = h.src) && decide (p.port = m.port)) = true) ∨
       (∃ p ∈ r.parties, c = .partySilenceTimeout p.station p.port ∧ 40000 ≤ elapsed s.now p.silence ∧
         r.parties.all (fun q => decide (q.station = p.station) && decide (q.port = p.port)) = true) ∨
       (c = .seizeTimeout ∧ ∃ x, r.seize = some x ∧ 40000 ≤ elapsed s.now x) ∨
       (c = .lossTimeout ∧ ∃ x, r.loss = some x ∧ 16000 ≤ elapsed s.now x) →
     Answers c s fun t =>
       t.call.record = none ∧ t.loopClosed = false ∧ t.hold.state = .yielding ∧ t.hold.degraded = false ∧
         t.sup.state = .off ∧ t.report.queue = [] ∧ newEntry (some 0) .yield s.now ∈ t.wire.control ∧
         ∀ p ∈ r.parties, ∀ cause : ClearCause,
           (c = .lossTimeout ∧ cause = .farEnd) ∨ (c = .seizeTimeout ∧ cause = .lineFault) ∨
             (c = .partySilenceTimeout p.station p.port ∧ cause = .partyLimit) →
           OwnPartyCleared p r.id cause s t ∧ (p.station ≠ s.own →
             newEntry (some p.station) (.clear ⟨r.id, p.port, cause⟩) s.now ∈ t.wire.control))

/-! ## Faults, tests, the lamp (07, 08) -/

/-- A test's steps and its completion (R134, R149, R151). -/
def Obligations.TestStepsComplete : Prop :=
  ∀ (s : State) (q : TestRun) (out : Bool), Calm s → s.holding = true → s.fault.test = some q →
    40000 ≤ elapsed s.now q.start →
    Answers (.testStepEnd out) s fun t =>
      (q.step < 3 → t.fault.test = some ⟨q.step + 1, q.results ++ [out], s.now⟩ ∧ Only [.fault, .outs] s t) ∧
      (∀ a b, q.step = 3 → q.results = [a, b] →
        t.fault.test = none ∧ t.cond .lineDead = a ∧ t.cond .lineLeaky = b ∧ t.cond .lineForeign = out ∧
          (s.cfg.testInterval = 0 → t.fault.due = none ∧ t.fault.rest = 0) ∧
          (1 ≤ s.cfg.testInterval → s.cfg.testInterval ≤ 12 →
            t.fault.due = some (s.now + ticks (144000000 * s.cfg.testInterval)) ∧ t.fault.rest = 0) ∧
          (12 < s.cfg.testInterval → t.fault.due = some (s.now + ticks 1728000000) ∧
            t.fault.rest = 144000000 * s.cfg.testInterval - 1728000000))

/-- An armed trigger's rise creates a record, a further rise counts against it, and a fall after REPORTED re-arms the
trigger (R138 to R141, R143). A full fault list makes room by removing its oldest REPORTED record, else, for a severity
of 1 or 2, its oldest NEW record of severity 3, whose trigger acts; else the rise is dropped (R141, R144). At the holder
a further rise rewrites the entry of a SENT record in the report queue (R158): here over `setCond`, the operation every
change of a condition goes through. -/
def Obligations.TriggerRiseAndFall : Prop :=
  ∀ (s : State) (c : Cond) (b : Bool) (n : Nat) (t : TrigCfg) (r : TrigRun), s.cond c ≠ b →
    s.cfg.triggers[n]? = some t → s.fault.runs[n]? = some r → n < 8 → t.enabled = true →
    (∀ m u, s.cfg.triggers[m]? = some u → m ≠ n → u.enabled = false) →
    let v := writeCond s.fault.conds c b
    let s' := setCond c b s
    s'.fault.conds = v ∧
      (exprValue t v = r.last → s'.fault.list = s.fault.list ∧ s'.fault.runs = s.fault.runs) ∧
      (exprValue t v = true → r.last = false → r.armed = true → s.fault.list.length < 16 →
        s'.fault.list = s.fault.list ++
          [⟨s.own, n, t.severity, v, s.power.startNumber, s.now, 1, 0, .new⟩] ∧
        s'.fault.runs[n]? = some ⟨true, false, r.rearm⟩) ∧
      (exprValue t v = true → r.last = false → r.armed = false → s.holding = false →
        s'.fault.list = s.fault.list.map fun x =>
          if x.trigger = n ∧ x.state ≠ .reported then { x with count := min 255 (x.count + 1) } else x) ∧
      (exprValue t v = true → r.last = false → r.armed = true → 16 ≤ s.fault.list.length →
        let added : FaultRecord := ⟨s.own, n, t.severity, v, s.power.startNumber, s.now, 1, 0, .new⟩
        let spare := fun (x : FaultRecord) => x.state = .new ∧ x.severity = 3
        (∀ l x l', s.fault.list = l ++ x :: l' → x.state = .reported → (∀ y ∈ l, y.state ≠ .reported) →
          s'.fault.list = l ++ l' ++ [added] ∧ s'.fault.runs[n]? = some ⟨true, false, r.rearm⟩) ∧
        (∀ l x l', s.fault.list = l ++ x :: l' → (∀ y ∈ s.fault.list, y.state ≠ .reported) → t.severity ≤ 2 →
          spare x → (∀ y ∈ l, ¬ spare y) →
          s'.fault.list = l ++ l' ++ [added] ∧ s'.fault.runs[n]? = some ⟨true, false, r.rearm⟩ ∧
          ∀ q, x.trigger ≠ n → s.fault.runs[x.trigger]? = some q → s'.fault.runs[x.trigger]? =
            some (if q.last then { q with rearm := true } else { q with armed := true })) ∧
        ((∀ y ∈ s.fault.list, y.state ≠ .reported) → (3 ≤ t.severity ∨ ∀ y ∈ s.fault.list, ¬ spare y) →
          s'.fault.list = s.fault.list ∧ s'.fault.runs[n]? = some ⟨true, true, r.rearm⟩)) ∧
      (∀ x, exprValue t v = true → r.last = false → r.armed = false → s.holding = true → x ∈ s.fault.list →
        x.trigger = n → x.state = .sent → (∀ y ∈ s.fault.list, y.trigger = n → y.state ≠ .reported → y = x) →
        s.report.queue.any (fun e => decide (x.origin = e.origin) && decide (x.trigger = e.trigger)) = true →
        let counted := { x with count := min 255 (x.count + 1), sentCount := min 255 (x.count + 1) }
        s'.fault.list = (s.fault.list.map fun y => if y.trigger = n ∧ y.state ≠ .reported then counted else y) ∧
          s'.report.queue = (s.report.queue.map fun e =>
            if x.origin = e.origin ∧ x.trigger = e.trigger then counted else e)) ∧
      (exprValue t v = false → r.last = true → s'.fault.list = s.fault.list ∧
        s'.fault.runs[n]? = some (if r.rearm then ⟨false, true, false⟩ else ⟨false, r.armed, false⟩))

/-- A fall: a trigger with re-arm pending set clears it and sets its armed flag, one without is unchanged but for its
last value, and nothing else changes (R140). -/
def Obligations.FallRearmsTrigger : Prop :=
  ∀ (s : State) (n : Nat) (t : TrigCfg) (r : TrigRun), s.cfg.triggers[n]? = some t → s.fault.runs[n]? = some r →
    t.enabled = true → r.last = true → exprValue t s.fault.conds = false →
    evalTrigger s n = { s with fault := { s.fault with
      runs := s.fault.runs.set n (if r.rearm then ⟨false, true, false⟩ else ⟨false, r.armed, false⟩) } }

/-- The lamp shows the worst outstanding record at every settled station, and switches on its cadence: it begins lit, and
each part has the length R147 gives it. That a switch told before that length has passed has no effect is the model's
choice (log 2). -/
def Obligations.LampFollowsWorst : Prop :=
  ∀ s : State, Calm s →
    (s.fault.lamp = if s.halted then .double
      else if s.fault.list.any (fun r => decide (r.severity = 1) && decide (r.state ≠ .reported)) then .steady
      else if s.fault.list.any (fun r => decide (r.severity = 2) && decide (r.state ≠ .reported)) then .fast
      else if s.fault.list.any (fun r => decide (r.severity = 3) && decide (r.state ≠ .reported)) then .slow
      else .off) ∧
    (∀ len, (lampSteps s.fault.lamp)[s.fault.lampStep]? = some len → (len : Int) ≤ elapsed s.now s.fault.lampAt →
      Answers .lampCadence s fun t =>
        t.fault = { s.fault with
          lampStep := (s.fault.lampStep + 1) % (lampSteps s.fault.lamp).length, lampAt := s.now } ∧
        Only [.fault, .outs] s t) ∧
    (s.fault.lamp = .off → s.lampOn = false) ∧ (s.fault.lamp = .steady → s.lampOn = true) ∧
    (s.fault.lamp ≠ .off → s.fault.lampStep = 0 → s.lampOn = true) ∧
    (∀ x ∈ ([(.fast, 0, 8000, 1, false), (.fast, 1, 8000, 0, true), (.slow, 0, 40000, 1, false),
        (.slow, 1, 40000, 0, true), (.double, 0, 8000, 1, false), (.double, 1, 8000, 2, true),
        (.double, 2, 8000, 3, false), (.double, 3, 56000, 0, true)] : List (LampPattern × Nat × Nat × Nat × Bool)),
      s.fault.lamp = x.1 → s.fault.lampStep = x.2.1 →
      ((x.2.2.1 : Int) ≤ elapsed s.now s.fault.lampAt → Answers .lampCadence s fun t =>
        t.fault.lamp = x.1 ∧ t.fault.lampStep = x.2.2.2.1 ∧ t.fault.lampAt = s.now ∧ t.lampOn = x.2.2.2.2) ∧
      (elapsed s.now s.fault.lampAt < (x.2.2.1 : Int) → Answers .lampCadence s fun t => Only [.outs] s t))

/-! ## The service port (10) -/

/-- The five read requests are answered with a picture of the station, field by field, which changes nothing else: at a
holder STATUS has the report queue length and CALLS the line call record, elsewhere neither (R181). LINE-TEST
is judged at once, FORGET is accepted and empties or trims the lost set, RESTART is accepted (R27, R150, R182). That a
ring burst exactly 10 s old, 400 000 ticks, is recent and one ahead of now is not is the model's choice (log 21). -/
def Obligations.RequestsAnswered : Prop :=
  (∀ s : State, Calm s → s.svc.sending = none →
     (Answers .status s fun t => t.outs = [.response (.status {
       id := s.straps.id, modem := s.straps.modem, fromMemory := s.cfg.fromMemory, startNumber := s.power.startNumber
       now := s.now, power := s.power.state, hold := s.hold.state, halt := s.hold.halt, known := s.hold.known
       eligible := s.hold.eligible, sup := s.sup.state, stored := s.sup.stored, inUse := s.sup.inUse
       broadband := decide (s.sup.state = .synced), holdTime := s.sup.holdTime, conds := s.fault.conds
       lamp := s.fault.lamp
       ports := s.fittedPorts.map fun n => ⟨(s.port n).state, (s.port n).lastCause, (s.port n).lastRef⟩
       test := s.fault.test, due := s.fault.due
       reportLength := if s.hold.state = .holding then some s.report.queue.length else none
       outstanding := s.report.outstanding })] ∧ Only [.svc, .outs] s t) ∧
     (Answers .roster s fun t =>
       t.outs = [.response (.roster s.hold.roster s.hold.lost)] ∧ Only [.svc, .outs] s t) ∧
     (Answers .tracks s fun t => t.outs = [.response (.tracks ⟨slotState s.noise.a, s.noise.a⟩
       ⟨slotState s.noise.b, s.noise.b⟩ s.noise.tracked s.noise.candidates s.noise.unmatched)] ∧
       Only [.svc, .outs] s t) ∧
     (Answers .faults s fun t =>
       t.outs = [.response (.faults s.fault.list s.fault.runs)] ∧ Only [.svc, .outs] s t) ∧
     (Answers .calls s fun t => t.outs = [.response (.calls
       (if s.hold.state = .holding then s.call.record.map fun r =>
         { id := r.id, seized := r.seized, priv := r.priv, parties := r.parties.map fun p => (p.station, p.port)
           outpulse := r.queue.length }
       else none)
       s.call.lastId s.call.bindings (s.fittedPorts.map fun n => ((s.port n).callRef, (s.port n).pending)))] ∧
       Only [.svc, .outs] s t) ∧
     (∀ name, Answers (.unknownRequest name) s fun t =>
       t.outs = [.response (.refused (.unknown name) .unknown)] ∧ Only [.svc, .outs] s t)) ∧
  (∀ s : State, Calm s → s.svc.sending = none →
     (Answers .lineTest s fun t =>
       if s.holding = false then t.outs = [.response (.refused .lineTest .notHolder)] ∧ Only [.svc, .outs] s t
       else if s.fault.test.isSome = true then
         t.outs = [.response (.refused .lineTest .busy)] ∧ Only [.svc, .outs] s t
       else if s.call.record.isSome = true ∨ (s.fault.lastBurst.any fun b =>
           decide (0 ≤ elapsed s.now b) && decide (elapsed s.now b ≤ 400000)) = true then
         t.outs = [.response (.refused .lineTest .lineInUse)] ∧ Only [.svc, .outs] s t
       else t.outs = [.response (.accepted .lineTest)] ∧ t.fault.test = some ⟨1, [], s.now⟩ ∧
         Only [.svc, .fault, .outs] s t) ∧
     (∀ id, Answers (.forget id) s fun t =>
       (8 < id → .response (.refused (.forget id) .unknown) ∈ t.outs ∧ t.hold.lost = s.hold.lost) ∧
       (id ≤ 8 → .response (.accepted (.forget id)) ∈ t.outs) ∧
       (id = 0 → t.hold.lost = [] ∧ t.cond .peerLost = false) ∧
       (1 ≤ id → id ≤ 8 → t.hold.lost = (s.hold.lost.filter fun i => decide (i ≠ id)) ∧
         t.cond .peerLost = !t.hold.lost.isEmpty) ∧ t.hold.roster = s.hold.roster) ∧
     (Answers .restart s fun t =>
       t.outs = [.response (.accepted .restart)] ∧ t.svc.restart = true ∧ Only [.svc, .outs] s t))

/-- One response at a time: a request waits behind it, one more waits to be refused, and at its end the announced
restart begins, or the next request is answered as if it came then, or is refused with BUSY; before completion STATUS
and RESTART alone are answered (R181, R182). The model's choices: a restart begins with the placeholders of log 7, a
frame in transmission then goes on as log 54 says, and the straps are read at the response's end; requests before
completion are answered at once or refused (log 40). In the last-gasp window and at a stopped chip the port takes
no request, and the end of a response does nothing (R172, R175, R181). -/
def Obligations.ServiceOneAtATime : Prop :=
  (∀ (s : State) (x : SvcResp), Calm s → s.svc.sending = some x →
     (∀ c q, svcRequest c = some q → Answers c s fun t =>
       t.svc.waiting = s.svc.waiting ++ [⟨q, !s.svc.waiting.any (·.take)⟩] ∧ t.outs = [] ∧
         Only [.svc, .outs] s t) ∧
     (∀ p, s.svc.restart = true → Answers (.serviceResponseEnd p) s fun t =>
       t.phase = .startUp ∧ t.now = 0 ∧ t.power.startNumber = min 255 (s.power.startNumber + 1) ∧ Starting t) ∧
     (∀ p, s.svc.restart = false → s.svc.waiting = [] → Answers (.serviceResponseEnd p) s fun t =>
       t.svc.sending = none ∧ t.outs = [] ∧ Only [.svc, .outs] s t) ∧
     (∀ p c q rest, s.svc.restart = false → svcRequest c = some q → s.svc.waiting = ⟨q, true⟩ :: rest →
       Answers (.serviceResponseEnd p) s fun t =>
         t.svc.waiting = rest ∧ (∃ r, t.svc.sending = some r ∧ .response r ∈ t.outs) ∧
           exec c { s with svc := { s.svc with sending := none, waiting := rest } } = .next t) ∧
     (∀ p q rest, s.svc.restart = false → s.svc.waiting = ⟨q, false⟩ :: rest →
       Answers (.serviceResponseEnd p) s fun t =>
         t.outs = [.response (.refused q .busy)] ∧ t.svc.sending = some (.refused q .busy) ∧ t.svc.waiting = rest ∧
           Only [.svc, .outs] s t)) ∧
  (∀ s : State, s.phase = .startUp → s.svc.sending = none →
     (Answers .status s fun t =>
       t.outs = [.response (.starting s.power.startNumber)] ∧ Only [.svc, .outs] s t) ∧
     (Answers .restart s fun t =>
       t.outs = [.response (.accepted .restart)] ∧ t.svc.restart = true ∧ Only [.svc, .outs] s t) ∧
     (∀ c q, svcRequest c = some q → q ≠ .status → q ≠ .restart → Answers c s fun t =>
       t.outs = [.response (.refused q .busy)] ∧ Only [.svc, .outs] s t)) ∧
  (∀ (s : State) (c : Instr), s.phase = .stopped ∨ (s.phase = .running ∧ s.power.window.isSome = true) →
     (svcRequest c).isSome = true ∨ (∃ p, c = .serviceResponseEnd p) → exec c s = .next s.quiet)

/-! ## Invariants -/

/-- Every step leaves a running station settled: no level rule is left undone (R30, R38, R28, R104, R133, R168, R154,
R158, R86, R81, R124, R119, R147, R148). That they have settled before a command ends is the model's choice (log 10), and
`Calm` holds three more of its choices: battery low and the idle timer (log 20), a head addressed at once (log 32), and
the report controller's turn (log 36). -/
def Obligations.CalmKept : Prop :=
  ∀ s t : State, (s.active = true → Calm s) → step s = .next t → t.active = true → Calm t

/-- Every step keeps the values of a start until it completes (R46, R68, R88, R89, R110, R162, R165), and the bounds
of queues, tracks, lists and the record (section 1.3, R50, R55, R110, R144, R157), and what ports and bindings hold goes
with the ports' states (R89, R93, R96 to R103, R127 to R130). The model's choices in the first: placeholders stand for the
power state, the hold state and the eligibility (log 7), no block takes an event before completion (log 14), and a frame
that outlives a restart stays as log 54 says. -/
def Obligations.BoundsKept : Prop :=
  (∀ s t : State, (s.phase = .startUp → Starting s) → step s = .next t → t.phase = .startUp → Starting t) ∧
  (∀ s t : State, QueueBounds s → step s = .next t → QueueBounds t) ∧
  (∀ s t : State, TracksOk s → step s = .next t → TracksOk t) ∧
  (∀ s t : State, RecordOk s → step s = .next t → RecordOk t) ∧
  (∀ s t : State, ListBounds s → step s = .next t → ListBounds t) ∧
  (∀ s t : State, PortsOk s → step s = .next t → PortsOk t)

/-- Every well-formed command keeps the roster in id order, within 1 to 8 and without the own id (R22, R23, R26). -/
def Obligations.RosterOkKept : Prop :=
  ∀ (c : Instr) (s : State), WellFormed c = true → RosterOk s → Answers c s RosterOk

/-- The invariants hold at reset. The values `Starting` gives the power state, the hold state, the eligibility and the
configuration there are placeholders, the model's choice (log 7). -/
def Obligations.InvariantsAtReset : Prop :=
  Starting State.reset ∧ QueueBounds State.reset ∧ TracksOk State.reset ∧ RecordOk State.reset ∧
    ListBounds State.reset ∧ PortsOk State.reset ∧ RosterOk State.reset
end

