-- ==== Sys2Proof/Laws/Contents.lean ====
section
/-! SUPPORT. The frame that starts holds what the statements say of the state at its start (01: R4; 02: R37, R40, R44;
09: R174). -/

namespace Sys2Proof.Machine

theorem slotMsg_eq (now : Tick) (slot : Option Track) :
    slotMsg now slot = (slot.bind fun k =>
      if slotState slot = .locked then some (trackMsg now k) else none).toList := by
  cases slot with
  | none => rfl
  | some k => cases h : k.lender <;> by_cases c : 4 ≤ k.conf <;> simp [slotMsg, slotState, Track.lockedOwn, h, c]

theorem lentTracks_eq (s : State) : lentTracks s = startTracks s := by
  have e : startTracks s = [s.noise.a, s.noise.b].filterMap fun slot => slot.bind fun k =>
      if slotState slot = .locked then some (trackMsg s.now k) else none := rfl
  rw [e, lentTracks, slotMsg_eq, slotMsg_eq, List.filterMap_cons, List.filterMap_cons, List.filterMap_nil]
  generalize (s.noise.a.bind fun k => if slotState s.noise.a = .locked then some (trackMsg s.now k) else none) = x
  generalize (s.noise.b.bind fun k => if slotState s.noise.b = .locked then some (trackMsg s.now k) else none) = y
  cases x <;> cases y <;> rfl

theorem holderBlock_eq (s : State) : holderBlock s = startHolderBlock s := by
  cases h : s.call.record <;> simp [holderBlock, startHolderBlock, h]

theorem payloadNow_eq (s : State) (b : Body) : payloadNow s b = startContents s b := by
  cases b with
  | beacon => simp [payloadNow, startContents, lentTracks_eq, holderBlock_eq, State.holding, beaconFixed, startFixed]
  | yield => simp [payloadNow, startContents, lentTracks_eq, byteOf]
  | lastgasp r held => simp [payloadNow, startContents, lentTracks_eq]
  | _ => rfl

end Sys2Proof.Machine
end

