-- ==== Sys2Proof/Laws/Due.lean ====
section
/-! SUPPORT. Which commands a tick brings: those of the timers that have run out (09: R163), by the words the statements
use. -/

namespace Sys2Proof.Machine

theorem mem_dueIf {b : Bool} {i c : Instr} : c ∈ dueIf b i ↔ b = true ∧ c = i := by cases b <;> simp [dueIf]

theorem mem_fittedPorts {s : State} {n : PortNo} : n ∈ s.fittedPorts ↔ s.fitted n = true := by
  cases n <;> by_cases h : s.cfg.portCount = 2 <;> simp [State.fittedPorts, State.fitted, h]

theorem mem_dueParties {s : State} {c : Instr} :
    c ∈ dueParties s ↔ ∃ st po, c = .partySilenceTimeout st po ∧ duePartySilence st po s = true := by
  unfold dueParties
  cases h : s.call.record with
  | none => simp [duePartySilence, h]
  | some r =>
    simp only [List.mem_map, List.mem_filter]
    constructor
    · rintro ⟨p, ⟨_, due⟩, rfl⟩
      exact ⟨_, _, rfl, due⟩
    · rintro ⟨st, po, rfl, due⟩
      have found := due
      simp only [duePartySilence, h, List.any_eq_true, isParty, Bool.and_eq_true, decide_eq_true_eq] at found
      obtain ⟨p, mem, ⟨rfl, rfl⟩, _⟩ := found
      exact ⟨p, ⟨mem, due⟩, rfl⟩

/-! ## Each timer -/

theorem ranOut_reached (s : State) (t : Tick) (len : Nat) : ranOut s.now t len = reached s len (some t) := rfl

theorem timerOut_reached (s : State) (t : Option Tick) (len : Nat) : timerOut s.now t len = reached s len t := by
  cases t <;> rfl

theorem dueIdle_eq (s : State) : dueIdle s = blockTimerOut s .idleTimerExpiry := by
  simp [dueIdle, State.idleHolds, blockTimerOut, idleRuns, State.live, portIdle, State.holding, timerOut_reached,
    Config.idleTime, Bool.and_assoc]

theorem dueMailbox_eq (s : State) : dueMailbox s = blockTimerOut s .mailboxTimeout := by
  unfold dueMailbox blockTimerOut
  cases s.sup.mailbox <;> rfl

theorem dueReceipt_eq (s : State) : dueReceipt s = blockTimerOut s .receiptTimeout := by
  unfold dueReceipt blockTimerOut
  cases s.report.outstanding <;> rfl

theorem dueLamp_eq (s : State) : dueLamp s = blockTimerOut s .lampCadence := by
  have same : lampSteps s.fault.lamp = lampParts s.fault.lamp := by cases s.fault.lamp <;> rfl
  unfold dueLamp blockTimerOut
  rw [same]
  cases (lampParts s.fault.lamp)[s.fault.lampStep]? <;> rfl

theorem dueSeize_eq (s : State) : dueSeize s = blockTimerOut s .seizeTimeout := by
  unfold dueSeize blockTimerOut
  cases s.call.record <;> simp [timerOut_reached, Config.seizeTime]

theorem dueLoss_eq (s : State) : dueLoss s = blockTimerOut s .lossTimeout := by
  unfold dueLoss blockTimerOut
  cases s.call.record <;> simp [timerOut_reached, Config.lossTime]

theorem dueBreak_eq (s : State) : dueBreak s = blockTimerOut s .outpulseBreakEnd := by
  unfold dueBreak blockTimerOut
  cases s.call.record with
  | none => rfl
  | some r => obtain ⟨_, _, _, _, _, _, _, _, outpulse⟩ := r; cases outpulse <;> rfl

theorem dueMake_eq (s : State) : dueMake s = blockTimerOut s .outpulseMakeEnd := by
  unfold dueMake blockTimerOut
  cases s.call.record with
  | none => rfl
  | some r => obtain ⟨_, _, _, _, _, _, _, _, outpulse⟩ := r; cases outpulse <;> rfl

theorem duePause_eq (s : State) : duePause s = blockTimerOut s .outpulsePauseEnd := by
  unfold duePause blockTimerOut
  cases s.call.record with
  | none => rfl
  | some r => obtain ⟨_, _, _, _, _, _, _, _, outpulse⟩ := r; cases outpulse <;> rfl

theorem duePartySilence_eq (s : State) (st po : Nat) :
    duePartySilence st po s = blockTimerOut s (.partySilenceTimeout st po) := by
  unfold duePartySilence blockTimerOut
  cases s.call.record <;> rfl

theorem dueCapture_eq (s : State) (n : SlotName) : dueCapture n s = blockTimerOut s (.captureExpiry n) := by
  simp only [dueCapture, blockTimerOut]
  cases s.noise.slot n <;> rfl

theorem dueRefresh_eq (s : State) (n : SlotName) : dueRefresh n s = blockTimerOut s (.refreshExpiry n) := by
  simp only [dueRefresh, blockTimerOut]
  cases s.noise.slot n with
  | none => rfl
  | some k => obtain ⟨_, _, _, _, lender, _, _⟩ := k; cases lender <;> rfl

theorem dueWindowOpen_eq (s : State) (n : SlotName) :
    dueWindowOpen n s = (s.noise.slot n).any fun k => !k.winOpen && quietNow s k := by
  unfold dueWindowOpen
  cases s.noise.slot n <;> rfl

theorem dueWindowClose_eq (s : State) (n : SlotName) :
    dueWindowClose n s = (s.noise.slot n).any fun k => k.winOpen && !quietNow s k := by
  unfold dueWindowClose
  cases s.noise.slot n <;> rfl

theorem dueOnHook_eq (s : State) (n : PortNo) : (s.fitted n && dueOnHook n s) = blockTimerOut s (.onHook n) := by
  simp only [dueOnHook, blockTimerOut, atPort]
  cases (s.port n).breakStart <;> rfl

theorem dueCount_eq (s : State) (n : PortNo) :
    (s.fitted n && dueCount n s) = blockTimerOut s (.pulseCountClose n) := by
  simp only [dueCount, timerOut_reached, blockTimerOut, atPort]
  rfl

theorem dueFirstDigit_eq (s : State) (n : PortNo) :
    (s.fitted n && dueFirstDigit n s) = blockTimerOut s (.firstDigitTimeout n) := by
  simp only [dueFirstDigit, timerOut_reached, blockTimerOut, atPort]
  rfl

theorem duePortDigit_eq (s : State) (n : PortNo) :
    (s.fitted n && duePortDigit n s) = blockTimerOut s (.portDigitTimeout n) := by
  simp only [duePortDigit, timerOut_reached, blockTimerOut, atPort]
  rfl

theorem dueRequest_eq (s : State) (n : PortNo) :
    (s.fitted n && dueRequest n s) = blockTimerOut s (.requestTimeout n) := by
  simp only [dueRequest, blockTimerOut, atPort]
  cases (s.port n).outReq <;> rfl

theorem dueRingDrive_eq (s : State) (n : PortNo) :
    (s.fitted n && dueRingDrive n s) = blockTimerOut s (.ringDriveTimeout n) := by
  simp only [dueRingDrive, ranOut_reached, blockTimerOut, atPort]
  rfl

theorem dueIntercomCadence_eq (s : State) (n : PortNo) :
    (s.fitted n && dueIntercomCadence n s) = blockTimerOut s (.intercomRingCadence n) := by
  simp only [dueIntercomCadence, Port.intercomRing, blockTimerOut, atPort, ranOut_reached]
  rcases (s.port n).pending with _ | (_ | _ | _) <;> simp [Config.second]

theorem dueOfferRing_eq (s : State) (n : PortNo) :
    (s.fitted n && dueOfferRing n s) = blockTimerOut s (.offerRingTimeout n) := by
  simp only [dueOfferRing, timerOut_reached, blockTimerOut, atPort]
  rfl

theorem dueRingBack_eq (s : State) (n : PortNo) :
    (s.fitted n && dueRingBack n s) = blockTimerOut s (.ringBackTimeout n) := by
  simp only [dueRingBack, timerOut_reached, blockTimerOut, atPort]
  rfl

theorem dueHolderSilence_eq (s : State) (n : PortNo) :
    (s.fitted n && dueHolderSilence n s) = blockTimerOut s (.holderSilenceTimeout n) := by
  simp only [dueHolderSilence, outsideRef, blockTimerOut, atPort, timerOut_reached]
  rcases (s.port n).callRef with _ | (_ | _) <;> simp [Config.silenceTime]

theorem dueFarSilence_eq (s : State) (n : PortNo) :
    (s.fitted n && dueFarSilence n s) = blockTimerOut s (.farSilenceTimeout n) := by
  simp only [dueFarSilence, outsideRef, blockTimerOut, atPort, timerOut_reached]
  rcases (s.port n).callRef with _ | (_ | _) <;> simp [Config.silenceTime]

theorem dueHowler_eq (s : State) (n : PortNo) :
    (s.fitted n && dueHowler n s) = blockTimerOut s (.howlerTimeout n) := by
  simp only [dueHowler, timerOut_reached, blockTimerOut, atPort]
  rfl

theorem dueTone_eq (s : State) (n : PortNo) : (s.fitted n && dueTone n s) = blockTimerOut s (.toneCadence n) := by
  have same : toneSteps (s.port n).tone = toneParts (s.port n).tone := by cases (s.port n).tone <;> rfl
  simp only [dueTone, same, blockTimerOut, atPort]
  cases (toneParts (s.port n).tone)[(s.port n).toneStep]? <;> rfl

/-! ## All of them -/

/-- A tick brings the command of a timer just when the timer has run out (R67, R163, R172). -/
theorem mem_dueCommands {s : State} {c : Instr} (h : intervalTap c = false) :
    c ∈ dueCommands s ↔ timerRunOut s c = true := by
  by_cases run : s.phase = .running
  · cases win : s.power.window with
    | none =>
      have act : s.active = true := by simp [State.active, run, win]
      rw [dueCommands, if_pos act]
      simp only [timerRunOut, run, win, decide_true, Bool.true_and, Option.isNone_none, List.mem_append,
        List.mem_flatMap, List.mem_cons, List.not_mem_nil, or_false, mem_fittedPorts, dueWindows, dueSlot, duePort,
        dueHold, dueModem, dueCall, dueTaps, mem_dueIf, exists_eq_or_imp, exists_eq_left, mem_dueParties, List.mem_map,
        List.mem_filter]
      cases c <;> simp [intervalTap] at h ⊢
      all_goals try rfl
      all_goals try simp only [dueRejoin, dueNoHolder, dueListen, dueFollow, dueDeferral, dueContest, dueReady,
        dueTraining, dueGrace, dueBackoff, dueRinging, timerOut_reached] <;> rfl
      all_goals try simp only [dueIdle_eq, dueMailbox_eq, dueReceipt_eq, dueLamp_eq, dueSeize_eq,
        dueLoss_eq, dueBreak_eq, dueMake_eq, duePause_eq, duePartySilence_eq, dueCapture_eq, dueRefresh_eq,
        dueWindowOpen_eq, dueWindowClose_eq, ← Bool.and_eq_true, dueOnHook_eq, dueCount_eq, dueFirstDigit_eq,
        duePortDigit_eq,
        dueRequest_eq, dueRingDrive_eq, dueIntercomCadence_eq, dueOfferRing_eq, dueRingBack_eq, dueHolderSilence_eq,
        dueFarSilence_eq, dueHowler_eq, dueTone_eq]
      case voiceDeadline => simp [blockTimerOut, overdue, ranOut_reached, Config.voiceDeadline]
      all_goals (rename_i n; cases n <;> simp)
    | some w =>
      have act : s.active = false := by simp [State.active, run, win]
      rw [dueCommands, if_neg (by simp [act]), if_pos run]
      simp only [timerRunOut, run, win, decide_true, Bool.true_and, Option.isNone_some, Bool.false_and, List.mem_append,
        List.mem_flatMap, dueWindows, mem_dueIf, List.mem_cons, List.not_mem_nil, or_false, exists_eq_or_imp,
        exists_eq_left]
      cases c <;> simp
      case quietWindowOpen n => cases n <;> simp [dueWindowOpen_eq]
      case quietWindowClose n => cases n <;> simp [dueWindowClose_eq]
      case lastGaspWindowEnd => simp [dueWindowEnd, timerOut_reached, win, Config.gaspTime]
  · simp [dueCommands, State.active, timerRunOut, run]

end Sys2Proof.Machine
end

