-- ==== Sys2Proof/Laws/State.lean ====
section
/-! SUPPORT. What each updater of a part of the state leaves in each field: one lemma per field, by definition. -/

namespace Sys2Proof.Machine

/-! `modPower` -/

@[simp] theorem State.modPower_phase (f : Power → Power) (s : State) : (s.modPower f).phase = s.phase := rfl
@[simp] theorem State.modPower_now (f : Power → Power) (s : State) : (s.modPower f).now = s.now := rfl
@[simp] theorem State.modPower_taps (f : Power → Power) (s : State) : (s.modPower f).taps = s.taps := rfl
@[simp] theorem State.modPower_straps (f : Power → Power) (s : State) : (s.modPower f).straps = s.straps := rfl
@[simp] theorem State.modPower_interface (f : Power → Power) (s : State) : (s.modPower f).interface = s.interface := rfl
@[simp] theorem State.modPower_cfg (f : Power → Power) (s : State) : (s.modPower f).cfg = s.cfg := rfl
@[simp] theorem State.modPower_pins (f : Power → Power) (s : State) : (s.modPower f).pins = s.pins := rfl
@[simp] theorem State.modPower_power (f : Power → Power) (s : State) : (s.modPower f).power = f s.power := rfl
@[simp] theorem State.modPower_wire (f : Power → Power) (s : State) : (s.modPower f).wire = s.wire := rfl
@[simp] theorem State.modPower_hold (f : Power → Power) (s : State) : (s.modPower f).hold = s.hold := rfl
@[simp] theorem State.modPower_noise (f : Power → Power) (s : State) : (s.modPower f).noise = s.noise := rfl
@[simp] theorem State.modPower_sup (f : Power → Power) (s : State) : (s.modPower f).sup = s.sup := rfl
@[simp] theorem State.modPower_ports (f : Power → Power) (s : State) : (s.modPower f).ports = s.ports := rfl
@[simp] theorem State.modPower_call (f : Power → Power) (s : State) : (s.modPower f).call = s.call := rfl
@[simp] theorem State.modPower_fault (f : Power → Power) (s : State) : (s.modPower f).fault = s.fault := rfl
@[simp] theorem State.modPower_report (f : Power → Power) (s : State) : (s.modPower f).report = s.report := rfl
@[simp] theorem State.modPower_svc (f : Power → Power) (s : State) : (s.modPower f).svc = s.svc := rfl
@[simp] theorem State.modPower_draws (f : Power → Power) (s : State) : (s.modPower f).draws = s.draws := rfl
@[simp] theorem State.modPower_outs (f : Power → Power) (s : State) : (s.modPower f).outs = s.outs := rfl
@[simp] theorem State.modPower_pending (f : Power → Power) (s : State) : (s.modPower f).pending = s.pending := rfl

/-! `modWire` -/

@[simp] theorem State.modWire_phase (f : Wire → Wire) (s : State) : (s.modWire f).phase = s.phase := rfl
@[simp] theorem State.modWire_now (f : Wire → Wire) (s : State) : (s.modWire f).now = s.now := rfl
@[simp] theorem State.modWire_taps (f : Wire → Wire) (s : State) : (s.modWire f).taps = s.taps := rfl
@[simp] theorem State.modWire_straps (f : Wire → Wire) (s : State) : (s.modWire f).straps = s.straps := rfl
@[simp] theorem State.modWire_interface (f : Wire → Wire) (s : State) : (s.modWire f).interface = s.interface := rfl
@[simp] theorem State.modWire_cfg (f : Wire → Wire) (s : State) : (s.modWire f).cfg = s.cfg := rfl
@[simp] theorem State.modWire_pins (f : Wire → Wire) (s : State) : (s.modWire f).pins = s.pins := rfl
@[simp] theorem State.modWire_power (f : Wire → Wire) (s : State) : (s.modWire f).power = s.power := rfl
@[simp] theorem State.modWire_wire (f : Wire → Wire) (s : State) : (s.modWire f).wire = f s.wire := rfl
@[simp] theorem State.modWire_hold (f : Wire → Wire) (s : State) : (s.modWire f).hold = s.hold := rfl
@[simp] theorem State.modWire_noise (f : Wire → Wire) (s : State) : (s.modWire f).noise = s.noise := rfl
@[simp] theorem State.modWire_sup (f : Wire → Wire) (s : State) : (s.modWire f).sup = s.sup := rfl
@[simp] theorem State.modWire_ports (f : Wire → Wire) (s : State) : (s.modWire f).ports = s.ports := rfl
@[simp] theorem State.modWire_call (f : Wire → Wire) (s : State) : (s.modWire f).call = s.call := rfl
@[simp] theorem State.modWire_fault (f : Wire → Wire) (s : State) : (s.modWire f).fault = s.fault := rfl
@[simp] theorem State.modWire_report (f : Wire → Wire) (s : State) : (s.modWire f).report = s.report := rfl
@[simp] theorem State.modWire_svc (f : Wire → Wire) (s : State) : (s.modWire f).svc = s.svc := rfl
@[simp] theorem State.modWire_draws (f : Wire → Wire) (s : State) : (s.modWire f).draws = s.draws := rfl
@[simp] theorem State.modWire_outs (f : Wire → Wire) (s : State) : (s.modWire f).outs = s.outs := rfl
@[simp] theorem State.modWire_pending (f : Wire → Wire) (s : State) : (s.modWire f).pending = s.pending := rfl

/-! `modHold` -/

@[simp] theorem State.modHold_phase (f : Hold → Hold) (s : State) : (s.modHold f).phase = s.phase := rfl
@[simp] theorem State.modHold_now (f : Hold → Hold) (s : State) : (s.modHold f).now = s.now := rfl
@[simp] theorem State.modHold_taps (f : Hold → Hold) (s : State) : (s.modHold f).taps = s.taps := rfl
@[simp] theorem State.modHold_straps (f : Hold → Hold) (s : State) : (s.modHold f).straps = s.straps := rfl
@[simp] theorem State.modHold_interface (f : Hold → Hold) (s : State) : (s.modHold f).interface = s.interface := rfl
@[simp] theorem State.modHold_cfg (f : Hold → Hold) (s : State) : (s.modHold f).cfg = s.cfg := rfl
@[simp] theorem State.modHold_pins (f : Hold → Hold) (s : State) : (s.modHold f).pins = s.pins := rfl
@[simp] theorem State.modHold_power (f : Hold → Hold) (s : State) : (s.modHold f).power = s.power := rfl
@[simp] theorem State.modHold_wire (f : Hold → Hold) (s : State) : (s.modHold f).wire = s.wire := rfl
@[simp] theorem State.modHold_hold (f : Hold → Hold) (s : State) : (s.modHold f).hold = f s.hold := rfl
@[simp] theorem State.modHold_noise (f : Hold → Hold) (s : State) : (s.modHold f).noise = s.noise := rfl
@[simp] theorem State.modHold_sup (f : Hold → Hold) (s : State) : (s.modHold f).sup = s.sup := rfl
@[simp] theorem State.modHold_ports (f : Hold → Hold) (s : State) : (s.modHold f).ports = s.ports := rfl
@[simp] theorem State.modHold_call (f : Hold → Hold) (s : State) : (s.modHold f).call = s.call := rfl
@[simp] theorem State.modHold_fault (f : Hold → Hold) (s : State) : (s.modHold f).fault = s.fault := rfl
@[simp] theorem State.modHold_report (f : Hold → Hold) (s : State) : (s.modHold f).report = s.report := rfl
@[simp] theorem State.modHold_svc (f : Hold → Hold) (s : State) : (s.modHold f).svc = s.svc := rfl
@[simp] theorem State.modHold_draws (f : Hold → Hold) (s : State) : (s.modHold f).draws = s.draws := rfl
@[simp] theorem State.modHold_outs (f : Hold → Hold) (s : State) : (s.modHold f).outs = s.outs := rfl
@[simp] theorem State.modHold_pending (f : Hold → Hold) (s : State) : (s.modHold f).pending = s.pending := rfl

/-! `modNoise` -/

@[simp] theorem State.modNoise_phase (f : Noise → Noise) (s : State) : (s.modNoise f).phase = s.phase := rfl
@[simp] theorem State.modNoise_now (f : Noise → Noise) (s : State) : (s.modNoise f).now = s.now := rfl
@[simp] theorem State.modNoise_taps (f : Noise → Noise) (s : State) : (s.modNoise f).taps = s.taps := rfl
@[simp] theorem State.modNoise_straps (f : Noise → Noise) (s : State) : (s.modNoise f).straps = s.straps := rfl
@[simp] theorem State.modNoise_interface (f : Noise → Noise) (s : State) : (s.modNoise f).interface = s.interface := rfl
@[simp] theorem State.modNoise_cfg (f : Noise → Noise) (s : State) : (s.modNoise f).cfg = s.cfg := rfl
@[simp] theorem State.modNoise_pins (f : Noise → Noise) (s : State) : (s.modNoise f).pins = s.pins := rfl
@[simp] theorem State.modNoise_power (f : Noise → Noise) (s : State) : (s.modNoise f).power = s.power := rfl
@[simp] theorem State.modNoise_wire (f : Noise → Noise) (s : State) : (s.modNoise f).wire = s.wire := rfl
@[simp] theorem State.modNoise_hold (f : Noise → Noise) (s : State) : (s.modNoise f).hold = s.hold := rfl
@[simp] theorem State.modNoise_noise (f : Noise → Noise) (s : State) : (s.modNoise f).noise = f s.noise := rfl
@[simp] theorem State.modNoise_sup (f : Noise → Noise) (s : State) : (s.modNoise f).sup = s.sup := rfl
@[simp] theorem State.modNoise_ports (f : Noise → Noise) (s : State) : (s.modNoise f).ports = s.ports := rfl
@[simp] theorem State.modNoise_call (f : Noise → Noise) (s : State) : (s.modNoise f).call = s.call := rfl
@[simp] theorem State.modNoise_fault (f : Noise → Noise) (s : State) : (s.modNoise f).fault = s.fault := rfl
@[simp] theorem State.modNoise_report (f : Noise → Noise) (s : State) : (s.modNoise f).report = s.report := rfl
@[simp] theorem State.modNoise_svc (f : Noise → Noise) (s : State) : (s.modNoise f).svc = s.svc := rfl
@[simp] theorem State.modNoise_draws (f : Noise → Noise) (s : State) : (s.modNoise f).draws = s.draws := rfl
@[simp] theorem State.modNoise_outs (f : Noise → Noise) (s : State) : (s.modNoise f).outs = s.outs := rfl
@[simp] theorem State.modNoise_pending (f : Noise → Noise) (s : State) : (s.modNoise f).pending = s.pending := rfl

/-! `modSup` -/

@[simp] theorem State.modSup_phase (f : Sup → Sup) (s : State) : (s.modSup f).phase = s.phase := rfl
@[simp] theorem State.modSup_now (f : Sup → Sup) (s : State) : (s.modSup f).now = s.now := rfl
@[simp] theorem State.modSup_taps (f : Sup → Sup) (s : State) : (s.modSup f).taps = s.taps := rfl
@[simp] theorem State.modSup_straps (f : Sup → Sup) (s : State) : (s.modSup f).straps = s.straps := rfl
@[simp] theorem State.modSup_interface (f : Sup → Sup) (s : State) : (s.modSup f).interface = s.interface := rfl
@[simp] theorem State.modSup_cfg (f : Sup → Sup) (s : State) : (s.modSup f).cfg = s.cfg := rfl
@[simp] theorem State.modSup_pins (f : Sup → Sup) (s : State) : (s.modSup f).pins = s.pins := rfl
@[simp] theorem State.modSup_power (f : Sup → Sup) (s : State) : (s.modSup f).power = s.power := rfl
@[simp] theorem State.modSup_wire (f : Sup → Sup) (s : State) : (s.modSup f).wire = s.wire := rfl
@[simp] theorem State.modSup_hold (f : Sup → Sup) (s : State) : (s.modSup f).hold = s.hold := rfl
@[simp] theorem State.modSup_noise (f : Sup → Sup) (s : State) : (s.modSup f).noise = s.noise := rfl
@[simp] theorem State.modSup_sup (f : Sup → Sup) (s : State) : (s.modSup f).sup = f s.sup := rfl
@[simp] theorem State.modSup_ports (f : Sup → Sup) (s : State) : (s.modSup f).ports = s.ports := rfl
@[simp] theorem State.modSup_call (f : Sup → Sup) (s : State) : (s.modSup f).call = s.call := rfl
@[simp] theorem State.modSup_fault (f : Sup → Sup) (s : State) : (s.modSup f).fault = s.fault := rfl
@[simp] theorem State.modSup_report (f : Sup → Sup) (s : State) : (s.modSup f).report = s.report := rfl
@[simp] theorem State.modSup_svc (f : Sup → Sup) (s : State) : (s.modSup f).svc = s.svc := rfl
@[simp] theorem State.modSup_draws (f : Sup → Sup) (s : State) : (s.modSup f).draws = s.draws := rfl
@[simp] theorem State.modSup_outs (f : Sup → Sup) (s : State) : (s.modSup f).outs = s.outs := rfl
@[simp] theorem State.modSup_pending (f : Sup → Sup) (s : State) : (s.modSup f).pending = s.pending := rfl

/-! `modPorts` -/

@[simp] theorem State.modPorts_phase (f : Ports → Ports) (s : State) : (s.modPorts f).phase = s.phase := rfl
@[simp] theorem State.modPorts_now (f : Ports → Ports) (s : State) : (s.modPorts f).now = s.now := rfl
@[simp] theorem State.modPorts_taps (f : Ports → Ports) (s : State) : (s.modPorts f).taps = s.taps := rfl
@[simp] theorem State.modPorts_straps (f : Ports → Ports) (s : State) : (s.modPorts f).straps = s.straps := rfl
@[simp] theorem State.modPorts_interface (f : Ports → Ports) (s : State) : (s.modPorts f).interface = s.interface := rfl
@[simp] theorem State.modPorts_cfg (f : Ports → Ports) (s : State) : (s.modPorts f).cfg = s.cfg := rfl
@[simp] theorem State.modPorts_pins (f : Ports → Ports) (s : State) : (s.modPorts f).pins = s.pins := rfl
@[simp] theorem State.modPorts_power (f : Ports → Ports) (s : State) : (s.modPorts f).power = s.power := rfl
@[simp] theorem State.modPorts_wire (f : Ports → Ports) (s : State) : (s.modPorts f).wire = s.wire := rfl
@[simp] theorem State.modPorts_hold (f : Ports → Ports) (s : State) : (s.modPorts f).hold = s.hold := rfl
@[simp] theorem State.modPorts_noise (f : Ports → Ports) (s : State) : (s.modPorts f).noise = s.noise := rfl
@[simp] theorem State.modPorts_sup (f : Ports → Ports) (s : State) : (s.modPorts f).sup = s.sup := rfl
@[simp] theorem State.modPorts_ports (f : Ports → Ports) (s : State) : (s.modPorts f).ports = f s.ports := rfl
@[simp] theorem State.modPorts_call (f : Ports → Ports) (s : State) : (s.modPorts f).call = s.call := rfl
@[simp] theorem State.modPorts_fault (f : Ports → Ports) (s : State) : (s.modPorts f).fault = s.fault := rfl
@[simp] theorem State.modPorts_report (f : Ports → Ports) (s : State) : (s.modPorts f).report = s.report := rfl
@[simp] theorem State.modPorts_svc (f : Ports → Ports) (s : State) : (s.modPorts f).svc = s.svc := rfl
@[simp] theorem State.modPorts_draws (f : Ports → Ports) (s : State) : (s.modPorts f).draws = s.draws := rfl
@[simp] theorem State.modPorts_outs (f : Ports → Ports) (s : State) : (s.modPorts f).outs = s.outs := rfl
@[simp] theorem State.modPorts_pending (f : Ports → Ports) (s : State) : (s.modPorts f).pending = s.pending := rfl

/-! `modCall` -/

@[simp] theorem State.modCall_phase (f : Call → Call) (s : State) : (s.modCall f).phase = s.phase := rfl
@[simp] theorem State.modCall_now (f : Call → Call) (s : State) : (s.modCall f).now = s.now := rfl
@[simp] theorem State.modCall_taps (f : Call → Call) (s : State) : (s.modCall f).taps = s.taps := rfl
@[simp] theorem State.modCall_straps (f : Call → Call) (s : State) : (s.modCall f).straps = s.straps := rfl
@[simp] theorem State.modCall_interface (f : Call → Call) (s : State) : (s.modCall f).interface = s.interface := rfl
@[simp] theorem State.modCall_cfg (f : Call → Call) (s : State) : (s.modCall f).cfg = s.cfg := rfl
@[simp] theorem State.modCall_pins (f : Call → Call) (s : State) : (s.modCall f).pins = s.pins := rfl
@[simp] theorem State.modCall_power (f : Call → Call) (s : State) : (s.modCall f).power = s.power := rfl
@[simp] theorem State.modCall_wire (f : Call → Call) (s : State) : (s.modCall f).wire = s.wire := rfl
@[simp] theorem State.modCall_hold (f : Call → Call) (s : State) : (s.modCall f).hold = s.hold := rfl
@[simp] theorem State.modCall_noise (f : Call → Call) (s : State) : (s.modCall f).noise = s.noise := rfl
@[simp] theorem State.modCall_sup (f : Call → Call) (s : State) : (s.modCall f).sup = s.sup := rfl
@[simp] theorem State.modCall_ports (f : Call → Call) (s : State) : (s.modCall f).ports = s.ports := rfl
@[simp] theorem State.modCall_call (f : Call → Call) (s : State) : (s.modCall f).call = f s.call := rfl
@[simp] theorem State.modCall_fault (f : Call → Call) (s : State) : (s.modCall f).fault = s.fault := rfl
@[simp] theorem State.modCall_report (f : Call → Call) (s : State) : (s.modCall f).report = s.report := rfl
@[simp] theorem State.modCall_svc (f : Call → Call) (s : State) : (s.modCall f).svc = s.svc := rfl
@[simp] theorem State.modCall_draws (f : Call → Call) (s : State) : (s.modCall f).draws = s.draws := rfl
@[simp] theorem State.modCall_outs (f : Call → Call) (s : State) : (s.modCall f).outs = s.outs := rfl
@[simp] theorem State.modCall_pending (f : Call → Call) (s : State) : (s.modCall f).pending = s.pending := rfl

/-! `modFault` -/

@[simp] theorem State.modFault_phase (f : FaultMon → FaultMon) (s : State) : (s.modFault f).phase = s.phase := rfl
@[simp] theorem State.modFault_now (f : FaultMon → FaultMon) (s : State) : (s.modFault f).now = s.now := rfl
@[simp] theorem State.modFault_taps (f : FaultMon → FaultMon) (s : State) : (s.modFault f).taps = s.taps := rfl
@[simp] theorem State.modFault_straps (f : FaultMon → FaultMon) (s : State) : (s.modFault f).straps = s.straps := rfl
@[simp] theorem State.modFault_interface (f : FaultMon → FaultMon) (s : State) : (s.modFault f).interface = s.interface := rfl
@[simp] theorem State.modFault_cfg (f : FaultMon → FaultMon) (s : State) : (s.modFault f).cfg = s.cfg := rfl
@[simp] theorem State.modFault_pins (f : FaultMon → FaultMon) (s : State) : (s.modFault f).pins = s.pins := rfl
@[simp] theorem State.modFault_power (f : FaultMon → FaultMon) (s : State) : (s.modFault f).power = s.power := rfl
@[simp] theorem State.modFault_wire (f : FaultMon → FaultMon) (s : State) : (s.modFault f).wire = s.wire := rfl
@[simp] theorem State.modFault_hold (f : FaultMon → FaultMon) (s : State) : (s.modFault f).hold = s.hold := rfl
@[simp] theorem State.modFault_noise (f : FaultMon → FaultMon) (s : State) : (s.modFault f).noise = s.noise := rfl
@[simp] theorem State.modFault_sup (f : FaultMon → FaultMon) (s : State) : (s.modFault f).sup = s.sup := rfl
@[simp] theorem State.modFault_ports (f : FaultMon → FaultMon) (s : State) : (s.modFault f).ports = s.ports := rfl
@[simp] theorem State.modFault_call (f : FaultMon → FaultMon) (s : State) : (s.modFault f).call = s.call := rfl
@[simp] theorem State.modFault_fault (f : FaultMon → FaultMon) (s : State) : (s.modFault f).fault = f s.fault := rfl
@[simp] theorem State.modFault_report (f : FaultMon → FaultMon) (s : State) : (s.modFault f).report = s.report := rfl
@[simp] theorem State.modFault_svc (f : FaultMon → FaultMon) (s : State) : (s.modFault f).svc = s.svc := rfl
@[simp] theorem State.modFault_draws (f : FaultMon → FaultMon) (s : State) : (s.modFault f).draws = s.draws := rfl
@[simp] theorem State.modFault_outs (f : FaultMon → FaultMon) (s : State) : (s.modFault f).outs = s.outs := rfl
@[simp] theorem State.modFault_pending (f : FaultMon → FaultMon) (s : State) : (s.modFault f).pending = s.pending := rfl

/-! `modReport` -/

@[simp] theorem State.modReport_phase (f : Report → Report) (s : State) : (s.modReport f).phase = s.phase := rfl
@[simp] theorem State.modReport_now (f : Report → Report) (s : State) : (s.modReport f).now = s.now := rfl
@[simp] theorem State.modReport_taps (f : Report → Report) (s : State) : (s.modReport f).taps = s.taps := rfl
@[simp] theorem State.modReport_straps (f : Report → Report) (s : State) : (s.modReport f).straps = s.straps := rfl
@[simp] theorem State.modReport_interface (f : Report → Report) (s : State) : (s.modReport f).interface = s.interface := rfl
@[simp] theorem State.modReport_cfg (f : Report → Report) (s : State) : (s.modReport f).cfg = s.cfg := rfl
@[simp] theorem State.modReport_pins (f : Report → Report) (s : State) : (s.modReport f).pins = s.pins := rfl
@[simp] theorem State.modReport_power (f : Report → Report) (s : State) : (s.modReport f).power = s.power := rfl
@[simp] theorem State.modReport_wire (f : Report → Report) (s : State) : (s.modReport f).wire = s.wire := rfl
@[simp] theorem State.modReport_hold (f : Report → Report) (s : State) : (s.modReport f).hold = s.hold := rfl
@[simp] theorem State.modReport_noise (f : Report → Report) (s : State) : (s.modReport f).noise = s.noise := rfl
@[simp] theorem State.modReport_sup (f : Report → Report) (s : State) : (s.modReport f).sup = s.sup := rfl
@[simp] theorem State.modReport_ports (f : Report → Report) (s : State) : (s.modReport f).ports = s.ports := rfl
@[simp] theorem State.modReport_call (f : Report → Report) (s : State) : (s.modReport f).call = s.call := rfl
@[simp] theorem State.modReport_fault (f : Report → Report) (s : State) : (s.modReport f).fault = s.fault := rfl
@[simp] theorem State.modReport_report (f : Report → Report) (s : State) : (s.modReport f).report = f s.report := rfl
@[simp] theorem State.modReport_svc (f : Report → Report) (s : State) : (s.modReport f).svc = s.svc := rfl
@[simp] theorem State.modReport_draws (f : Report → Report) (s : State) : (s.modReport f).draws = s.draws := rfl
@[simp] theorem State.modReport_outs (f : Report → Report) (s : State) : (s.modReport f).outs = s.outs := rfl
@[simp] theorem State.modReport_pending (f : Report → Report) (s : State) : (s.modReport f).pending = s.pending := rfl

/-! `modSvc` -/

@[simp] theorem State.modSvc_phase (f : Svc → Svc) (s : State) : (s.modSvc f).phase = s.phase := rfl
@[simp] theorem State.modSvc_now (f : Svc → Svc) (s : State) : (s.modSvc f).now = s.now := rfl
@[simp] theorem State.modSvc_taps (f : Svc → Svc) (s : State) : (s.modSvc f).taps = s.taps := rfl
@[simp] theorem State.modSvc_straps (f : Svc → Svc) (s : State) : (s.modSvc f).straps = s.straps := rfl
@[simp] theorem State.modSvc_interface (f : Svc → Svc) (s : State) : (s.modSvc f).interface = s.interface := rfl
@[simp] theorem State.modSvc_cfg (f : Svc → Svc) (s : State) : (s.modSvc f).cfg = s.cfg := rfl
@[simp] theorem State.modSvc_pins (f : Svc → Svc) (s : State) : (s.modSvc f).pins = s.pins := rfl
@[simp] theorem State.modSvc_power (f : Svc → Svc) (s : State) : (s.modSvc f).power = s.power := rfl
@[simp] theorem State.modSvc_wire (f : Svc → Svc) (s : State) : (s.modSvc f).wire = s.wire := rfl
@[simp] theorem State.modSvc_hold (f : Svc → Svc) (s : State) : (s.modSvc f).hold = s.hold := rfl
@[simp] theorem State.modSvc_noise (f : Svc → Svc) (s : State) : (s.modSvc f).noise = s.noise := rfl
@[simp] theorem State.modSvc_sup (f : Svc → Svc) (s : State) : (s.modSvc f).sup = s.sup := rfl
@[simp] theorem State.modSvc_ports (f : Svc → Svc) (s : State) : (s.modSvc f).ports = s.ports := rfl
@[simp] theorem State.modSvc_call (f : Svc → Svc) (s : State) : (s.modSvc f).call = s.call := rfl
@[simp] theorem State.modSvc_fault (f : Svc → Svc) (s : State) : (s.modSvc f).fault = s.fault := rfl
@[simp] theorem State.modSvc_report (f : Svc → Svc) (s : State) : (s.modSvc f).report = s.report := rfl
@[simp] theorem State.modSvc_svc (f : Svc → Svc) (s : State) : (s.modSvc f).svc = f s.svc := rfl
@[simp] theorem State.modSvc_draws (f : Svc → Svc) (s : State) : (s.modSvc f).draws = s.draws := rfl
@[simp] theorem State.modSvc_outs (f : Svc → Svc) (s : State) : (s.modSvc f).outs = s.outs := rfl
@[simp] theorem State.modSvc_pending (f : Svc → Svc) (s : State) : (s.modSvc f).pending = s.pending := rfl

/-! `tell` -/

@[simp] theorem State.tell_phase (f : Pins → Pins) (s : State) : (s.tell f).phase = s.phase := rfl
@[simp] theorem State.tell_now (f : Pins → Pins) (s : State) : (s.tell f).now = s.now := rfl
@[simp] theorem State.tell_taps (f : Pins → Pins) (s : State) : (s.tell f).taps = s.taps := rfl
@[simp] theorem State.tell_straps (f : Pins → Pins) (s : State) : (s.tell f).straps = s.straps := rfl
@[simp] theorem State.tell_interface (f : Pins → Pins) (s : State) : (s.tell f).interface = s.interface := rfl
@[simp] theorem State.tell_cfg (f : Pins → Pins) (s : State) : (s.tell f).cfg = s.cfg := rfl
@[simp] theorem State.tell_pins (f : Pins → Pins) (s : State) : (s.tell f).pins = f s.pins := rfl
@[simp] theorem State.tell_power (f : Pins → Pins) (s : State) : (s.tell f).power = s.power := rfl
@[simp] theorem State.tell_wire (f : Pins → Pins) (s : State) : (s.tell f).wire = s.wire := rfl
@[simp] theorem State.tell_hold (f : Pins → Pins) (s : State) : (s.tell f).hold = s.hold := rfl
@[simp] theorem State.tell_noise (f : Pins → Pins) (s : State) : (s.tell f).noise = s.noise := rfl
@[simp] theorem State.tell_sup (f : Pins → Pins) (s : State) : (s.tell f).sup = s.sup := rfl
@[simp] theorem State.tell_ports (f : Pins → Pins) (s : State) : (s.tell f).ports = s.ports := rfl
@[simp] theorem State.tell_call (f : Pins → Pins) (s : State) : (s.tell f).call = s.call := rfl
@[simp] theorem State.tell_fault (f : Pins → Pins) (s : State) : (s.tell f).fault = s.fault := rfl
@[simp] theorem State.tell_report (f : Pins → Pins) (s : State) : (s.tell f).report = s.report := rfl
@[simp] theorem State.tell_svc (f : Pins → Pins) (s : State) : (s.tell f).svc = s.svc := rfl
@[simp] theorem State.tell_draws (f : Pins → Pins) (s : State) : (s.tell f).draws = s.draws := rfl
@[simp] theorem State.tell_outs (f : Pins → Pins) (s : State) : (s.tell f).outs = s.outs := rfl
@[simp] theorem State.tell_pending (f : Pins → Pins) (s : State) : (s.tell f).pending = s.pending := rfl

/-! `emit` -/

@[simp] theorem State.emit_phase (o : Out) (s : State) : (s.emit o).phase = s.phase := rfl
@[simp] theorem State.emit_now (o : Out) (s : State) : (s.emit o).now = s.now := rfl
@[simp] theorem State.emit_taps (o : Out) (s : State) : (s.emit o).taps = s.taps := rfl
@[simp] theorem State.emit_straps (o : Out) (s : State) : (s.emit o).straps = s.straps := rfl
@[simp] theorem State.emit_interface (o : Out) (s : State) : (s.emit o).interface = s.interface := rfl
@[simp] theorem State.emit_cfg (o : Out) (s : State) : (s.emit o).cfg = s.cfg := rfl
@[simp] theorem State.emit_pins (o : Out) (s : State) : (s.emit o).pins = s.pins := rfl
@[simp] theorem State.emit_power (o : Out) (s : State) : (s.emit o).power = s.power := rfl
@[simp] theorem State.emit_wire (o : Out) (s : State) : (s.emit o).wire = s.wire := rfl
@[simp] theorem State.emit_hold (o : Out) (s : State) : (s.emit o).hold = s.hold := rfl
@[simp] theorem State.emit_noise (o : Out) (s : State) : (s.emit o).noise = s.noise := rfl
@[simp] theorem State.emit_sup (o : Out) (s : State) : (s.emit o).sup = s.sup := rfl
@[simp] theorem State.emit_ports (o : Out) (s : State) : (s.emit o).ports = s.ports := rfl
@[simp] theorem State.emit_call (o : Out) (s : State) : (s.emit o).call = s.call := rfl
@[simp] theorem State.emit_fault (o : Out) (s : State) : (s.emit o).fault = s.fault := rfl
@[simp] theorem State.emit_report (o : Out) (s : State) : (s.emit o).report = s.report := rfl
@[simp] theorem State.emit_svc (o : Out) (s : State) : (s.emit o).svc = s.svc := rfl
@[simp] theorem State.emit_draws (o : Out) (s : State) : (s.emit o).draws = s.draws := rfl
@[simp] theorem State.emit_outs (o : Out) (s : State) : (s.emit o).outs = s.outs ++ [o] := rfl
@[simp] theorem State.emit_pending (o : Out) (s : State) : (s.emit o).pending = s.pending := rfl

/-! `quiet` -/

@[simp] theorem State.quiet_phase (s : State) : (s.quiet).phase = s.phase := rfl
@[simp] theorem State.quiet_now (s : State) : (s.quiet).now = s.now := rfl
@[simp] theorem State.quiet_taps (s : State) : (s.quiet).taps = s.taps := rfl
@[simp] theorem State.quiet_straps (s : State) : (s.quiet).straps = s.straps := rfl
@[simp] theorem State.quiet_interface (s : State) : (s.quiet).interface = s.interface := rfl
@[simp] theorem State.quiet_cfg (s : State) : (s.quiet).cfg = s.cfg := rfl
@[simp] theorem State.quiet_pins (s : State) : (s.quiet).pins = s.pins := rfl
@[simp] theorem State.quiet_power (s : State) : (s.quiet).power = s.power := rfl
@[simp] theorem State.quiet_wire (s : State) : (s.quiet).wire = s.wire := rfl
@[simp] theorem State.quiet_hold (s : State) : (s.quiet).hold = s.hold := rfl
@[simp] theorem State.quiet_noise (s : State) : (s.quiet).noise = s.noise := rfl
@[simp] theorem State.quiet_sup (s : State) : (s.quiet).sup = s.sup := rfl
@[simp] theorem State.quiet_ports (s : State) : (s.quiet).ports = s.ports := rfl
@[simp] theorem State.quiet_call (s : State) : (s.quiet).call = s.call := rfl
@[simp] theorem State.quiet_fault (s : State) : (s.quiet).fault = s.fault := rfl
@[simp] theorem State.quiet_report (s : State) : (s.quiet).report = s.report := rfl
@[simp] theorem State.quiet_svc (s : State) : (s.quiet).svc = s.svc := rfl
@[simp] theorem State.quiet_draws (s : State) : (s.quiet).draws = s.draws := rfl
@[simp] theorem State.quiet_outs (s : State) : (s.quiet).outs = [] := rfl
@[simp] theorem State.quiet_pending (s : State) : (s.quiet).pending = s.pending := rfl

/-! `drew` -/

@[simp] theorem State.drew_phase (s : State) : (s.drew).phase = s.phase := rfl
@[simp] theorem State.drew_now (s : State) : (s.drew).now = s.now := rfl
@[simp] theorem State.drew_taps (s : State) : (s.drew).taps = s.taps := rfl
@[simp] theorem State.drew_straps (s : State) : (s.drew).straps = s.straps := rfl
@[simp] theorem State.drew_interface (s : State) : (s.drew).interface = s.interface := rfl
@[simp] theorem State.drew_cfg (s : State) : (s.drew).cfg = s.cfg := rfl
@[simp] theorem State.drew_pins (s : State) : (s.drew).pins = s.pins := rfl
@[simp] theorem State.drew_power (s : State) : (s.drew).power = s.power := rfl
@[simp] theorem State.drew_wire (s : State) : (s.drew).wire = s.wire := rfl
@[simp] theorem State.drew_hold (s : State) : (s.drew).hold = s.hold := rfl
@[simp] theorem State.drew_noise (s : State) : (s.drew).noise = s.noise := rfl
@[simp] theorem State.drew_sup (s : State) : (s.drew).sup = s.sup := rfl
@[simp] theorem State.drew_ports (s : State) : (s.drew).ports = s.ports := rfl
@[simp] theorem State.drew_call (s : State) : (s.drew).call = s.call := rfl
@[simp] theorem State.drew_fault (s : State) : (s.drew).fault = s.fault := rfl
@[simp] theorem State.drew_report (s : State) : (s.drew).report = s.report := rfl
@[simp] theorem State.drew_svc (s : State) : (s.drew).svc = s.svc := rfl
@[simp] theorem State.drew_draws (s : State) : (s.drew).draws = s.draws + 1 := rfl
@[simp] theorem State.drew_outs (s : State) : (s.drew).outs = s.outs := rfl
@[simp] theorem State.drew_pending (s : State) : (s.drew).pending = s.pending := rfl

/-! `modTaps` -/

@[simp] theorem State.modTaps_phase (f : Taps → Taps) (s : State) : (s.modTaps f).phase = s.phase := rfl
@[simp] theorem State.modTaps_now (f : Taps → Taps) (s : State) : (s.modTaps f).now = s.now := rfl
@[simp] theorem State.modTaps_taps (f : Taps → Taps) (s : State) : (s.modTaps f).taps = f s.taps := rfl
@[simp] theorem State.modTaps_straps (f : Taps → Taps) (s : State) : (s.modTaps f).straps = s.straps := rfl
@[simp] theorem State.modTaps_interface (f : Taps → Taps) (s : State) : (s.modTaps f).interface = s.interface := rfl
@[simp] theorem State.modTaps_cfg (f : Taps → Taps) (s : State) : (s.modTaps f).cfg = s.cfg := rfl
@[simp] theorem State.modTaps_pins (f : Taps → Taps) (s : State) : (s.modTaps f).pins = s.pins := rfl
@[simp] theorem State.modTaps_power (f : Taps → Taps) (s : State) : (s.modTaps f).power = s.power := rfl
@[simp] theorem State.modTaps_wire (f : Taps → Taps) (s : State) : (s.modTaps f).wire = s.wire := rfl
@[simp] theorem State.modTaps_hold (f : Taps → Taps) (s : State) : (s.modTaps f).hold = s.hold := rfl
@[simp] theorem State.modTaps_noise (f : Taps → Taps) (s : State) : (s.modTaps f).noise = s.noise := rfl
@[simp] theorem State.modTaps_sup (f : Taps → Taps) (s : State) : (s.modTaps f).sup = s.sup := rfl
@[simp] theorem State.modTaps_ports (f : Taps → Taps) (s : State) : (s.modTaps f).ports = s.ports := rfl
@[simp] theorem State.modTaps_call (f : Taps → Taps) (s : State) : (s.modTaps f).call = s.call := rfl
@[simp] theorem State.modTaps_fault (f : Taps → Taps) (s : State) : (s.modTaps f).fault = s.fault := rfl
@[simp] theorem State.modTaps_report (f : Taps → Taps) (s : State) : (s.modTaps f).report = s.report := rfl
@[simp] theorem State.modTaps_svc (f : Taps → Taps) (s : State) : (s.modTaps f).svc = s.svc := rfl
@[simp] theorem State.modTaps_draws (f : Taps → Taps) (s : State) : (s.modTaps f).draws = s.draws := rfl
@[simp] theorem State.modTaps_outs (f : Taps → Taps) (s : State) : (s.modTaps f).outs = s.outs := rfl
@[simp] theorem State.modTaps_pending (f : Taps → Taps) (s : State) : (s.modTaps f).pending = s.pending := rfl

/-! `modPort` and the port accessors -/

@[simp] theorem State.modPort_phase (n : PortNo) (f : Port → Port) (s : State) : (s.modPort n f).phase = s.phase := rfl
@[simp] theorem State.modPort_now (n : PortNo) (f : Port → Port) (s : State) : (s.modPort n f).now = s.now := rfl
@[simp] theorem State.modPort_taps (n : PortNo) (f : Port → Port) (s : State) : (s.modPort n f).taps = s.taps := rfl
@[simp] theorem State.modPort_straps (n : PortNo) (f : Port → Port) (s : State) : (s.modPort n f).straps = s.straps := rfl
@[simp] theorem State.modPort_interface (n : PortNo) (f : Port → Port) (s : State) : (s.modPort n f).interface = s.interface := rfl
@[simp] theorem State.modPort_cfg (n : PortNo) (f : Port → Port) (s : State) : (s.modPort n f).cfg = s.cfg := rfl
@[simp] theorem State.modPort_pins (n : PortNo) (f : Port → Port) (s : State) : (s.modPort n f).pins = s.pins := rfl
@[simp] theorem State.modPort_power (n : PortNo) (f : Port → Port) (s : State) : (s.modPort n f).power = s.power := rfl
@[simp] theorem State.modPort_wire (n : PortNo) (f : Port → Port) (s : State) : (s.modPort n f).wire = s.wire := rfl
@[simp] theorem State.modPort_hold (n : PortNo) (f : Port → Port) (s : State) : (s.modPort n f).hold = s.hold := rfl
@[simp] theorem State.modPort_noise (n : PortNo) (f : Port → Port) (s : State) : (s.modPort n f).noise = s.noise := rfl
@[simp] theorem State.modPort_sup (n : PortNo) (f : Port → Port) (s : State) : (s.modPort n f).sup = s.sup := rfl
@[simp] theorem State.modPort_call (n : PortNo) (f : Port → Port) (s : State) : (s.modPort n f).call = s.call := rfl
@[simp] theorem State.modPort_fault (n : PortNo) (f : Port → Port) (s : State) : (s.modPort n f).fault = s.fault := rfl
@[simp] theorem State.modPort_report (n : PortNo) (f : Port → Port) (s : State) : (s.modPort n f).report = s.report := rfl
@[simp] theorem State.modPort_svc (n : PortNo) (f : Port → Port) (s : State) : (s.modPort n f).svc = s.svc := rfl
@[simp] theorem State.modPort_draws (n : PortNo) (f : Port → Port) (s : State) : (s.modPort n f).draws = s.draws := rfl
@[simp] theorem State.modPort_outs (n : PortNo) (f : Port → Port) (s : State) : (s.modPort n f).outs = s.outs := rfl
@[simp] theorem State.modPort_pending (n : PortNo) (f : Port → Port) (s : State) : (s.modPort n f).pending = s.pending := rfl
@[simp] theorem State.modPort_ports (n : PortNo) (f : Port → Port) (s : State) :
    (s.modPort n f).ports = s.ports.set (f (s.port n)) n := rfl

theorem Ports.get_set_same (ps : Ports) (x : Port) (n : PortNo) : (ps.set x n).get n = x := by cases n <;> rfl

theorem Ports.get_set_other (ps : Ports) (x : Port) {n m : PortNo} (h : m ≠ n) : (ps.set x n).get m = ps.get m := by
  cases n <;> cases m <;> first | rfl | exact absurd rfl h

theorem State.port_modPort_same (n : PortNo) (f : Port → Port) (s : State) : (s.modPort n f).port n = f (s.port n) :=
  Ports.get_set_same _ _ _

theorem State.port_modPort_other {n m : PortNo} (f : Port → Port) (s : State) (h : m ≠ n) :
    (s.modPort n f).port m = s.port m := Ports.get_set_other _ _ h

theorem Noise.slot_setSlot_same (k : Noise) (t : Option Track) (n : SlotName) : (k.setSlot t n).slot n = t := by
  cases n <;> rfl

theorem Noise.slot_setSlot_other (k : Noise) (t : Option Track) {n m : SlotName} (h : m ≠ n) :
    (k.setSlot t n).slot m = k.slot m := by
  cases n <;> cases m <;> first | rfl | exact absurd rfl h

end Sys2Proof.Machine
end

