-- ==== Sys2Proof/Laws/Only.lean ====
section
/-! SUPPORT. How `Only` composes: identity, sequence, widening, folds, and one projection for each part. -/

namespace Sys2Proof

open Sys2Proof.Machine

theorem Only.refl (ps : List Part) (s : State) : Only ps s s := fun p _ => by cases p <;> rfl

theorem Part.Same.trans {s t u : State} {p : Part} (h : p.Same s t) (h' : p.Same t u) : p.Same s u := by
  cases p <;> exact Eq.trans h' h

/-- A change of the parts `qs`, which lie within `ps`, after a change of the parts `ps`. -/
theorem Only.after {ps qs : List Part} {s t u : State} (h : Only qs t u) (h' : Only ps s t)
    (sub : (qs.all fun p => decide (p ∈ ps)) = true) : Only ps s u := fun p hp =>
  (h' p hp).trans (h p fun hq => hp (of_decide_eq_true (List.all_eq_true.mp sub p hq)))

theorem Only.mono {ps qs : List Part} {s t : State} (h : Only qs s t)
    (sub : (qs.all fun p => decide (p ∈ ps)) = true) : Only ps s t := h.after (Only.refl _ _) sub

theorem Only.trans {ps : List Part} {s t u : State} (h : Only ps s t) (h' : Only ps t u) : Only ps s u :=
  fun p hp => (h p hp).trans (h' p hp)

theorem Only.trans' {ps : List Part} {s t u v : State} (h : Only ps u v) (h' : Only ps t u) (h'' : Only ps s t) :
    Only ps s v := (h''.trans h').trans h

theorem Only.foldl {ps : List Part} {α : Type} {f : State → α → State} (h : ∀ t x, Only ps t (f t x)) :
    ∀ (l : List α) (s : State), Only ps s (l.foldl f s)
  | [], s => Only.refl _ s
  | x :: l, s => (h s x).trans (Only.foldl h l (f s x))

theorem Only.eachPort {ps : List Part} {f : PortNo → State → State} (h : ∀ n t, Only ps t (f n t)) (s : State) :
    Only ps s (s.eachPort f) := Only.foldl (fun t n => h n t) _ _

theorem Only.thenFoldl {ps : List Part} {α : Type} {f : State → α → State} {l : List α} {s t : State}
    (h : ∀ t x, Only ps t (f t x)) (h' : Only ps s t) : Only ps s (l.foldl f t) := h'.trans (Only.foldl h l t)

theorem Only.thenEachPort {ps : List Part} {f : PortNo → State → State} {s t : State}
    (h : ∀ n t, Only ps t (f n t)) (h' : Only ps s t) : Only ps s (t.eachPort f) := h'.trans (Only.eachPort h t)

theorem Only.phase {ps : List Part} {s t : State} (h : Only ps s t) (hp : Part.phase ∉ ps := by decide) :
    t.phase = s.phase := h _ hp

theorem Only.now {ps : List Part} {s t : State} (h : Only ps s t) (hp : Part.now ∉ ps := by decide) :
    t.now = s.now := h _ hp

theorem Only.taps {ps : List Part} {s t : State} (h : Only ps s t) (hp : Part.taps ∉ ps := by decide) :
    t.taps = s.taps := h _ hp

theorem Only.straps {ps : List Part} {s t : State} (h : Only ps s t) (hp : Part.straps ∉ ps := by decide) :
    t.straps = s.straps := h _ hp

theorem Only.interface {ps : List Part} {s t : State} (h : Only ps s t) (hp : Part.interface ∉ ps := by decide) :
    t.interface = s.interface := h _ hp

theorem Only.cfg {ps : List Part} {s t : State} (h : Only ps s t) (hp : Part.cfg ∉ ps := by decide) :
    t.cfg = s.cfg := h _ hp

theorem Only.pins {ps : List Part} {s t : State} (h : Only ps s t) (hp : Part.pins ∉ ps := by decide) :
    t.pins = s.pins := h _ hp

theorem Only.power {ps : List Part} {s t : State} (h : Only ps s t) (hp : Part.power ∉ ps := by decide) :
    t.power = s.power := h _ hp

theorem Only.wire {ps : List Part} {s t : State} (h : Only ps s t) (hp : Part.wire ∉ ps := by decide) :
    t.wire = s.wire := h _ hp

theorem Only.hold {ps : List Part} {s t : State} (h : Only ps s t) (hp : Part.hold ∉ ps := by decide) :
    t.hold = s.hold := h _ hp

theorem Only.noise {ps : List Part} {s t : State} (h : Only ps s t) (hp : Part.noise ∉ ps := by decide) :
    t.noise = s.noise := h _ hp

theorem Only.sup {ps : List Part} {s t : State} (h : Only ps s t) (hp : Part.sup ∉ ps := by decide) :
    t.sup = s.sup := h _ hp

theorem Only.ports {ps : List Part} {s t : State} (h : Only ps s t) (hp : Part.ports ∉ ps := by decide) :
    t.ports = s.ports := h _ hp

theorem Only.call {ps : List Part} {s t : State} (h : Only ps s t) (hp : Part.call ∉ ps := by decide) :
    t.call = s.call := h _ hp

theorem Only.fault {ps : List Part} {s t : State} (h : Only ps s t) (hp : Part.fault ∉ ps := by decide) :
    t.fault = s.fault := h _ hp

theorem Only.report {ps : List Part} {s t : State} (h : Only ps s t) (hp : Part.report ∉ ps := by decide) :
    t.report = s.report := h _ hp

theorem Only.svc {ps : List Part} {s t : State} (h : Only ps s t) (hp : Part.svc ∉ ps := by decide) :
    t.svc = s.svc := h _ hp

theorem Only.draws {ps : List Part} {s t : State} (h : Only ps s t) (hp : Part.draws ∉ ps := by decide) :
    t.draws = s.draws := h _ hp

theorem Only.outs {ps : List Part} {s t : State} (h : Only ps s t) (hp : Part.outs ∉ ps := by decide) :
    t.outs = s.outs := h _ hp

theorem Only.pending {ps : List Part} {s t : State} (h : Only ps s t) (hp : Part.pending ∉ ps := by decide) :
    t.pending = s.pending := h _ hp

end Sys2Proof
end

