-- ==== Sys2Proof/Laws/OnlyOps.lean ====
section
/-! SUPPORT. For each operation of the port updater, the parts of the state it can change. -/

set_option Elab.async false
set_option linter.unusedTactic false
set_option linter.unreachableTactic false

namespace Sys2Proof.Machine

theorem State.modPower_only (f : Power → Power) (s : State) : Only [.power] s (s.modPower f) := by
  intro q hq; cases q <;> first | rfl | exact absurd (by decide) hq

theorem State.modWire_only (f : Wire → Wire) (s : State) : Only [.wire] s (s.modWire f) := by
  intro q hq; cases q <;> first | rfl | exact absurd (by decide) hq

theorem State.modHold_only (f : Hold → Hold) (s : State) : Only [.hold] s (s.modHold f) := by
  intro q hq; cases q <;> first | rfl | exact absurd (by decide) hq

theorem State.modNoise_only (f : Noise → Noise) (s : State) : Only [.noise] s (s.modNoise f) := by
  intro q hq; cases q <;> first | rfl | exact absurd (by decide) hq

theorem State.modSup_only (f : Sup → Sup) (s : State) : Only [.sup] s (s.modSup f) := by
  intro q hq; cases q <;> first | rfl | exact absurd (by decide) hq

theorem State.modPorts_only (f : Ports → Ports) (s : State) : Only [.ports] s (s.modPorts f) := by
  intro q hq; cases q <;> first | rfl | exact absurd (by decide) hq

theorem State.modCall_only (f : Call → Call) (s : State) : Only [.call] s (s.modCall f) := by
  intro q hq; cases q <;> first | rfl | exact absurd (by decide) hq

theorem State.modFault_only (f : FaultMon → FaultMon) (s : State) : Only [.fault] s (s.modFault f) := by
  intro q hq; cases q <;> first | rfl | exact absurd (by decide) hq

theorem State.modReport_only (f : Report → Report) (s : State) : Only [.report] s (s.modReport f) := by
  intro q hq; cases q <;> first | rfl | exact absurd (by decide) hq

theorem State.modSvc_only (f : Svc → Svc) (s : State) : Only [.svc] s (s.modSvc f) := by
  intro q hq; cases q <;> first | rfl | exact absurd (by decide) hq

theorem State.tell_only (f : Pins → Pins) (s : State) : Only [.pins] s (s.tell f) := by
  intro q hq; cases q <;> first | rfl | exact absurd (by decide) hq

theorem State.emit_only (o : Out) (s : State) : Only [.outs] s (s.emit o) := by
  intro q hq; cases q <;> first | rfl | exact absurd (by decide) hq

theorem State.quiet_only (s : State) : Only [.outs] s (s.quiet) := by
  intro q hq; cases q <;> first | rfl | exact absurd (by decide) hq

theorem State.drew_only (s : State) : Only [.draws] s (s.drew) := by
  intro q hq; cases q <;> first | rfl | exact absurd (by decide) hq

theorem State.modTaps_only (f : Taps → Taps) (s : State) : Only [.taps] s (s.modTaps f) := by
  intro q hq; cases q <;> first | rfl | exact absurd (by decide) hq

theorem State.modPort_only (n : PortNo) (f : Port → Port) (s : State) : Only [.ports] s (State.modPort n f s) := by
  unfold State.modPort
  repeat' first
    | with_reducible exact Only.refl _ _
    | with_reducible apply Only.after (State.modPorts_only _ _)
    | decide +kernel

end Sys2Proof.Machine
end

