-- ==== Sys2Proof/Laws/OnlyFlags.lean ====
section
/-! SUPPORT. For each operation of the conditions, the triggers and the lamp, the parts of the state it can change. -/

set_option Elab.async false
set_option linter.unusedTactic false
set_option linter.unreachableTactic false

namespace Sys2Proof.Machine

theorem modRun_only (n : Nat) (f : TrigRun → TrigRun) (s : State) : Only [.fault] s (modRun n f s) := by
  unfold modRun
  repeat' first
    | with_reducible exact Only.refl _ _
    | with_reducible apply Only.after (State.modFault_only _ _)
    | decide +kernel

theorem recordGone_only (n : Nat) (s : State) : Only [.fault] s (recordGone n s) := by
  unfold recordGone
  repeat' first
    | with_reducible exact Only.refl _ _
    | with_reducible apply Only.after (modRun_only _ _ _)
    | decide +kernel

theorem setFaultList_only (l : List FaultRecord) (s : State) : Only [.fault] s (setFaultList l s) := by
  unfold setFaultList
  repeat' first
    | with_reducible exact Only.refl _ _
    | with_reducible apply Only.after (State.modFault_only _ _)
    | decide +kernel

theorem makeRoom_only {v : Nat} {s t : State} (h : makeRoom v s = some t) : Only [.fault] s t := by
  unfold makeRoom at h
  split at h
  · cases h; exact Only.refl _ _
  · split at h
    · cases h; exact setFaultList_only _ _
    · split at h
      · split at h
        · cases h; exact (recordGone_only _ _).after (setFaultList_only _ _) rfl
        · cases h
      · cases h

theorem createRecord_only (n : Nat) (t : TrigCfg) (s : State) : Only [.fault] s (createRecord n t s) := by
  unfold createRecord
  split
  · next h => exact (modRun_only _ _ _).after ((setFaultList_only _ _).after (makeRoom_only h) rfl) rfl
  · exact Only.refl _ _

theorem rewriteQueued_only (n : Nat) (s : State) : Only [.fault, .report] s (rewriteQueued n s) := by
  unfold rewriteQueued
  repeat' first
    | with_reducible exact Only.refl _ _
    | split
    | (intro q hq; cases q <;> first
    | rfl
    | exact absurd (by decide) hq)
    | decide +kernel

theorem coalesce_only (n : Nat) (s : State) : Only [.fault, .report] s (coalesce n s) := by
  unfold coalesce
  repeat' first
    | with_reducible exact Only.refl _ _
    | dsimp only
    | split
    | with_reducible apply Only.after (rewriteQueued_only _ _)
    | with_reducible apply Only.after (setFaultList_only _ _)
    | decide +kernel

theorem rise_only (n : Nat) (t : TrigCfg) (r : TrigRun) (s : State) : Only [.fault, .report] s (rise n t r s) := by
  unfold rise
  repeat' first
    | with_reducible exact Only.refl _ _
    | split
    | with_reducible apply Only.after (coalesce_only _ _)
    | with_reducible apply Only.after (createRecord_only _ _ _)
    | decide +kernel

theorem evalTrigger_only (s : State) (n : Nat) : Only [.fault, .report] s (evalTrigger s n) := by
  unfold evalTrigger
  repeat' first
    | with_reducible exact Only.refl _ _
    | split
    | with_reducible apply Only.after (modRun_only _ _ _)
    | with_reducible apply Only.after (rise_only _ _ _ _)
    | decide +kernel

theorem evalTriggers_only (s : State) : Only [.fault, .report] s (evalTriggers s) := by
  unfold evalTriggers
  repeat' first
    | with_reducible exact Only.refl _ _
    | with_reducible apply Only.after (evalTrigger_only _ _)
    | with_reducible apply Only.thenFoldl
    | with_reducible intro _ _
    | decide +kernel

theorem setConds_only (v : BitVec 16) (s : State) : Only [.fault, .report] s (setConds v s) := by
  unfold setConds
  repeat' first
    | with_reducible exact Only.refl _ _
    | split
    | with_reducible apply Only.after (State.modFault_only _ _)
    | with_reducible apply Only.after (evalTriggers_only _)
    | decide +kernel

theorem setCond_only (c : Cond) (b : Bool) (s : State) : Only [.fault, .report] s (setCond c b s) := by
  unfold setCond
  repeat' first
    | with_reducible exact Only.refl _ _
    | with_reducible apply Only.after (setConds_only _ _)
    | decide +kernel

theorem settleLamp_only (s : State) : Only [.fault] s (settleLamp s) := by
  unfold settleLamp
  repeat' first
    | with_reducible exact Only.refl _ _
    | split
    | with_reducible apply Only.after (State.modFault_only _ _)
    | decide +kernel

end Sys2Proof.Machine
end

