-- ==== Sys2Proof/Laws/OnlyWire.lean ====
section
/-! SUPPORT. For each operation of the wire controller, the parts of the state it can change. -/

set_option Elab.async false
set_option linter.unusedTactic false
set_option linter.unreachableTactic false

namespace Sys2Proof.Machine

theorem noteDropped_only (b : Body) (s : State) : Only [.wire] s (noteDropped b s) := by
  unfold noteDropped
  repeat' first
    | with_reducible exact Only.refl _ _
    | with_reducible apply Only.after (State.modWire_only _ _)
    | decide +kernel

theorem offerVoice_only (dst : Nat) (m : VoiceMsg) (s : State) : Only [.wire] s (offerVoice dst m s) := by
  unfold offerVoice
  repeat' first
    | with_reducible exact Only.refl _ _
    | split
    | with_reducible apply Only.after (State.modWire_only _ _)
    | decide +kernel

theorem offerControl_only (dst : Nat) (b : Body) (s : State) : Only [.wire] s (offerControl dst b s) := by
  unfold offerControl
  repeat' first
    | with_reducible exact Only.refl _ _
    | split
    | with_reducible apply Only.after (State.modWire_only _ _)
    | with_reducible apply Only.after (noteDropped_only _ _)
    | decide +kernel

theorem offerGasp_only (r : FaultRecord) (held : Bool) (s : State) : Only [.wire] s (offerGasp r held s) := by
  unfold offerGasp
  repeat' first
    | with_reducible exact Only.refl _ _
    | with_reducible apply Only.after (State.modWire_only _ _)
    | decide +kernel

theorem offerData_only (dst : Option Nat) (f : LinkFrame) (s : State) : Only [.wire] s (offerData dst f s) := by
  unfold offerData
  repeat' first
    | with_reducible exact Only.refl _ _
    | split
    | with_reducible apply Only.after (State.modWire_only _ _)
    | decide +kernel

theorem flushData_only (s : State) : Only [.wire] s (flushData s) := by
  unfold flushData
  repeat' first
    | with_reducible exact Only.refl _ _
    | with_reducible apply Only.after (State.modWire_only _ _)
    | decide +kernel

theorem flushAll_only (s : State) : Only [.wire] s (flushAll s) := by
  unfold flushAll
  repeat' first
    | with_reducible exact Only.refl _ _
    | with_reducible apply Only.after (State.modWire_only _ _)
    | decide +kernel

theorem openRound_only (s : State) : Only [.wire] s (openRound s) := by
  unfold openRound
  repeat' first
    | with_reducible exact Only.refl _ _
    | with_reducible apply Only.after (State.modWire_only _ _)
    | decide +kernel

theorem contend_only (s : State) : Only [.wire] s (contend s) := by
  unfold contend
  repeat' first
    | with_reducible exact Only.refl _ _
    | split
    | with_reducible apply Only.after (openRound_only _)
    | decide +kernel

theorem markBusy_only (s : State) : Only [.noise] s (markBusy s) := by
  unfold markBusy
  repeat' first
    | with_reducible exact Only.refl _ _
    | with_reducible apply Only.after (State.modNoise_only _ _)
    | decide +kernel

theorem startFrame_only (c : FrameClass) (e : TxEntry) (s : State) : Only [.wire, .noise, .outs] s (startFrame c e
    s) := by
  unfold startFrame
  repeat' first
    | with_reducible exact Only.refl _ _
    | with_reducible apply Only.after (State.emit_only _ _)
    | with_reducible apply Only.after (State.modWire_only _ _)
    | with_reducible apply Only.after (markBusy_only _)
    | decide +kernel

theorem slotBegin_only (slot : Nat) (s : State) : Only [.wire, .noise, .outs] s (slotBegin slot s) := by
  unfold slotBegin
  repeat' first
    | with_reducible exact Only.refl _ _
    | dsimp only
    | split
    | with_reducible apply Only.after (State.modWire_only _ _)
    | with_reducible apply Only.after (startFrame_only _ _ _)
    | decide +kernel

theorem removeTx_only (c : FrameClass) (s : State) : Only [.wire] s (removeTx c s) := by
  unfold removeTx
  repeat' first
    | with_reducible exact Only.refl _ _
    | with_reducible apply Only.after (State.modWire_only _ _)
    | decide +kernel

theorem keepTx_only (c : FrameClass) (f : TxEntry → TxEntry) (s : State) : Only [.wire] s (keepTx c f s) := by
  unfold keepTx
  repeat' first
    | with_reducible exact Only.refl _ _
    | with_reducible apply Only.after (State.modWire_only _ _)
    | decide +kernel

theorem reportDropped_only (c : FrameClass) (b : Body) (s : State) : Only [.wire] s (reportDropped c b s) := by
  unfold reportDropped
  repeat' first
    | with_reducible exact Only.refl _ _
    | split
    | with_reducible apply Only.after (noteDropped_only _ _)
    | decide +kernel

theorem flushedEnd_only (c : FrameClass) (e : TxEntry) (s : State) : Only [.wire] s (flushedEnd c e s) := by
  unfold flushedEnd
  repeat' first
    | with_reducible exact Only.refl _ _
    | split
    | with_reducible apply Only.after (removeTx_only _ _)
    | with_reducible apply Only.after (reportDropped_only _ _ _)
    | decide +kernel

theorem collideFrame_only (c : FrameClass) (e : TxEntry) (s : State) : Only [.wire, .draws] s (collideFrame c e s) := by
  unfold collideFrame
  repeat' first
    | with_reducible exact Only.refl _ _
    | dsimp only
    | split
    | with_reducible apply Only.after (State.drew_only _)
    | with_reducible apply Only.after (flushedEnd_only _ _ _)
    | with_reducible apply Only.after (keepTx_only _ _ _)
    | with_reducible apply Only.after (removeTx_only _ _)
    | with_reducible apply Only.after (reportDropped_only _ _ _)
    | decide +kernel

theorem wireTap_only (s : State) : Only [.wire, .fault, .report] s (wireTap s) := by
  unfold wireTap
  repeat' first
    | with_reducible exact Only.refl _ _
    | with_reducible apply Only.after (State.modWire_only _ _)
    | with_reducible apply Only.after (setCond_only _ _ _)
    | decide +kernel

theorem countError_only (s : State) : Only [.wire] s (countError s) := by
  unfold countError
  repeat' first
    | with_reducible exact Only.refl _ _
    | with_reducible apply Only.after (State.modWire_only _ _)
    | decide +kernel

end Sys2Proof.Machine
end

