-- ==== Sys2Proof/Laws/OnlyNoise.lean ====
section
/-! SUPPORT. For each operation of the noise tracker, the parts of the state it can change. -/

set_option Elab.async false
set_option linter.unusedTactic false
set_option linter.unreachableTactic false

namespace Sys2Proof.Machine

theorem putSlot_only (n : SlotName) (t : Option Track) (s : State) : Only [.wire, .noise] s (putSlot n t s) := by
  unfold putSlot
  repeat' first
    | with_reducible exact Only.refl _ _
    | dsimp only
    | split
    | with_reducible apply Only.after (State.modNoise_only _ _)
    | with_reducible apply Only.after (contend_only _)
    | decide +kernel

theorem formTrack_only (t : Tick) (s : State) : Only [.wire, .noise] s (formTrack t s) := by
  unfold formTrack
  repeat' first
    | with_reducible exact Only.refl _ _
    | dsimp only
    | split
    | with_reducible apply Only.after (State.modNoise_only _ _)
    | with_reducible apply Only.after (putSlot_only _ _ _)
    | decide +kernel

theorem hitOne_only (t : Tick) (s : State) (n : SlotName) : Only [.wire, .noise] s (hitOne t s n) := by
  unfold hitOne
  repeat' first
    | with_reducible exact Only.refl _ _
    | split
    | with_reducible apply Only.after (putSlot_only _ _ _)
    | decide +kernel

theorem impulse_only (s : State) : Only [.wire, .noise] s (impulse s) := by
  unfold impulse
  repeat' first
    | with_reducible exact Only.refl _ _
    | dsimp only
    | split
    | with_reducible apply Only.after (State.modNoise_only _ _)
    | with_reducible apply Only.after (formTrack_only _ _)
    | with_reducible apply Only.after (hitOne_only _ _ _)
    | with_reducible apply Only.thenFoldl
    | with_reducible intro _ _
    | decide +kernel

theorem captureExpiry_only (n : SlotName) (s : State) : Only [.wire, .noise] s (captureExpiry n s) := by
  unfold captureExpiry
  repeat' first
    | with_reducible exact Only.refl _ _
    | split
    | with_reducible apply Only.after (putSlot_only _ _ _)
    | decide +kernel

theorem refreshExpiry_only (n : SlotName) (s : State) : Only [.wire, .noise] s (refreshExpiry n s) := by
  unfold refreshExpiry
  repeat' first
    | with_reducible exact Only.refl _ _
    | split
    | with_reducible apply Only.after (putSlot_only _ _ _)
    | decide +kernel

theorem lenderGoneAt_only (id : Nat) (s : State) (n : SlotName) : Only [.wire, .noise] s (lenderGoneAt id s n) := by
  unfold lenderGoneAt
  repeat' first
    | with_reducible exact Only.refl _ _
    | split
    | with_reducible apply Only.after (putSlot_only _ _ _)
    | decide +kernel

theorem lenderGone_only (s : State) (id : Nat) : Only [.wire, .noise] s (lenderGone s id) := by
  unfold lenderGone
  repeat' first
    | with_reducible exact Only.refl _ _
    | with_reducible apply Only.after (lenderGoneAt_only _ _ _)
    | with_reducible apply Only.thenFoldl
    | with_reducible intro _ _
    | decide +kernel

theorem refreshWindow_only (n : SlotName) (s : State) : Only [.wire, .noise] s (refreshWindow n s) := by
  unfold refreshWindow
  repeat' first
    | with_reducible exact Only.refl _ _
    | with_reducible apply Only.after (putSlot_only _ _ _)
    | decide +kernel

theorem announceAt_only (src : Nat) (start arrival : Tick) (m : TrackMsg) (s : State) (n : SlotName) : Only [.wire,
    .noise] s (announceAt src start arrival m s n) := by
  unfold announceAt
  repeat' first
    | with_reducible exact Only.refl _ _
    | split
    | with_reducible apply Only.after (putSlot_only _ _ _)
    | decide +kernel

theorem takeTrack_only (src : Nat) (start : Tick) (s : State) (m : TrackMsg) : Only [.wire, .noise] s (takeTrack src
    start s m) := by
  unfold takeTrack
  repeat' first
    | with_reducible exact Only.refl _ _
    | dsimp only
    | split
    | with_reducible apply Only.after (announceAt_only _ _ _ _ _ _)
    | with_reducible apply Only.after (putSlot_only _ _ _)
    | with_reducible apply Only.thenFoldl
    | with_reducible intro _ _
    | decide +kernel

theorem takeTracks_only (src : Nat) (start : Tick) (ms : List TrackMsg) (s : State) : Only [.wire, .noise] s
    (takeTracks src start ms s) := by
  unfold takeTracks
  repeat' first
    | with_reducible exact Only.refl _ _
    | with_reducible apply Only.after (takeTrack_only _ _ _ _)
    | with_reducible apply Only.thenFoldl
    | with_reducible intro _ _
    | decide +kernel

theorem noiseTap_only (s : State) : Only [.noise, .fault, .report] s (noiseTap s) := by
  unfold noiseTap
  repeat' first
    | with_reducible exact Only.refl _ _
    | with_reducible apply Only.after (State.modNoise_only _ _)
    | with_reducible apply Only.after (setCond_only _ _ _)
    | decide +kernel

end Sys2Proof.Machine
end

