-- ==== Sys2Proof/Laws/OnlySupervisor.lean ====
section
/-! SUPPORT. For each operation of the modem supervisor, the parts of the state it can change. -/

set_option Elab.async false
set_option linter.unusedTactic false
set_option linter.unreachableTactic false

namespace Sys2Proof.Machine

theorem withdrawOffer_only (s : State) : Only [.sup, .outs] s (withdrawOffer s) := by
  unfold withdrawOffer
  repeat' first
    | with_reducible exact Only.refl _ _
    | split
    | with_reducible apply Only.after (State.emit_only _ _)
    | with_reducible apply Only.after (State.modSup_only _ _)
    | decide +kernel

theorem goOff_only (s : State) : Only [.sup, .outs] s (goOff s) := by
  unfold goOff
  repeat' first
    | with_reducible exact Only.refl _ _
    | with_reducible apply Only.after (State.modSup_only _ _)
    | with_reducible apply Only.after (withdrawOffer_only _)
    | decide +kernel

theorem enterSynced_only (s : State) : Only [.sup, .fault, .report] s (enterSynced s) := by
  unfold enterSynced
  repeat' first
    | with_reducible exact Only.refl _ _
    | with_reducible apply Only.after (State.modSup_only _ _)
    | with_reducible apply Only.after (setCond_only _ _ _)
    | decide +kernel

theorem enterTraining_only (s : State) : Only [.sup, .fault, .report] s (enterTraining s) := by
  unfold enterTraining
  repeat' first
    | with_reducible exact Only.refl _ _
    | dsimp only
    | split
    | with_reducible apply Only.after (State.modSup_only _ _)
    | with_reducible apply Only.after (enterSynced_only _)
    | decide +kernel

theorem enterBackoff_only (s : State) : Only [.sup] s (enterBackoff s) := by
  unfold enterBackoff
  repeat' first
    | with_reducible exact Only.refl _ _
    | with_reducible apply Only.after (State.modSup_only _ _)
    | decide +kernel

theorem enterLost_only (s : State) : Only [.sup, .fault, .report, .outs] s (enterLost s) := by
  unfold enterLost
  repeat' first
    | with_reducible exact Only.refl _ _
    | dsimp only
    | split
    | with_reducible apply Only.after (State.modSup_only _ _)
    | with_reducible apply Only.after (setCond_only _ _ _)
    | with_reducible apply Only.after (withdrawOffer_only _)
    | decide +kernel

theorem pwrOff_only (s : State) : Only [.sup, .fault, .report, .outs] s (pwrOff s) := by
  unfold pwrOff
  repeat' first
    | with_reducible exact Only.refl _ _
    | with_reducible apply Only.after (State.modSup_only _ _)
    | with_reducible apply Only.after (goOff_only _)
    | with_reducible apply Only.after (setCond_only _ _ _)
    | decide +kernel

theorem pwrOn_only (s : State) : Only [.sup] s (pwrOn s) := by
  unfold pwrOn
  repeat' first
    | with_reducible exact Only.refl _ _
    | split
    | with_reducible apply Only.after (State.modSup_only _ _)
    | decide +kernel

theorem readyChange_only (old new : Bool) (s : State) : Only [.sup, .fault, .report] s (readyChange old new s) := by
  unfold readyChange
  repeat' first
    | with_reducible exact Only.refl _ _
    | split
    | with_reducible apply Only.after (State.modSup_only _ _)
    | with_reducible apply Only.after (setCond_only _ _ _)
    | decide +kernel

theorem readyTimerExpiry_only (s : State) : Only [.sup, .fault, .report] s (readyTimerExpiry s) := by
  unfold readyTimerExpiry
  repeat' first
    | with_reducible exact Only.refl _ _
    | split
    | with_reducible apply Only.after (State.modSup_only _ _)
    | with_reducible apply Only.after (setCond_only _ _ _)
    | decide +kernel

theorem syncRise_only (s : State) : Only [.sup, .fault, .report] s (syncRise s) := by
  unfold syncRise
  repeat' first
    | with_reducible exact Only.refl _ _
    | split
    | with_reducible apply Only.after (enterSynced_only _)
    | decide +kernel

theorem syncFall_only (s : State) : Only [.sup, .fault, .report, .outs] s (syncFall s) := by
  unfold syncFall
  repeat' first
    | with_reducible exact Only.refl _ _
    | split
    | with_reducible apply Only.after (enterLost_only _)
    | decide +kernel

theorem trainingTimeout_only (s : State) : Only [.sup, .fault, .report] s (trainingTimeout s) := by
  unfold trainingTimeout
  repeat' first
    | with_reducible exact Only.refl _ _
    | dsimp only
    | split
    | with_reducible apply Only.after (State.modSup_only _ _)
    | with_reducible apply Only.after (enterBackoff_only _)
    | with_reducible apply Only.after (setCond_only _ _ _)
    | decide +kernel

theorem graceTimeout_only (s : State) : Only [.sup] s (graceTimeout s) := by
  unfold graceTimeout
  repeat' first
    | with_reducible exact Only.refl _ _
    | split
    | with_reducible apply Only.after (enterBackoff_only _)
    | decide +kernel

theorem backoffWaitEnd_only (s : State) : Only [.sup, .fault, .report] s (backoffWaitEnd s) := by
  unfold backoffWaitEnd
  repeat' first
    | with_reducible exact Only.refl _ _
    | split
    | with_reducible apply Only.after (enterTraining_only _)
    | decide +kernel

theorem holdTimeTap_only (s : State) : Only [.sup, .fault, .report] s (holdTimeTap s) := by
  unfold holdTimeTap
  repeat' first
    | with_reducible exact Only.refl _ _
    | dsimp only
    | split
    | with_reducible apply Only.after (State.modSup_only _ _)
    | with_reducible apply Only.after (setCond_only _ _ _)
    | decide +kernel

theorem supTap_only (s : State) : Only [.sup] s (supTap s) := by
  unfold supTap
  repeat' first
    | with_reducible exact Only.refl _ _
    | with_reducible apply Only.after (State.modSup_only _ _)
    | decide +kernel

theorem adoptProfile_only (p : Nat) (s : State) : Only [.sup] s (adoptProfile p s) := by
  unfold adoptProfile
  repeat' first
    | with_reducible exact Only.refl _ _
    | split
    | with_reducible apply Only.after (State.modSup_only _ _)
    | decide +kernel

theorem uplinkTake_only (station : Nat) (f : LinkFrame) (s : State) : Only [.sup] s (uplinkTake station f s) := by
  unfold uplinkTake
  repeat' first
    | with_reducible exact Only.refl _ _
    | split
    | with_reducible apply Only.after (State.modSup_only _ _)
    | decide +kernel

theorem dataFrame_only (src dst : Nat) (f : LinkFrame) (s : State) : Only [.sup, .outs] s (dataFrame src dst f s) := by
  unfold dataFrame
  repeat' first
    | with_reducible exact Only.refl _ _
    | split
    | with_reducible apply Only.after (State.emit_only _ _)
    | with_reducible apply Only.after (uplinkTake_only _ _ _)
    | decide +kernel

theorem packetReceive_only (f : LinkFrame) (s : State) : Only [.wire, .sup] s (packetReceive f s) := by
  unfold packetReceive
  repeat' first
    | with_reducible exact Only.refl _ _
    | split
    | with_reducible apply Only.after (offerData_only _ _ _)
    | with_reducible apply Only.after (uplinkTake_only _ _ _)
    | decide +kernel

theorem routeDown_only (f : LinkFrame) (s : State) : Only [.wire, .outs] s (routeDown f s) := by
  unfold routeDown
  repeat' first
    | with_reducible exact Only.refl _ _
    | split
    | with_reducible apply Only.after (State.emit_only _ _)
    | with_reducible apply Only.after (offerData_only _ _ _)
    | decide +kernel

theorem downstreamFrame_only (began : Tick) (f : LinkFrame) (s : State) : Only [.wire, .outs] s (downstreamFrame
    began f s) := by
  unfold downstreamFrame
  repeat' first
    | with_reducible exact Only.refl _ _
    | split
    | with_reducible apply Only.after (routeDown_only _ _)
    | decide +kernel

theorem addressHead_only (s : State) : Only [.wire, .sup] s (addressHead s) := by
  unfold addressHead
  repeat' first
    | with_reducible exact Only.refl _ _
    | split
    | with_reducible apply Only.after (State.modWire_only _ _)
    | with_reducible apply Only.after (uplinkTake_only _ _ _)
    | decide +kernel

theorem settleDataHead_only (s : State) : Only [.wire, .sup] s (settleDataHead s) := by
  unfold settleDataHead
  repeat' first
    | with_reducible exact Only.refl _ _
    | with_reducible apply Only.after (addressHead_only _)
    | with_reducible apply Only.thenFoldl
    | with_reducible intro _ _
    | decide +kernel

theorem startTransfer_only (s : State) : Only [.sup, .outs] s (startTransfer s) := by
  unfold startTransfer
  repeat' first
    | with_reducible exact Only.refl _ _
    | split
    | with_reducible apply Only.after (State.emit_only _ _)
    | with_reducible apply Only.after (State.modSup_only _ _)
    | decide +kernel

theorem transferEnd_only (s : State) : Only [.sup] s (transferEnd s) := by
  unfold transferEnd
  repeat' first
    | with_reducible exact Only.refl _ _
    | with_reducible apply Only.after (State.modSup_only _ _)
    | decide +kernel

theorem mailboxOffer_only (s : State) : Only [.sup, .outs] s (mailboxOffer s) := by
  unfold mailboxOffer
  repeat' first
    | with_reducible exact Only.refl _ _
    | split
    | with_reducible apply Only.after (State.emit_only _ _)
    | with_reducible apply Only.after (State.modSup_only _ _)
    | decide +kernel

end Sys2Proof.Machine
end

