-- ==== Sys2Proof/Laws/OnlyCalls.lean ====
section
/-! SUPPORT. For each operation of ports and calls, the parts of the state it can change. -/

set_option Elab.async false
set_option linter.unusedTactic false
set_option linter.unreachableTactic false

namespace Sys2Proof.Machine

theorem dropBinding_only (n : PortNo) (s : State) : Only [.call] s (dropBinding n s) := by
  unfold dropBinding
  repeat' first
    | with_reducible exact Only.refl _ _
    | with_reducible apply Only.after (State.modCall_only _ _)
    | decide +kernel

theorem clearPort_only (n : PortNo) (cause : Option PortCause) (ref : Option (Nat × Nat)) (s : State) : Only
    [.ports, .call] s (clearPort n cause ref s) := by
  unfold clearPort
  repeat' first
    | with_reducible exact Only.refl _ _
    | with_reducible apply Only.after (State.modPort_only _ _ _)
    | with_reducible apply Only.after (dropBinding_only _ _)
    | decide +kernel

theorem refusePort_only (n : PortNo) (c : RefuseCause) (ref : Nat × Nat) (s : State) : Only [.ports, .call] s
    (refusePort n c ref s) := by
  unfold refusePort
  repeat' first
    | with_reducible exact Only.refl _ _
    | with_reducible apply Only.after (clearPort_only _ _ _ _)
    | decide +kernel

theorem idlePort_only (n : PortNo) (s : State) : Only [.ports] s (idlePort n s) := by
  unfold idlePort
  repeat' first
    | with_reducible exact Only.refl _ _
    | with_reducible apply Only.after (State.modPort_only _ _ _)
    | decide +kernel

theorem connectPort_only (n : PortNo) (c : CallRef) (s : State) : Only [.ports] s (connectPort n c s) := by
  unfold connectPort
  repeat' first
    | with_reducible exact Only.refl _ _
    | dsimp only
    | split
    | with_reducible apply Only.after (State.modPort_only _ _ _)
    | decide +kernel

theorem useTag_only (s : State) : Only [.ports] s (useTag s) := by
  unfold useTag
  repeat' first
    | with_reducible exact Only.refl _ _
    | with_reducible apply Only.after (State.modPorts_only _ _)
    | decide +kernel

theorem sendRequest_only (k : RequestKind) (dst : Nat) (m : RequestMsg) (s : State) : Only [.wire, .ports] s
    (sendRequest k dst m s) := by
  unfold sendRequest
  repeat' first
    | with_reducible exact Only.refl _ _
    | with_reducible apply Only.after (offerControl_only _ _ _)
    | with_reducible apply Only.after (useTag_only _)
    | decide +kernel

theorem modRecord_only (f : CallRecord → CallRecord) (s : State) : Only [.call] s (modRecord f s) := by
  unfold modRecord
  repeat' first
    | with_reducible exact Only.refl _ _
    | with_reducible apply Only.after (State.modCall_only _ _)
    | decide +kernel

theorem abortTest_only (s : State) : Only [.fault] s (abortTest s) := by
  unfold abortTest
  repeat' first
    | with_reducible exact Only.refl _ _
    | with_reducible apply Only.after (State.modFault_only _ _)
    | decide +kernel

theorem takeClear_only (n : PortNo) (id : Nat) (c : ClearCause) (s : State) : Only [.ports, .call] s (takeClear n id
    c s) := by
  unfold takeClear
  repeat' first
    | with_reducible exact Only.refl _ _
    | split
    | with_reducible apply Only.after (clearPort_only _ _ _ _)
    | decide +kernel

theorem sendClear_only (st po id : Nat) (c : ClearCause) (s : State) : Only [.wire, .ports, .call] s (sendClear st
    po id c s) := by
  unfold sendClear
  repeat' first
    | with_reducible exact Only.refl _ _
    | split
    | with_reducible apply Only.after (offerControl_only _ _ _)
    | with_reducible apply Only.after (takeClear_only _ _ _ _)
    | decide +kernel

theorem endRecord_only (cause : Option ClearCause) (s : State) : Only [.wire, .ports, .call] s (endRecord cause s) := by
  unfold endRecord
  repeat' first
    | with_reducible exact Only.refl _ _
    | dsimp only
    | split
    | with_reducible apply Only.after (State.modCall_only _ _)
    | with_reducible apply Only.after (sendClear_only _ _ _ _ _)
    | with_reducible apply Only.thenFoldl
    | with_reducible intro _ _
    | decide +kernel

theorem removeParty_only (st po : Nat) (s : State) : Only [.call] s (removeParty st po s) := by
  unfold removeParty
  repeat' first
    | with_reducible exact Only.refl _ _
    | split
    | with_reducible apply Only.after (State.modCall_only _ _)
    | decide +kernel

theorem createCall_only (st po : Nat) (s : State) : Only [.call, .fault] s (createCall st po s) := by
  unfold createCall
  repeat' first
    | with_reducible exact Only.refl _ _
    | with_reducible apply Only.after (State.modCall_only _ _)
    | with_reducible apply Only.after (abortTest_only _)
    | decide +kernel

theorem regrant_only (st po : Nat) (s : State) : Only [.call] s (regrant st po s) := by
  unfold regrant
  repeat' first
    | with_reducible exact Only.refl _ _
    | split
    | with_reducible apply Only.after (modRecord_only _ _)
    | decide +kernel

theorem joinCall_only (st po : Nat) (s : State) : Only [.call] s (joinCall st po s) := by
  unfold joinCall
  repeat' first
    | with_reducible exact Only.refl _ _
    | with_reducible apply Only.after (modRecord_only _ _)
    | decide +kernel

theorem judgeHolding_only (k : RequestKind) (st po cls : Nat) (s : State) : Only [.call, .fault] s (judgeHolding k
    st po cls s).1 := by
  unfold judgeHolding
  repeat' first
    | with_reducible exact Only.refl _ _
    | split
    | with_reducible apply Only.after (createCall_only _ _ _)
    | with_reducible apply Only.after (joinCall_only _ _ _)
    | with_reducible apply Only.after (regrant_only _ _ _)
    | decide +kernel
    | dsimp only

theorem judgeHolding_of {k : RequestKind} {st po cls : Nat} {s : State} {t : State} {v}
    (h : judgeHolding k st po cls s = (t, v)) : Only [.call, .fault] s t := by
  have h' := judgeHolding_only k st po cls s
  rw [h] at h'
  exact h'

theorem judge_only (k : RequestKind) (st po cls : Nat) (s : State) : Only [.call, .fault] s (judge k st po cls s).1 := by
  unfold judge
  repeat' first
    | with_reducible exact Only.refl _ _
    | dsimp only
    | split
    | with_reducible apply Only.after (judgeHolding_only _ _ _ _ _)
    | decide +kernel
    | with_reducible refine Only.after (judgeHolding_of (by assumption)) ?_ (by decide +kernel)

theorem judge_of {k : RequestKind} {st po cls : Nat} {s : State} {t : State} {v}
    (h : judge k st po cls s = (t, v)) : Only [.call, .fault] s t := by
  have h' := judge_only k st po cls s
  rw [h] at h'
  exact h'

theorem requestFrame_only (k : RequestKind) (st : Nat) (m : RequestMsg) (s : State) : Only [.wire, .call, .fault] s (requestFrame k st m s) := by
  unfold requestFrame
  split
  · next h => exact (offerControl_only _ _ _).after ((judge_of h).mono (by decide +kernel)) (by decide +kernel)
  · next h => exact (judge_of h).mono (by decide +kernel)

theorem takeLeave_only (st po ref : Nat) (s : State) : Only [.call] s (takeLeave st po ref s) := by
  unfold takeLeave
  repeat' first
    | with_reducible exact Only.refl _ _
    | split
    | with_reducible apply Only.after (removeParty_only _ _ _)
    | decide +kernel

theorem seizeTimeout_only (s : State) : Only [.wire, .ports, .call, .fault, .report] s (seizeTimeout s) := by
  unfold seizeTimeout
  repeat' first
    | with_reducible exact Only.refl _ _
    | split
    | with_reducible apply Only.after (endRecord_only _ _)
    | with_reducible apply Only.after (setCond_only _ _ _)
    | decide +kernel

theorem currentRise_only (s : State) : Only [.call, .fault, .report] s (currentRise s) := by
  unfold currentRise
  repeat' first
    | with_reducible exact Only.refl _ _
    | split
    | with_reducible apply Only.after (modRecord_only _ _)
    | with_reducible apply Only.after (setCond_only _ _ _)
    | decide +kernel

theorem settleLoss_only (s : State) : Only [.call] s (settleLoss s) := by
  unfold settleLoss
  repeat' first
    | with_reducible exact Only.refl _ _
    | with_reducible apply Only.after (modRecord_only _ _)
    | decide +kernel

theorem lossTimeout_only (s : State) : Only [.wire, .ports, .call] s (lossTimeout s) := by
  unfold lossTimeout
  repeat' first
    | with_reducible exact Only.refl _ _
    | split
    | with_reducible apply Only.after (endRecord_only _ _)
    | decide +kernel

theorem startOutpulse_only (s : State) : Only [.call] s (startOutpulse s) := by
  unfold startOutpulse
  repeat' first
    | with_reducible exact Only.refl _ _
    | split
    | with_reducible apply Only.after (modRecord_only _ _)
    | decide +kernel

theorem nextPart_only (s : State) : Only [.call] s (nextPart s) := by
  unfold nextPart
  repeat' first
    | with_reducible exact Only.refl _ _
    | with_reducible apply Only.after (modRecord_only _ _)
    | decide +kernel

theorem breakEnd_only (s : State) : Only [.call] s (breakEnd s) := by
  unfold breakEnd
  repeat' first
    | with_reducible exact Only.refl _ _
    | split
    | with_reducible apply Only.after (nextPart_only _)
    | decide +kernel

theorem makeEnd_only (s : State) : Only [.call] s (makeEnd s) := by
  unfold makeEnd
  repeat' first
    | with_reducible exact Only.refl _ _
    | split
    | with_reducible apply Only.after (nextPart_only _)
    | decide +kernel

theorem pauseEnd_only (s : State) : Only [.call] s (pauseEnd s) := by
  unfold pauseEnd
  repeat' first
    | with_reducible exact Only.refl _ _
    | split
    | with_reducible apply Only.after (nextPart_only _)
    | decide +kernel

theorem staleFrame_only (st po ref : Nat) (s : State) : Only [.wire, .ports, .call] s (staleFrame st po ref s) := by
  unfold staleFrame
  repeat' first
    | with_reducible exact Only.refl _ _
    | split
    | with_reducible apply Only.after (State.modCall_only _ _)
    | with_reducible apply Only.after (sendClear_only _ _ _ _ _)
    | decide +kernel

theorem partyVoice_only (st po ref : Nat) (q : Byte) (x : Speech) (s : State) : Only [.wire, .ports, .call] s
    (partyVoice st po ref q x s) := by
  unfold partyVoice
  repeat' first
    | with_reducible exact Only.refl _ _
    | split
    | with_reducible apply Only.after (modRecord_only _ _)
    | with_reducible apply Only.after (staleFrame_only _ _ _ _)
    | decide +kernel

theorem takeDial_only (st po ref : Nat) (i : DialItem) (s : State) : Only [.wire, .ports, .call] s (takeDial st po
    ref i s) := by
  unfold takeDial
  repeat' first
    | with_reducible exact Only.refl _ _
    | split
    | with_reducible apply Only.after (modRecord_only _ _)
    | with_reducible apply Only.after (staleFrame_only _ _ _ _)
    | decide +kernel

theorem dialFrame_only (st : Nat) (m : DialMsg) (s : State) : Only [.wire, .ports, .call] s (dialFrame st m s) := by
  unfold dialFrame
  repeat' first
    | with_reducible exact Only.refl _ _
    | split
    | with_reducible apply Only.after (staleFrame_only _ _ _ _)
    | with_reducible apply Only.after (takeDial_only _ _ _ _ _)
    | decide +kernel

theorem partySilence_only (st po : Nat) (s : State) : Only [.wire, .ports, .call] s (partySilence st po s) := by
  unfold partySilence
  repeat' first
    | with_reducible exact Only.refl _ _
    | split
    | with_reducible apply Only.after (removeParty_only _ _ _)
    | with_reducible apply Only.after (sendClear_only _ _ _ _ _)
    | decide +kernel

theorem sendParty_only (id : Nat) (p : Party) (x : Speech) (s : State) : Only [.wire, .ports] s (sendParty id p x s) := by
  unfold sendParty
  repeat' first
    | with_reducible exact Only.refl _ _
    | split
    | with_reducible apply Only.after (State.modPort_only _ _ _)
    | with_reducible apply Only.after (offerVoice_only _ _ _)
    | decide +kernel

theorem mixTap_only (line : Speech) (s : State) : Only [.wire, .ports, .call, .outs] s (mixTap line s) := by
  unfold mixTap
  repeat' first
    | with_reducible exact Only.refl _ _
    | dsimp only
    | split
    | with_reducible apply Only.after (State.emit_only _ _)
    | with_reducible apply Only.after (modRecord_only _ _)
    | with_reducible apply Only.after (sendParty_only _ _ _ _)
    | with_reducible apply Only.thenFoldl
    | with_reducible intro _ _
    | decide +kernel

theorem takeOffer_only (st po : Nat) (tag : Option Nat) (takers : List PortNo) (s : State) : Only [.ports, .call] s
    (takeOffer st po tag takers s) := by
  unfold takeOffer
  repeat' first
    | with_reducible exact Only.refl _ _
    | dsimp only
    | with_reducible apply Only.after (State.modCall_only _ _)
    | with_reducible apply Only.after (State.modPort_only _ _ _)
    | with_reducible apply Only.thenFoldl
    | with_reducible intro _ _
    | decide +kernel

theorem judgeOffer_only (st po target : Nat) (tag : Option Nat) (s : State) : Only [.ports, .call] s (judgeOffer st
    po target tag s).1 := by
  unfold judgeOffer
  repeat' first
    | with_reducible exact Only.refl _ _
    | split
    | with_reducible apply Only.after (takeOffer_only _ _ _ _ _)
    | decide +kernel
    | dsimp only

theorem judgeOffer_of {st po target : Nat} {tag : Option Nat} {s : State} {t : State} {v}
    (h : judgeOffer st po target tag s = (t, v)) : Only [.ports, .call] s t := by
  have h' := judgeOffer_only st po target tag s
  rw [h] at h'
  exact h'

theorem offerFrame_only (st : Nat) (m : RequestMsg) (s : State) : Only [.wire, .ports, .call] s (offerFrame st m s) := by
  unfold offerFrame
  split
  · exact Only.refl _ _
  · split
    next h => exact (offerControl_only _ _ _).after ((judgeOffer_of h).mono (by decide +kernel)) (by decide +kernel)

theorem endBinding_only (b : Binding) (s : State) : Only [.ports, .call] s (endBinding b s) := by
  unfold endBinding
  repeat' first
    | with_reducible exact Only.refl _ _
    | split
    | with_reducible apply Only.after (State.modCall_only _ _)
    | with_reducible apply Only.after (clearPort_only _ _ _ _)
    | with_reducible apply Only.after (idlePort_only _ _)
    | with_reducible apply Only.thenFoldl
    | with_reducible intro _ _
    | decide +kernel

theorem endFrame_only (st : Nat) (m : RequestMsg) (s : State) : Only [.ports, .call] s (endFrame st m s) := by
  unfold endFrame
  repeat' first
    | with_reducible exact Only.refl _ _
    | split
    | with_reducible apply Only.after (clearPort_only _ _ _ _)
    | with_reducible apply Only.after (endBinding_only _ _)
    | decide +kernel

theorem acceptFrame_only (st : Nat) (m : RequestMsg) (s : State) : Only [.wire, .ports] s (acceptFrame st m s) := by
  unfold acceptFrame
  repeat' first
    | with_reducible exact Only.refl _ _
    | dsimp only
    | split
    | with_reducible apply Only.after (connectPort_only _ _ _)
    | with_reducible apply Only.after (sendRequest_only _ _ _ _)
    | decide +kernel

theorem leaveBinding_only (n : PortNo) (ref : Nat) (s : State) : Only [.call] s (leaveBinding n ref s) := by
  unfold leaveBinding
  repeat' first
    | with_reducible exact Only.refl _ _
    | split
    | with_reducible apply Only.after (State.modCall_only _ _)
    | decide +kernel

theorem haltCalls_only (s : State) : Only [.call] s (haltCalls s) := by
  unfold haltCalls
  repeat' first
    | with_reducible exact Only.refl _ _
    | with_reducible apply Only.after (State.modCall_only _ _)
    | decide +kernel

end Sys2Proof.Machine
end

