-- ==== Sys2Proof/Laws/OnlyPhones.lean ====
section
/-! SUPPORT. For each operation of the phone ports, the parts of the state it can change. -/

set_option Elab.async false
set_option linter.unusedTactic false
set_option linter.unreachableTactic false

namespace Sys2Proof.Machine

theorem takeAnswer_only (n : PortNo) (k : RequestKind) (holder : Nat) (v : Verdict) (s : State) : Only [.ports,
    .call] s (takeAnswer n k holder v s) := by
  unfold takeAnswer
  repeat' first
    | with_reducible exact Only.refl _ _
    | split
    | with_reducible apply Only.after (State.modPort_only _ _ _)
    | with_reducible apply Only.after (connectPort_only _ _ _)
    | with_reducible apply Only.after (refusePort_only _ _ _ _)
    | decide +kernel

theorem makeSeize_only (n : PortNo) (k : RequestKind) (s : State) : Only [.wire, .ports, .call, .fault] s (makeSeize
    n k s) := by
  unfold makeSeize
  repeat' first
    | with_reducible exact Only.refl _ _
    | split
    | with_reducible apply Only.after (State.modPort_only _ _ _)
    | with_reducible apply Only.after (judge_only _ _ _ _ _)
    | with_reducible apply Only.after (refusePort_only _ _ _ _)
    | with_reducible apply Only.after (sendRequest_only _ _ _ _)
    | with_reducible apply Only.after (takeAnswer_only _ _ _ _ _)
    | with_reducible apply Only.after (useTag_only _)
    | decide +kernel
    | with_reducible refine Only.after (judge_of (by assumption)) ?_ (by decide +kernel)
    | dsimp only

theorem requestLine_only (n : PortNo) (k : RequestKind) (s : State) : Only [.wire, .ports, .call, .fault] s
    (requestLine n k s) := by
  unfold requestLine
  repeat' first
    | with_reducible exact Only.refl _ _
    | split
    | with_reducible apply Only.after (State.modPort_only _ _ _)
    | with_reducible apply Only.after (makeSeize_only _ _ _)
    | decide +kernel

theorem makeLocalOffer_only (n : PortNo) (target : Nat) (s : State) : Only [.ports, .call] s (makeLocalOffer n
    target s) := by
  unfold makeLocalOffer
  repeat' first
    | with_reducible exact Only.refl _ _
    | dsimp only
    | split
    | with_reducible apply Only.after (State.modPort_only _ _ _)
    | with_reducible apply Only.after (refusePort_only _ _ _ _)
    | with_reducible apply Only.after (takeOffer_only _ _ _ _ _)
    | decide +kernel

theorem makeOffer_only (n : PortNo) (st target : Nat) (s : State) : Only [.wire, .ports, .call] s (makeOffer n st
    target s) := by
  unfold makeOffer
  repeat' first
    | with_reducible exact Only.refl _ _
    | split
    | with_reducible apply Only.after (State.modPort_only _ _ _)
    | with_reducible apply Only.after (makeLocalOffer_only _ _ _)
    | with_reducible apply Only.after (refusePort_only _ _ _ _)
    | with_reducible apply Only.after (sendRequest_only _ _ _ _)
    | decide +kernel

theorem requestOffer_only (n : PortNo) (st target : Nat) (s : State) : Only [.wire, .ports, .call] s (requestOffer n
    st target s) := by
  unfold requestOffer
  repeat' first
    | with_reducible exact Only.refl _ _
    | split
    | with_reducible apply Only.after (State.modPort_only _ _ _)
    | with_reducible apply Only.after (makeOffer_only _ _ _ _)
    | decide +kernel

theorem releaseHeld_only (all : Bool) (n : PortNo) (s : State) : Only [.wire, .ports, .call, .fault] s (releaseHeld
    all n s) := by
  unfold releaseHeld
  repeat' first
    | with_reducible exact Only.refl _ _
    | split
    | with_reducible apply Only.after (makeOffer_only _ _ _ _)
    | with_reducible apply Only.after (makeSeize_only _ _ _)
    | decide +kernel

theorem requestFailed_only (n : PortNo) (q : OutReq) (s : State) : Only [.ports, .call] s (requestFailed n q s) := by
  unfold requestFailed
  repeat' first
    | with_reducible exact Only.refl _ _
    | split
    | with_reducible apply Only.after (clearPort_only _ _ _ _)
    | decide +kernel

theorem requestTimeout_only (n : PortNo) (s : State) : Only [.ports, .call] s (requestTimeout n s) := by
  unfold requestTimeout
  repeat' first
    | with_reducible exact Only.refl _ _
    | split
    | with_reducible apply Only.after (requestFailed_only _ _ _)
    | decide +kernel

theorem replyAt_only (src : Nat) (m : ReplyMsg) (n : PortNo) (s : State) : Only [.ports, .call] s (replyAt src m n
    s) := by
  unfold replyAt
  repeat' first
    | with_reducible exact Only.refl _ _
    | split
    | with_reducible apply Only.after (takeAnswer_only _ _ _ _ _)
    | decide +kernel

theorem replyFrame_only (src : Nat) (m : ReplyMsg) (s : State) : Only [.ports, .call] s (replyFrame src m s) := by
  unfold replyFrame
  repeat' first
    | with_reducible exact Only.refl _ _
    | split
    | with_reducible apply Only.after (replyAt_only _ _ _ _)
    | decide +kernel

theorem failDial_only (n : PortNo) (s : State) : Only [.ports, .call] s (failDial n s) := by
  unfold failDial
  repeat' first
    | with_reducible exact Only.refl _ _
    | with_reducible apply Only.after (clearPort_only _ _ _ _)
    | decide +kernel

theorem firstDigit_only (n : PortNo) (d : Dialled) (s : State) : Only [.wire, .ports, .call, .fault] s (firstDigit n
    d s) := by
  unfold firstDigit
  repeat' first
    | with_reducible exact Only.refl _ _
    | split
    | with_reducible apply Only.after (State.modPort_only _ _ _)
    | with_reducible apply Only.after (failDial_only _ _)
    | with_reducible apply Only.after (requestLine_only _ _ _)
    | decide +kernel

theorem portDigit_only (n : PortNo) (st : Nat) (d : Dialled) (s : State) : Only [.wire, .ports, .call] s (portDigit
    n st d s) := by
  unfold portDigit
  repeat' first
    | with_reducible exact Only.refl _ _
    | split
    | with_reducible apply Only.after (failDial_only _ _)
    | with_reducible apply Only.after (requestOffer_only _ _ _ _)
    | decide +kernel

theorem sendDial_only (n : PortNo) (i : DialItem) (s : State) : Only [.wire, .ports, .call] s (sendDial n i s) := by
  unfold sendDial
  repeat' first
    | with_reducible exact Only.refl _ _
    | split
    | with_reducible apply Only.after (offerControl_only _ _ _)
    | with_reducible apply Only.after (takeDial_only _ _ _ _ _)
    | decide +kernel

theorem takeDigit_only (n : PortNo) (d : Dialled) (s : State) : Only [.wire, .ports, .call, .fault] s (takeDigit n d
    s) := by
  unfold takeDigit
  repeat' first
    | with_reducible exact Only.refl _ _
    | dsimp only
    | split
    | with_reducible apply Only.after (firstDigit_only _ _ _)
    | with_reducible apply Only.after (portDigit_only _ _ _ _)
    | with_reducible apply Only.after (sendDial_only _ _ _)
    | decide +kernel

theorem clearCount_only (n : PortNo) (s : State) : Only [.ports] s (clearCount n s) := by
  unfold clearCount
  repeat' first
    | with_reducible exact Only.refl _ _
    | with_reducible apply Only.after (State.modPort_only _ _ _)
    | decide +kernel

theorem pulseCountClose_only (n : PortNo) (s : State) : Only [.wire, .ports, .call, .fault] s (pulseCountClose n s) := by
  unfold pulseCountClose
  repeat' first
    | with_reducible exact Only.refl _ _
    | split
    | with_reducible apply Only.after (clearCount_only _ _)
    | with_reducible apply Only.after (takeDigit_only _ _ _)
    | decide +kernel

theorem countPulse_only (n : PortNo) (s : State) : Only [.wire, .ports, .call, .fault] s (countPulse n s) := by
  unfold countPulse
  repeat' first
    | with_reducible exact Only.refl _ _
    | dsimp only
    | split
    | with_reducible apply Only.after (State.modPort_only _ _ _)
    | with_reducible apply Only.after (firstDigit_only _ _ _)
    | decide +kernel

theorem takeFlash_only (n : PortNo) (s : State) : Only [.wire, .ports, .call, .fault] s (takeFlash n s) := by
  unfold takeFlash
  repeat' first
    | with_reducible exact Only.refl _ _
    | dsimp only
    | split
    | with_reducible apply Only.after (clearCount_only _ _)
    | with_reducible apply Only.after (sendDial_only _ _ _)
    | with_reducible apply Only.after (takeDigit_only _ _ _)
    | decide +kernel

theorem toneDigit_only (n : PortNo) (k : Key) (s : State) : Only [.wire, .ports, .call, .fault] s (toneDigit n k s) := by
  unfold toneDigit
  repeat' first
    | with_reducible exact Only.refl _ _
    | split
    | with_reducible apply Only.after (takeDigit_only _ _ _)
    | decide +kernel

theorem firstDigitTimeout_only (n : PortNo) (s : State) : Only [.ports] s (firstDigitTimeout n s) := by
  unfold firstDigitTimeout
  repeat' first
    | with_reducible exact Only.refl _ _
    | split
    | with_reducible apply Only.after (State.modPort_only _ _ _)
    | decide +kernel

theorem portDigitTimeout_only (n : PortNo) (s : State) : Only [.wire, .ports, .call] s (portDigitTimeout n s) := by
  unfold portDigitTimeout
  repeat' first
    | with_reducible exact Only.refl _ _
    | split
    | with_reducible apply Only.after (requestOffer_only _ _ _ _)
    | decide +kernel

theorem wake_only (s : State) : Only [.power] s (wake s) := by
  unfold wake
  repeat' first
    | with_reducible exact Only.refl _ _
    | split
    | with_reducible apply Only.after (State.modPower_only _ _)
    | decide +kernel

theorem acceptOffer_only (n : PortNo) (st po ref : Nat) (s : State) : Only [.wire, .ports, .call] s (acceptOffer n
    st po ref s) := by
  unfold acceptOffer
  repeat' first
    | with_reducible exact Only.refl _ _
    | dsimp only
    | split
    | with_reducible apply Only.after (State.modCall_only _ _)
    | with_reducible apply Only.after (connectPort_only _ _ _)
    | with_reducible apply Only.after (idlePort_only _ _)
    | with_reducible apply Only.after (sendRequest_only _ _ _ _)
    | with_reducible apply Only.thenFoldl
    | with_reducible intro _ _
    | decide +kernel

theorem offHook_only (n : PortNo) (s : State) : Only [.power, .wire, .ports, .call, .fault] s (offHook n s) := by
  unfold offHook
  repeat' first
    | with_reducible exact Only.refl _ _
    | dsimp only
    | split
    | with_reducible apply Only.after (State.modPort_only _ _ _)
    | with_reducible apply Only.after (acceptOffer_only _ _ _ _ _)
    | with_reducible apply Only.after (firstDigit_only _ _ _)
    | with_reducible apply Only.after (requestLine_only _ _ _)
    | with_reducible apply Only.after (wake_only _)
    | decide +kernel

theorem hangUp_only (n : PortNo) (s : State) : Only [.wire, .ports, .call] s (hangUp n s) := by
  unfold hangUp
  repeat' first
    | with_reducible exact Only.refl _ _
    | dsimp only
    | split
    | with_reducible apply Only.after (clearPort_only _ _ _ _)
    | with_reducible apply Only.after (endBinding_only _ _)
    | with_reducible apply Only.after (offerControl_only _ _ _)
    | with_reducible apply Only.after (sendRequest_only _ _ _ _)
    | with_reducible apply Only.after (takeLeave_only _ _ _ _)
    | decide +kernel

theorem onHook_only (n : PortNo) (s : State) : Only [.power, .wire, .ports, .call, .fault] s (onHook n s) := by
  unfold onHook
  repeat' first
    | with_reducible exact Only.refl _ _
    | with_reducible apply Only.after (State.modPort_only _ _ _)
    | with_reducible apply Only.after (dropBinding_only _ _)
    | with_reducible apply Only.after (hangUp_only _ _)
    | with_reducible apply Only.after (offHook_only _ _)
    | decide +kernel

theorem onHookEvent_only (n : PortNo) (s : State) : Only [.power, .wire, .ports, .call, .fault] s (onHookEvent n s) := by
  unfold onHookEvent
  repeat' first
    | with_reducible exact Only.refl _ _
    | split
    | with_reducible apply Only.after (onHook_only _ _)
    | decide +kernel

theorem hookFall_only (n : PortNo) (s : State) : Only [.ports] s (hookFall n s) := by
  unfold hookFall
  repeat' first
    | with_reducible exact Only.refl _ _
    | split
    | with_reducible apply Only.after (State.modPort_only _ _ _)
    | decide +kernel

theorem hookRise_only (n : PortNo) (s : State) : Only [.power, .wire, .ports, .call, .fault] s (hookRise n s) := by
  unfold hookRise
  repeat' first
    | with_reducible exact Only.refl _ _
    | dsimp only
    | split
    | with_reducible apply Only.after (State.modPort_only _ _ _)
    | with_reducible apply Only.after (countPulse_only _ _)
    | with_reducible apply Only.after (offHook_only _ _)
    | with_reducible apply Only.after (onHook_only _ _)
    | with_reducible apply Only.after (takeFlash_only _ _)
    | decide +kernel

theorem burstPort_only (n : PortNo) (s : State) : Only [.ports] s (burstPort n s) := by
  unfold burstPort
  repeat' first
    | with_reducible exact Only.refl _ _
    | split
    | with_reducible apply Only.after (State.modPort_only _ _ _)
    | decide +kernel

theorem ringBurst_only (s : State) : Only [.power, .ports, .fault] s (ringBurst s) := by
  unfold ringBurst
  repeat' first
    | with_reducible exact Only.refl _ _
    | split
    | with_reducible apply Only.thenEachPort
    | with_reducible apply Only.after (State.modFault_only _ _)
    | with_reducible apply Only.after (State.modPorts_only _ _)
    | with_reducible apply Only.after (abortTest_only _)
    | with_reducible apply Only.after (burstPort_only _ _)
    | with_reducible apply Only.after (wake_only _)
    | with_reducible intro _ _
    | decide +kernel

theorem ringingEnd_only (s : State) : Only [.ports] s (ringingEnd s) := by
  unfold ringingEnd
  repeat' first
    | with_reducible exact Only.refl _ _
    | split
    | with_reducible apply Only.thenEachPort
    | with_reducible apply Only.after (State.modPorts_only _ _)
    | with_reducible apply Only.after (idlePort_only _ _)
    | with_reducible intro _ _
    | decide +kernel

theorem ringDriveTimeout_only (n : PortNo) (s : State) : Only [.ports] s (ringDriveTimeout n s) := by
  unfold ringDriveTimeout
  repeat' first
    | with_reducible exact Only.refl _ _
    | split
    | with_reducible apply Only.after (State.modPort_only _ _ _)
    | decide +kernel

theorem intercomCadence_only (n : PortNo) (s : State) : Only [.ports] s (intercomCadence n s) := by
  unfold intercomCadence
  repeat' first
    | with_reducible exact Only.refl _ _
    | split
    | with_reducible apply Only.after (State.modPort_only _ _ _)
    | decide +kernel

theorem offerRingTimeout_only (n : PortNo) (s : State) : Only [.ports, .call] s (offerRingTimeout n s) := by
  unfold offerRingTimeout
  repeat' first
    | with_reducible exact Only.refl _ _
    | split
    | with_reducible apply Only.after (idlePort_only _ _)
    | with_reducible apply Only.after (leaveBinding_only _ _ _)
    | decide +kernel

theorem ringBackTimeout_only (n : PortNo) (s : State) : Only [.wire, .ports, .call] s (ringBackTimeout n s) := by
  unfold ringBackTimeout
  repeat' first
    | with_reducible exact Only.refl _ _
    | split
    | with_reducible apply Only.after (clearPort_only _ _ _ _)
    | with_reducible apply Only.after (hangUp_only _ _)
    | decide +kernel

theorem holderSilence_only (n : PortNo) (s : State) : Only [.ports, .call] s (holderSilence n s) := by
  unfold holderSilence
  repeat' first
    | with_reducible exact Only.refl _ _
    | split
    | with_reducible apply Only.after (clearPort_only _ _ _ _)
    | decide +kernel

theorem farSilence_only (n : PortNo) (s : State) : Only [.ports, .call] s (farSilence n s) := by
  unfold farSilence
  repeat' first
    | with_reducible exact Only.refl _ _
    | split
    | with_reducible apply Only.after (clearPort_only _ _ _ _)
    | decide +kernel

theorem howlerTimeout_only (n : PortNo) (s : State) : Only [.ports] s (howlerTimeout n s) := by
  unfold howlerTimeout
  repeat' first
    | with_reducible exact Only.refl _ _
    | split
    | with_reducible apply Only.after (State.modPort_only _ _ _)
    | decide +kernel

theorem toneCadence_only (n : PortNo) (s : State) : Only [.ports] s (toneCadence n s) := by
  unfold toneCadence
  repeat' first
    | with_reducible exact Only.refl _ _
    | split
    | with_reducible apply Only.after (State.modPort_only _ _ _)
    | decide +kernel

theorem tonePort_only (n : PortNo) (s : State) : Only [.ports] s (tonePort n s) := by
  unfold tonePort
  repeat' first
    | with_reducible exact Only.refl _ _
    | split
    | with_reducible apply Only.after (State.modPort_only _ _ _)
    | decide +kernel

theorem settleTones_only (s : State) : Only [.ports] s (settleTones s) := by
  unfold settleTones
  repeat' first
    | with_reducible exact Only.refl _ _
    | with_reducible apply Only.thenEachPort
    | with_reducible apply Only.after (tonePort_only _ _)
    | with_reducible intro _ _
    | decide +kernel

theorem sendVoice_only (codec : PortNo → Speech) (n : PortNo) (s : State) : Only [.wire, .ports, .call, .outs] s
    (sendVoice codec n s) := by
  unfold sendVoice
  repeat' first
    | with_reducible exact Only.refl _ _
    | dsimp only
    | split
    | with_reducible apply Only.after (State.emit_only _ _)
    | with_reducible apply Only.after (State.modPort_only _ _ _)
    | with_reducible apply Only.after (offerVoice_only _ _ _)
    | with_reducible apply Only.after (partyVoice_only _ _ _ _ _ _)
    | decide +kernel

theorem playPort_only (n : PortNo) (s : State) : Only [.ports, .outs] s (playPort n s) := by
  unfold playPort
  repeat' first
    | with_reducible exact Only.refl _ _
    | dsimp only
    | split
    | with_reducible apply Only.after (State.emit_only _ _)
    | with_reducible apply Only.after (State.modPort_only _ _ _)
    | decide +kernel

theorem voiceTap_only (codec : PortNo → Speech) (line : Speech) (s : State) : Only [.wire, .ports, .call, .outs] s
    (voiceTap codec line s) := by
  unfold voiceTap
  repeat' first
    | with_reducible exact Only.refl _ _
    | with_reducible apply Only.thenEachPort
    | with_reducible apply Only.after (mixTap_only _ _)
    | with_reducible apply Only.after (playPort_only _ _)
    | with_reducible apply Only.after (sendVoice_only _ _ _)
    | with_reducible intro _ _
    | decide +kernel

theorem portVoice_only (m : VoiceMsg) (n : PortNo) (s : State) : Only [.ports] s (portVoice m n s) := by
  unfold portVoice
  repeat' first
    | with_reducible exact Only.refl _ _
    | split
    | with_reducible apply Only.after (State.modPort_only _ _ _)
    | decide +kernel

theorem voiceFrame_only (src : Nat) (m : VoiceMsg) (s : State) : Only [.wire, .ports, .call] s (voiceFrame src m s) := by
  unfold voiceFrame
  repeat' first
    | with_reducible exact Only.refl _ _
    | split
    | with_reducible apply Only.after (partyVoice_only _ _ _ _ _ _)
    | with_reducible apply Only.after (portVoice_only _ _ _)
    | decide +kernel

theorem haltPorts_only (s : State) : Only [.ports] s (haltPorts s) := by
  unfold haltPorts
  repeat' first
    | with_reducible exact Only.refl _ _
    | with_reducible apply Only.thenEachPort
    | with_reducible apply Only.after (State.modPort_only _ _ _)
    | with_reducible intro _ _
    | decide +kernel

end Sys2Proof.Machine
end

