-- ==== Sys2Proof/Laws/OnlyReports.lean ====
section
/-! SUPPORT. For each operation of reports and line tests, the parts of the state it can change. -/

set_option Elab.async false
set_option linter.unusedTactic false
set_option linter.unreachableTactic false

namespace Sys2Proof.Machine

theorem setReportQueue_only (q : List FaultRecord) (s : State) : Only [.report] s (setReportQueue q s) := by
  unfold setReportQueue
  repeat' first
    | with_reducible exact Only.refl _ _
    | with_reducible apply Only.after (State.modReport_only _ _)
    | decide +kernel

theorem reportFrame_only (src : Nat) (r : FaultRecord) (s : State) : Only [.report] s (reportFrame src r s) := by
  unfold reportFrame
  repeat' first
    | with_reducible exact Only.refl _ _
    | split
    | with_reducible apply Only.after (setReportQueue_only _ _)
    | decide +kernel

theorem takeGasp_only (r : FaultRecord) (s : State) : Only [.report] s (takeGasp r s) := by
  unfold takeGasp
  repeat' first
    | with_reducible exact Only.refl _ _
    | split
    | with_reducible apply Only.after (setReportQueue_only _ _)
    | decide +kernel

theorem sendReport_only (s : State) : Only [.wire, .fault, .report] s (sendReport s) := by
  unfold sendReport
  repeat' first
    | with_reducible exact Only.refl _ _
    | split
    | with_reducible apply Only.after (State.modReport_only _ _)
    | with_reducible apply Only.after (offerControl_only _ _ _)
    | with_reducible apply Only.after (setFaultList_only _ _)
    | decide +kernel

theorem takeIn_only (s : State) : Only [.fault, .report] s (takeIn s) := by
  unfold takeIn
  repeat' first
    | with_reducible exact Only.refl _ _
    | dsimp only
    | with_reducible apply Only.after (setFaultList_only _ _)
    | with_reducible apply Only.after (setReportQueue_only _ _)
    | decide +kernel

theorem settleReports_only (s : State) : Only [.wire, .fault, .report] s (settleReports s) := by
  unfold settleReports
  repeat' first
    | with_reducible exact Only.refl _ _
    | split
    | with_reducible apply Only.after (sendReport_only _)
    | with_reducible apply Only.after (takeIn_only _)
    | decide +kernel

theorem setRecordState_only (n : Nat) (st : RecordState) (s : State) : Only [.fault] s (setRecordState n st s) := by
  unfold setRecordState
  repeat' first
    | with_reducible exact Only.refl _ _
    | split
    | with_reducible apply Only.after (setFaultList_only _ _)
    | decide +kernel

theorem endOutstanding_only (n : Nat) (s : State) : Only [.report] s (endOutstanding n s) := by
  unfold endOutstanding
  repeat' first
    | with_reducible exact Only.refl _ _
    | with_reducible apply Only.after (State.modReport_only _ _)
    | decide +kernel

theorem judgeReceipt_only (n count : Nat) (s : State) : Only [.fault, .report] s (judgeReceipt n count s) := by
  unfold judgeReceipt
  repeat' first
    | with_reducible exact Only.refl _ _
    | split
    | with_reducible apply Only.after (endOutstanding_only _ _)
    | with_reducible apply Only.after (recordGone_only _ _)
    | with_reducible apply Only.after (setRecordState_only _ _ _)
    | decide +kernel

theorem receiptTimeout_only (s : State) : Only [.fault, .report] s (receiptTimeout s) := by
  unfold receiptTimeout
  repeat' first
    | with_reducible exact Only.refl _ _
    | split
    | with_reducible apply Only.after (State.modReport_only _ _)
    | with_reducible apply Only.after (setRecordState_only _ _ _)
    | decide +kernel

theorem closeMailbox_only (s : State) : Only [.sup] s (closeMailbox s) := by
  unfold closeMailbox
  repeat' first
    | with_reducible exact Only.refl _ _
    | with_reducible apply Only.after (State.modSup_only _ _)
    | decide +kernel

theorem answered_only {ps : List Part} {take : FaultRecord → State → State} (h : ∀ r t, Only ps t (take r t))
    (hs : Part.sup ∈ ps) (s : State) : Only ps s (answered take s) := by
  have sub : (([.sup] : List Part).all fun p => decide (p ∈ ps)) = true := by simpa using hs
  unfold answered
  split
  · exact (State.modSup_only _ _).mono sub
  · split
    · exact ((closeMailbox_only _).mono sub).trans (h _ _)
    · exact Only.refl _ _

theorem delivered_only (r : FaultRecord) (s : State) : Only [.wire, .fault, .report] s (delivered r s) := by
  unfold delivered
  repeat' first
    | with_reducible exact Only.refl _ _
    | dsimp only
    | split
    | with_reducible apply Only.after (State.modReport_only _ _)
    | with_reducible apply Only.after (judgeReceipt_only _ _ _)
    | with_reducible apply Only.after (offerControl_only _ _ _)
    | decide +kernel

theorem mailboxDelivered_only (s : State) : Only [.wire, .sup, .fault, .report] s (mailboxDelivered s) :=
  answered_only (fun r t => (delivered_only r t).mono (by decide +kernel)) (by decide) s

theorem notDelivered_only (r : FaultRecord) (s : State) : Only [.report] s (notDelivered r s) := by
  unfold notDelivered
  repeat' first
    | with_reducible exact Only.refl _ _
    | with_reducible apply Only.after (State.modReport_only _ _)
    | decide +kernel

theorem mailboxRefused_only (s : State) : Only [.sup, .report] s (mailboxRefused s) :=
  answered_only (fun r t => (notDelivered_only r t).mono (by decide +kernel)) (by decide) s

theorem mailboxTimeout_only (s : State) : Only [.sup, .report, .outs] s (mailboxTimeout s) := by
  unfold mailboxTimeout
  repeat' first
    | with_reducible exact Only.refl _ _
    | split
    | with_reducible apply Only.after (notDelivered_only _ _)
    | with_reducible apply Only.after (withdrawOffer_only _)
    | decide +kernel

theorem leaveReports_only (s : State) : Only [.fault, .report] s (leaveReports s) := by
  unfold leaveReports
  repeat' first
    | with_reducible exact Only.refl _ _
    | split
    | (intro q hq; cases q <;> first
    | rfl
    | exact absurd (by decide) hq)
    | decide +kernel

theorem startTest_only (s : State) : Only [.fault] s (startTest s) := by
  unfold startTest
  repeat' first
    | with_reducible exact Only.refl _ _
    | with_reducible apply Only.after (State.modFault_only _ _)
    | decide +kernel

theorem testTap_only (s : State) : Only [.fault] s (testTap s) := by
  unfold testTap
  repeat' first
    | with_reducible exact Only.refl _ _
    | split
    | with_reducible apply Only.after (State.modFault_only _ _)
    | with_reducible apply Only.after (startTest_only _)
    | decide +kernel

theorem testStepEnd_only (out : Bool) (s : State) : Only [.fault, .report] s (testStepEnd out s) := by
  unfold testStepEnd
  repeat' first
    | with_reducible exact Only.refl _ _
    | dsimp only
    | split
    | with_reducible apply Only.after (State.modFault_only _ _)
    | with_reducible apply Only.after (setConds_only _ _)
    | decide +kernel

end Sys2Proof.Machine
end

