-- ==== Sys2Proof/Laws/OnlyHolding.lean ====
section
/-! SUPPORT. For each operation of the hold controller, the parts of the state it can change. -/

set_option Elab.async false
set_option linter.unusedTactic false
set_option linter.unreachableTactic false

namespace Sys2Proof.Machine

theorem queueBeacon_only (s : State) : Only [.wire] s (queueBeacon s) := by
  unfold queueBeacon
  repeat' first
    | with_reducible exact Only.refl _ _
    | split
    | with_reducible apply Only.after (offerControl_only _ _ _)
    | decide +kernel

theorem enterSeeking_only (s : State) : Only [.hold] s (enterSeeking s) := by
  unfold enterSeeking
  repeat' first
    | with_reducible exact Only.refl _ _
    | split
    | with_reducible apply Only.after (State.modHold_only _ _)
    | decide +kernel

theorem enterPassive_only (f : Option Follow) (s : State) : Only [.hold] s (enterPassive f s) := by
  unfold enterPassive
  repeat' first
    | with_reducible exact Only.refl _ _
    | with_reducible apply Only.after (State.modHold_only _ _)
    | decide +kernel

theorem enterClaiming_only (s : State) : Only [.wire, .hold] s (enterClaiming s) := by
  unfold enterClaiming
  repeat' first
    | with_reducible exact Only.refl _ _
    | with_reducible apply Only.after (State.modHold_only _ _)
    | with_reducible apply Only.after (offerControl_only _ _ _)
    | decide +kernel

theorem leaveHolding_only (cause : Option ClearCause) (s : State) : Only [.wire, .sup, .ports, .call, .fault,
    .report, .outs] s (leaveHolding cause s) := by
  unfold leaveHolding
  repeat' first
    | with_reducible exact Only.refl _ _
    | with_reducible apply Only.after (State.modFault_only _ _)
    | with_reducible apply Only.after (State.modSup_only _ _)
    | with_reducible apply Only.after (abortTest_only _)
    | with_reducible apply Only.after (endRecord_only _ _)
    | with_reducible apply Only.after (goOff_only _)
    | with_reducible apply Only.after (leaveReports_only _)
    | decide +kernel

theorem enterHolding_only (s : State) : Only [.wire, .hold, .sup, .fault, .report] s (enterHolding s) := by
  unfold enterHolding
  repeat' first
    | with_reducible exact Only.refl _ _
    | dsimp only
    | split
    | with_reducible apply Only.after (State.modFault_only _ _)
    | with_reducible apply Only.after (State.modHold_only _ _)
    | with_reducible apply Only.after (State.modReport_only _ _)
    | with_reducible apply Only.after (State.modSup_only _ _)
    | with_reducible apply Only.after (enterTraining_only _)
    | with_reducible apply Only.after (queueBeacon_only _)
    | decide +kernel

theorem enterYielding_only (cause : Option ClearCause) (s : State) : Only [.wire, .hold, .sup, .ports, .call,
    .fault, .report, .outs] s (enterYielding cause s) := by
  unfold enterYielding
  repeat' first
    | with_reducible exact Only.refl _ _
    | with_reducible apply Only.after (State.modHold_only _ _)
    | with_reducible apply Only.after (leaveHolding_only _ _)
    | with_reducible apply Only.after (offerControl_only _ _ _)
    | decide +kernel

theorem yieldDone_only (s : State) : Only [.hold] s (yieldDone s) := by
  unfold yieldDone
  repeat' first
    | with_reducible exact Only.refl _ _
    | split
    | with_reducible apply Only.after (enterPassive_only _ _)
    | with_reducible apply Only.after (enterSeeking_only _)
    | decide +kernel

theorem enterHalted_only (code : HaltCode) (s : State) : Only [.wire, .hold, .sup, .ports, .call, .fault, .report,
    .outs] s (enterHalted code s) := by
  unfold enterHalted
  repeat' first
    | with_reducible exact Only.refl _ _
    | dsimp only
    | split
    | with_reducible apply Only.after (State.modHold_only _ _)
    | with_reducible apply Only.after (flushAll_only _)
    | with_reducible apply Only.after (goOff_only _)
    | with_reducible apply Only.after (haltCalls_only _)
    | with_reducible apply Only.after (haltPorts_only _)
    | with_reducible apply Only.after (leaveHolding_only _ _)
    | with_reducible apply Only.after (offerControl_only _ _ _)
    | decide +kernel

theorem modPeer_only (id : Nat) (f : Peer → Peer) (s : State) : Only [.hold] s (modPeer id f s) := by
  unfold modPeer
  repeat' first
    | with_reducible exact Only.refl _ _
    | split
    | with_reducible apply Only.after (State.modHold_only _ _)
    | decide +kernel

theorem heardFrame_only (src : Nat) (start : Tick) (h : Coded HoldState) (s : State) : Only [.hold, .ports] s
    (heardFrame src start h s) := by
  unfold heardFrame
  repeat' first
    | with_reducible exact Only.refl _ _
    | with_reducible apply Only.after (State.modHold_only _ _)
    | with_reducible apply Only.after (State.modPorts_only _ _)
    | decide +kernel

theorem ageRoster_only (halted : Bool) (s : State) : Only [.wire, .hold, .noise] s (ageRoster halted s) := by
  unfold ageRoster
  repeat' first
    | with_reducible exact Only.refl _ _
    | dsimp only
    | with_reducible apply Only.after (State.modHold_only _ _)
    | with_reducible apply Only.after (lenderGone_only _ _)
    | with_reducible apply Only.thenFoldl
    | with_reducible intro _ _
    | decide +kernel

theorem holderRules_only (s : State) : Only [.wire, .hold, .ports, .call, .fault] s (holderRules s) := by
  unfold holderRules
  repeat' first
    | with_reducible exact Only.refl _ _
    | split
    | with_reducible apply Only.thenEachPort
    | with_reducible apply Only.after (State.modHold_only _ _)
    | with_reducible apply Only.after (enterPassive_only _ _)
    | with_reducible apply Only.after (enterSeeking_only _)
    | with_reducible apply Only.after (releaseHeld_only _ _ _)
    | with_reducible intro _ _
    | decide +kernel

theorem holderTiming_only (old new : Option Nat) (s : State) : Only [.hold, .fault, .report] s (holderTiming old new
    s) := by
  unfold holderTiming
  repeat' first
    | with_reducible exact Only.refl _ _
    | split
    | with_reducible apply Only.after (State.modHold_only _ _)
    | with_reducible apply Only.after (setCond_only _ _ _)
    | decide +kernel

theorem settleHolder_only (s : State) : Only [.wire, .hold, .ports, .call, .fault, .report] s (settleHolder s) := by
  unfold settleHolder
  repeat' first
    | with_reducible exact Only.refl _ _
    | split
    | with_reducible apply Only.after (State.modHold_only _ _)
    | with_reducible apply Only.after (holderRules_only _)
    | with_reducible apply Only.after (holderTiming_only _ _ _)
    | decide +kernel

theorem noHolderTimeout_only (s : State) : Only [.hold, .fault, .report] s (noHolderTimeout s) := by
  unfold noHolderTimeout
  repeat' first
    | with_reducible exact Only.refl _ _
    | split
    | with_reducible apply Only.after (State.modHold_only _ _)
    | with_reducible apply Only.after (setCond_only _ _ _)
    | decide +kernel

theorem eligibleRules_only (e : Bool) (s : State) : Only [.wire, .hold, .sup, .ports, .call, .fault, .report, .outs]
    s (eligibleRules e s) := by
  unfold eligibleRules
  repeat' first
    | with_reducible exact Only.refl _ _
    | split
    | with_reducible apply Only.after (State.modHold_only _ _)
    | with_reducible apply Only.after (enterSeeking_only _)
    | with_reducible apply Only.after (enterYielding_only _ _)
    | decide +kernel

theorem settleEligible_only (s : State) : Only [.wire, .hold, .sup, .ports, .call, .fault, .report, .outs] s
    (settleEligible s) := by
  unfold settleEligible
  repeat' first
    | with_reducible exact Only.refl _ _
    | split
    | with_reducible apply Only.after (State.modHold_only _ _)
    | with_reducible apply Only.after (eligibleRules_only _ _)
    | decide +kernel

theorem settleDegraded_only (s : State) : Only [.wire, .hold, .sup, .ports, .call, .fault, .report, .outs] s
    (settleDegraded s) := by
  unfold settleDegraded
  repeat' first
    | with_reducible exact Only.refl _ _
    | split
    | with_reducible apply Only.after (enterYielding_only _ _)
    | decide +kernel

theorem listenTimeout_only (s : State) : Only [.wire, .hold, .ports, .call, .fault] s (listenTimeout s) := by
  unfold listenTimeout
  repeat' first
    | with_reducible exact Only.refl _ _
    | split
    | with_reducible apply Only.thenEachPort
    | with_reducible apply Only.after (enterPassive_only _ _)
    | with_reducible apply Only.after (enterSeeking_only _)
    | with_reducible apply Only.after (releaseHeld_only _ _ _)
    | with_reducible intro _ _
    | decide +kernel

theorem claimFollowTimeout_only (s : State) : Only [.hold] s (claimFollowTimeout s) := by
  unfold claimFollowTimeout
  repeat' first
    | with_reducible exact Only.refl _ _
    | split
    | with_reducible apply Only.after (enterSeeking_only _)
    | decide +kernel

theorem deferralEnd_only (s : State) : Only [.wire, .hold] s (deferralEnd s) := by
  unfold deferralEnd
  repeat' first
    | with_reducible exact Only.refl _ _
    | split
    | with_reducible apply Only.after (enterClaiming_only _)
    | decide +kernel

theorem contestEnd_only (s : State) : Only [.wire, .hold, .sup, .fault, .report] s (contestEnd s) := by
  unfold contestEnd
  repeat' first
    | with_reducible exact Only.refl _ _
    | split
    | with_reducible apply Only.after (enterHolding_only _)
    | decide +kernel

theorem claimHeard_only (src : Nat) (t : BitVec 16) (s : State) : Only [.hold] s (claimHeard src t s) := by
  unfold claimHeard
  repeat' first
    | with_reducible exact Only.refl _ _
    | dsimp only
    | split
    | with_reducible apply Only.after (enterPassive_only _ _)
    | with_reducible apply Only.after (modPeer_only _ _ _)
    | decide +kernel

theorem keeperRule_only (src : Nat) (h : Coded HoldState) (m : BeaconMsg) (s : State) : Only [.wire, .hold, .sup,
    .ports, .call, .fault, .report, .outs] s (keeperRule src h m s) := by
  unfold keeperRule
  repeat' first
    | with_reducible exact Only.refl _ _
    | split
    | with_reducible apply Only.after (enterYielding_only _ _)
    | decide +kernel

theorem rankClash_only (tie : Option (BitVec 16)) (s : State) : Only [.wire, .hold, .sup, .ports, .call, .fault,
    .report, .draws, .outs] s (rankClash tie s) := by
  unfold rankClash
  repeat' first
    | with_reducible exact Only.refl _ _
    | dsimp only
    | split
    | with_reducible apply Only.after (State.drew_only _)
    | with_reducible apply Only.after (State.modHold_only _ _)
    | with_reducible apply Only.after (enterHalted_only _ _)
    | with_reducible apply Only.after (setCond_only _ _ _)
    | decide +kernel

theorem holdTap_only (s : State) : Only [.wire, .hold, .noise, .ports, .call, .fault, .report] s (holdTap s) := by
  unfold holdTap
  repeat' first
    | with_reducible exact Only.refl _ _
    | dsimp only
    | split
    | with_reducible apply Only.after (ageRoster_only _ _)
    | with_reducible apply Only.after (queueBeacon_only _)
    | with_reducible apply Only.after (settleHolder_only _)
    | decide +kernel

theorem holdTap10_only (s : State) : Only [.wire, .hold, .noise, .ports, .call, .fault, .report] s (holdTap10 s) := by
  unfold holdTap10
  repeat' first
    | with_reducible exact Only.refl _ _
    | dsimp only
    | split
    | with_reducible apply Only.after (ageRoster_only _ _)
    | with_reducible apply Only.after (offerControl_only _ _ _)
    | with_reducible apply Only.after (settleHolder_only _)
    | decide +kernel

theorem transmitted_only (b : Body) (s : State) : Only [.power, .hold] s (transmitted b s) := by
  unfold transmitted
  repeat' first
    | with_reducible exact Only.refl _ _
    | split
    | with_reducible apply Only.after (State.modHold_only _ _)
    | with_reducible apply Only.after (State.modPower_only _ _)
    | with_reducible apply Only.after (yieldDone_only _)
    | decide +kernel

theorem requestDropped_only (k : RequestKind) (tag : Nat) (n : PortNo) (s : State) : Only [.ports, .call] s
    (requestDropped k tag n s) := by
  unfold requestDropped
  repeat' first
    | with_reducible exact Only.refl _ _
    | split
    | with_reducible apply Only.after (requestFailed_only _ _ _)
    | decide +kernel

theorem droppedNotice_only (s : State) (b : Body) : Only [.hold, .ports, .call] s (droppedNotice s b) := by
  unfold droppedNotice
  repeat' first
    | with_reducible exact Only.refl _ _
    | split
    | with_reducible apply Only.thenEachPort
    | with_reducible apply Only.after (enterSeeking_only _)
    | with_reducible apply Only.after (requestDropped_only _ _ _ _)
    | with_reducible apply Only.after (yieldDone_only _)
    | with_reducible intro _ _
    | decide +kernel

theorem settleNotices_only (s : State) : Only [.wire, .hold, .ports, .call] s (settleNotices s) := by
  unfold settleNotices
  repeat' first
    | with_reducible exact Only.refl _ _
    | with_reducible apply Only.after (State.modWire_only _ _)
    | with_reducible apply Only.after (droppedNotice_only _ _)
    | with_reducible apply Only.thenFoldl
    | with_reducible intro _ _
    | decide +kernel

end Sys2Proof.Machine
end

