-- ==== Sys2Proof/Laws/OnlyPower.lean ====
section
/-! SUPPORT. For each operation of the power controller and the level rules, the parts of the state it can change. -/

set_option Elab.async false
set_option linter.unusedTactic false
set_option linter.unreachableTactic false

namespace Sys2Proof.Machine

theorem mainsFall_only (s : State) : Only [.power, .wire, .sup, .fault, .report, .outs] s (mainsFall s) := by
  unfold mainsFall
  repeat' first
    | with_reducible exact Only.refl _ _
    | split
    | with_reducible apply Only.after (State.modPower_only _ _)
    | with_reducible apply Only.after (flushData_only _)
    | with_reducible apply Only.after (pwrOff_only _)
    | decide +kernel

theorem enterFull_only (s : State) : Only [.power, .sup, .fault, .report] s (enterFull s) := by
  unfold enterFull
  repeat' first
    | with_reducible exact Only.refl _ _
    | dsimp only
    | split
    | with_reducible apply Only.after (State.modPower_only _ _)
    | with_reducible apply Only.after (enterTraining_only _)
    | with_reducible apply Only.after (pwrOn_only _)
    | decide +kernel

theorem mainsRise_only (s : State) : Only [.power, .sup, .fault, .report] s (mainsRise s) := by
  unfold mainsRise
  repeat' first
    | with_reducible exact Only.refl _ _
    | split
    | with_reducible apply Only.after (enterFull_only _)
    | with_reducible apply Only.after (wake_only _)
    | decide +kernel

theorem rejoinExpiry_only (s : State) : Only [.power] s (rejoinExpiry s) := by
  unfold rejoinExpiry
  repeat' first
    | with_reducible exact Only.refl _ _
    | split
    | with_reducible apply Only.after (State.modPower_only _ _)
    | decide +kernel

theorem enterWatch_only (s : State) : Only [.power, .wire, .hold, .noise, .fault, .report] s (enterWatch s) := by
  unfold enterWatch
  repeat' first
    | with_reducible exact Only.refl _ _
    | dsimp only
    | split
    | with_reducible apply Only.after (State.modHold_only _ _)
    | with_reducible apply Only.after (State.modNoise_only _ _)
    | with_reducible apply Only.after (State.modPower_only _ _)
    | with_reducible apply Only.after (State.modWire_only _ _)
    | with_reducible apply Only.after (flushAll_only _)
    | with_reducible apply Only.after (setCond_only _ _ _)
    | decide +kernel

theorem settleIdle_only (s : State) : Only [.power, .wire, .hold, .noise, .fault, .report] s (settleIdle s) := by
  unfold settleIdle
  repeat' first
    | with_reducible exact Only.refl _ _
    | split
    | with_reducible apply Only.after (State.modPower_only _ _)
    | with_reducible apply Only.after (enterWatch_only _)
    | decide +kernel

theorem idleExpiry_only (s : State) : Only [.power, .wire, .hold, .noise, .fault, .report] s (idleExpiry s) := by
  unfold idleExpiry
  repeat' first
    | with_reducible exact Only.refl _ _
    | split
    | with_reducible apply Only.after (enterWatch_only _)
    | decide +kernel

theorem goLive_only (s : State) : Only [.power, .wire] s (goLive s) := by
  unfold goLive
  repeat' first
    | with_reducible exact Only.refl _ _
    | dsimp only
    | split
    | with_reducible apply Only.after (State.modPower_only _ _)
    | with_reducible apply Only.after (State.modWire_only _ _)
    | with_reducible apply Only.after (contend_only _)
    | decide +kernel

theorem settleExpiry_only (s : State) : Only [.power, .wire, .hold] s (settleExpiry s) := by
  unfold settleExpiry
  repeat' first
    | with_reducible exact Only.refl _ _
    | dsimp only
    | split
    | with_reducible apply Only.after (State.modHold_only _ _)
    | with_reducible apply Only.after (goLive_only _)
    | with_reducible apply Only.after (offerControl_only _ _ _)
    | decide +kernel

theorem settleConds_only (s : State) : Only [.fault, .report] s (settleConds s) := by
  unfold settleConds
  repeat' first
    | with_reducible exact Only.refl _ _
    | dsimp only
    | split
    | with_reducible apply Only.after (setCond_only _ _ _)
    | with_reducible apply Only.after (setConds_only _ _)
    | with_reducible apply Only.thenFoldl
    | with_reducible intro _ _
    | decide +kernel

theorem clearNotices_only (s : State) : Only [.wire] s (clearNotices s) := by
  unfold clearNotices
  repeat' first
    | with_reducible exact Only.refl _ _
    | with_reducible apply Only.after (State.modWire_only _ _)
    | decide +kernel

theorem finish_only (s : State) : Only [.power, .wire, .hold, .noise, .sup, .ports, .call, .fault, .report, .outs] s
    (finish s) := by
  unfold finish
  repeat' first
    | with_reducible exact Only.refl _ _
    | with_reducible apply Only.after (clearNotices_only _)
    | with_reducible apply Only.after (mailboxOffer_only _)
    | with_reducible apply Only.after (settleConds_only _)
    | with_reducible apply Only.after (settleDataHead_only _)
    | with_reducible apply Only.after (settleDegraded_only _)
    | with_reducible apply Only.after (settleEligible_only _)
    | with_reducible apply Only.after (settleHolder_only _)
    | with_reducible apply Only.after (settleIdle_only _)
    | with_reducible apply Only.after (settleLamp_only _)
    | with_reducible apply Only.after (settleLoss_only _)
    | with_reducible apply Only.after (settleNotices_only _)
    | with_reducible apply Only.after (settleReports_only _)
    | with_reducible apply Only.after (settleTones_only _)
    | with_reducible apply Only.after (startOutpulse_only _)
    | with_reducible apply Only.after (startTransfer_only _)
    | decide +kernel

theorem openWindow_only (s : State) : Only [.power, .wire, .ports, .call, .fault] s (openWindow s) := by
  unfold openWindow
  repeat' first
    | with_reducible exact Only.refl _ _
    | dsimp only
    | split
    | with_reducible apply Only.after (State.modFault_only _ _)
    | with_reducible apply Only.after (State.modPower_only _ _)
    | with_reducible apply Only.after (abortTest_only _)
    | with_reducible apply Only.after (endRecord_only _ _)
    | with_reducible apply Only.after (offerGasp_only _ _ _)
    | decide +kernel

theorem enterStop_only (s : State) : Only [.power, .sup, .fault, .report, .outs] s (enterStop s) := by
  unfold enterStop
  repeat' first
    | with_reducible exact Only.refl _ _
    | dsimp only
    | split
    | with_reducible apply Only.after (State.modPower_only _ _)
    | with_reducible apply Only.after (pwrOff_only _)
    | with_reducible apply Only.after (setCond_only _ _ _)
    | with_reducible apply Only.after (settleLamp_only _)
    | decide +kernel

theorem batteryEmptied_only (s : State) : Only [.power, .wire, .sup, .ports, .call, .fault, .report,
    .outs] s (batteryEmptied s) := by
  unfold batteryEmptied
  repeat' first
    | with_reducible exact Only.refl _ _
    | split
    | with_reducible apply Only.after (State.quiet_only _)
    | with_reducible apply Only.after (clearNotices_only _)
    | with_reducible apply Only.after (enterStop_only _)
    | with_reducible apply Only.after (openWindow_only _)
    | decide +kernel

theorem startHook_only (n : PortNo) (s : State) : Only [.power, .wire, .ports, .call, .fault] s (startHook n s) := by
  unfold startHook
  repeat' first
    | with_reducible exact Only.refl _ _
    | split
    | with_reducible apply Only.after (offHook_only _ _)
    | decide +kernel

end Sys2Proof.Machine
end

