-- ==== Sys2Proof/Laws/OnlyService.lean ====
section
/-! SUPPORT. For each operation of the service port, the parts of the state it can change. -/

set_option Elab.async false
set_option linter.unusedTactic false
set_option linter.unreachableTactic false

namespace Sys2Proof.Machine

theorem respond_only (r : SvcResp) (s : State) : Only [.svc, .outs] s (respond r s) := by
  unfold respond
  repeat' first
    | with_reducible exact Only.refl _ _
    | with_reducible apply Only.after (State.emit_only _ _)
    | with_reducible apply Only.after (State.modSvc_only _ _)
    | decide +kernel

theorem forget_only (id : Nat) (s : State) : Only [.hold, .svc, .outs] s (forget id s) := by
  unfold forget
  repeat' first
    | with_reducible exact Only.refl _ _
    | split
    | with_reducible apply Only.after (State.modHold_only _ _)
    | with_reducible apply Only.after (respond_only _ _)
    | decide +kernel

theorem askRestart_only (s : State) : Only [.svc, .outs] s (askRestart s) := by
  unfold askRestart
  repeat' first
    | with_reducible exact Only.refl _ _
    | with_reducible apply Only.after (State.modSvc_only _ _)
    | with_reducible apply Only.after (respond_only _ _)
    | decide +kernel

theorem takeRunning_only (q : SvcReq) (s : State) : Only [.hold, .fault, .svc, .outs] s (takeRunning q s) := by
  unfold takeRunning
  repeat' first
    | with_reducible exact Only.refl _ _
    | split
    | with_reducible apply Only.after (askRestart_only _)
    | with_reducible apply Only.after (forget_only _ _)
    | with_reducible apply Only.after (respond_only _ _)
    | with_reducible apply Only.after (startTest_only _)
    | decide +kernel

theorem takeStarting_only (q : SvcReq) (s : State) : Only [.svc, .outs] s (takeStarting q s) := by
  unfold takeStarting
  repeat' first
    | with_reducible exact Only.refl _ _
    | split
    | with_reducible apply Only.after (askRestart_only _)
    | with_reducible apply Only.after (respond_only _ _)
    | decide +kernel

end Sys2Proof.Machine
end

