-- ==== Sys2Proof/Laws/OnlyReceiving.lean ====
section
/-! SUPPORT. For each operation of the receive path, the parts of the state it can change. -/

set_option Elab.async false
set_option linter.unusedTactic false
set_option linter.unreachableTactic false

namespace Sys2Proof.Machine

theorem carrierOff_only (s : State) : Only [.pins] s (carrierOff s) := by
  unfold carrierOff
  repeat' first
    | with_reducible exact Only.refl _ _
    | with_reducible apply Only.after (State.tell_only _ _)
    | decide +kernel

theorem dropRx_only (s : State) : Only [.wire] s (dropRx s) := by
  unfold dropRx
  repeat' first
    | with_reducible exact Only.refl _ _
    | with_reducible apply Only.after (State.modWire_only _ _)
    | decide +kernel

theorem carrierUp_only (s : State) : Only [.wire, .noise] s (carrierUp s) := by
  unfold carrierUp
  repeat' first
    | with_reducible exact Only.refl _ _
    | split
    | with_reducible apply Only.after (State.modWire_only _ _)
    | with_reducible apply Only.after (markBusy_only _)
    | decide +kernel

theorem yieldProfile_only (m : YieldMsg) (s : State) : Only [.sup] s (yieldProfile m s) := by
  unfold yieldProfile
  repeat' first
    | with_reducible exact Only.refl _ _
    | split
    | with_reducible apply Only.after (adoptProfile_only _ _)
    | decide +kernel

end Sys2Proof.Machine
end

