-- ==== Sys2Proof/Laws/OnlyMedium.lean ====
section
/-! SUPPORT. For each operation of medium access, the parts of the state it can change. -/

set_option Elab.async false
set_option linter.unusedTactic false
set_option linter.unreachableTactic false

namespace Sys2Proof.Machine

/-- The front end after a frame's end is `frontAfter`, and nothing else changes (R169). -/
theorem closeFront_eq (s : State) : closeFront s = s.modPower fun p => { p with frontEnd := frontAfter s } := by
  unfold closeFront frontAfter
  split
  · rfl
  · rfl

theorem closeFront_only (s : State) : Only [.power] s (closeFront s) := by
  unfold closeFront
  repeat' first
    | with_reducible exact Only.refl _ _
    | split
    | with_reducible apply Only.after (State.modPower_only _ _)
    | decide +kernel

theorem transmissionEnd_only (s : State) : Only [.power, .wire, .hold] s (transmissionEnd s) := by
  unfold transmissionEnd
  repeat' first
    | with_reducible exact Only.refl _ _
    | dsimp only
    | split
    | with_reducible apply Only.after (State.modWire_only _ _)
    | with_reducible apply Only.after (closeFront_only _)
    | with_reducible apply Only.after (flushedEnd_only _ _ _)
    | with_reducible apply Only.after (removeTx_only _ _)
    | with_reducible apply Only.after (transmitted_only _ _)
    | decide +kernel

theorem gaspDropped_only (e : TxEntry) (s : State) : Only [.power] s (gaspDropped e s) := by
  unfold gaspDropped
  repeat' first
    | with_reducible exact Only.refl _ _
    | split
    | with_reducible apply Only.after (State.modPower_only _ _)
    | decide +kernel

theorem collided_only (s : State) : Only [.power, .wire, .hold, .sup, .ports, .call, .fault, .report, .draws, .outs]
    s (collided s) := by
  unfold collided
  repeat' first
    | with_reducible exact Only.refl _ _
    | dsimp only
    | split
    | with_reducible apply Only.after (State.modWire_only _ _)
    | with_reducible apply Only.after (closeFront_only _)
    | with_reducible apply Only.after (collideFrame_only _ _ _)
    | with_reducible apply Only.after (enterHalted_only _ _)
    | with_reducible apply Only.after (gaspDropped_only _ _)
    | decide +kernel

theorem outlivedEnd_only (count : Nat → Nat) (s : State) : Only [.wire, .power] s (outlivedEnd count s) := by
  unfold outlivedEnd
  split
  · exact (closeFront_only _).after ((State.modWire_only _ _).after ((removeTx_only _ _).mono rfl) rfl) rfl
  · exact Only.refl _ _

end Sys2Proof.Machine
end

