-- ==== Sys2Proof/Laws/OnlyStarting.lean ====
section
/-! SUPPORT. For each operation of the slow taps, the parts of the state it can change. -/

set_option Elab.async false
set_option linter.unusedTactic false
set_option linter.unreachableTactic false

namespace Sys2Proof.Machine

theorem tapOne_only (s : State) : Only [.wire, .hold, .noise, .sup, .ports, .call, .fault, .report] s (tapOne s) := by
  unfold tapOne
  repeat' first
    | with_reducible exact Only.refl _ _
    | with_reducible apply Only.after (holdTap_only _)
    | with_reducible apply Only.after (holdTimeTap_only _)
    | decide +kernel

theorem tapSlow_only (s : State) : Only [.wire, .hold, .noise, .sup, .ports, .call, .fault, .report] s (tapSlow s) := by
  unfold tapSlow
  repeat' first
    | with_reducible exact Only.refl _ _
    | with_reducible apply Only.after (holdTap10_only _)
    | with_reducible apply Only.after (noiseTap_only _)
    | with_reducible apply Only.after (supTap_only _)
    | with_reducible apply Only.after (testTap_only _)
    | with_reducible apply Only.after (wireTap_only _)
    | decide +kernel

end Sys2Proof.Machine
end

