-- ==== Sys2Proof/Laws/OnlyCallEvents.lean ====
section
/-! SUPPORT. For each operation of the lamp cadence, the parts of the state it can change. -/

set_option Elab.async false
set_option linter.unusedTactic false
set_option linter.unreachableTactic false

namespace Sys2Proof.Machine

theorem lampCadence_only (s : State) : Only [.fault] s (lampCadence s) := by
  unfold lampCadence
  repeat' first
    | with_reducible exact Only.refl _ _
    | split
    | with_reducible apply Only.after (State.modFault_only _ _)
    | decide +kernel

end Sys2Proof.Machine
end

