-- ==== Sys2Proof/Laws/Reading.lean ====
section
/-! SUPPORT. What the fields of a configuration record rest on, and what the read of the configuration memory gives (10:
R178, R179). -/

namespace Sys2Proof.Machine

theorem byteAt_set_ne (bytes : List Byte) (i j : Nat) (x : Byte) (h : i ≠ j) :
    byteAt (bytes.set i x) j = byteAt bytes j := by
  simp [byteAt, List.getD_eq_getElem?_getD, List.getElem?_set_ne h]

theorem portCountRead_eq (bytes : List Byte) : portCountRead bytes = 1 ∨ portCountRead bytes = 2 := by
  unfold portCountRead; omega

theorem defaultCfg_defaults : ConfigDefaults defaultCfg := by unfold ConfigDefaults; decide

/-- Byte 4 is ignored when the port count is 1 (R178, log 66). -/
theorem cfgRead_ignores_byte4 (bytes : List Byte) (x : Byte) (h : portCountRead bytes = 1) :
    cfgRead (bytes.set 4 x) = cfgRead bytes := by
  have count : portCountRead (bytes.set 4 x) = portCountRead bytes := by simp [portCountRead, byteAt_set_ne]
  simp [cfgRead, port2Read, count, h, byteAt_set_ne, List.drop_set_of_lt]

/-- With two ports byte 4 gives port 2 its settings (R178). -/
theorem cfgRead_port2_of_two (bytes : List Byte) (h : portCountRead bytes = 2) :
    (cfgRead bytes).port2 = portRead (byteAt bytes 4) := by simp [cfgRead, port2Read, h]

/-! ## Fields as numbers -/

theorem getLsbD_nat (b : Byte) (i : Nat) : b.getLsbD i = decide (b.toNat / 2 ^ i % 2 = 1) := by
  rw [BitVec.getLsbD, Nat.testBit_eq_decide_div_mod_eq]

theorem extract_nat (b : Byte) (i n : Nat) : (b.extractLsb' i n).toNat = b.toNat / 2 ^ i % 2 ^ n := by
  simp [BitVec.extractLsb'_toNat, Nat.shiftRight_eq_div_pow]

theorem rd16_nat (a b : Byte) : (rd16 a b).toNat = a.toNat + 256 * b.toNat := by
  have ha := a.isLt
  rw [rd16, BitVec.toNat_append, ← Nat.shiftLeft_add_eq_or_of_lt ha, Nat.shiftLeft_eq]
  omega

/-! ## A good record -/

theorem take_sum (l : List Byte) (n : Nat) :
    ((l.take n).map BitVec.toNat).sum = ((List.range n).map fun i => (l.getD i 0).toNat).sum := by
  induction n generalizing l with
  | zero => simp
  | succ n ih =>
    cases l with
    | nil => simp [List.map_const']
    | cons x xs =>
      rw [List.range_succ_eq_map, List.take_succ_cons, List.map_cons, List.sum_cons, ih, List.map_cons, List.sum_cons,
        List.map_map]
      rfl

theorem recordGood_iff (bytes : List Byte) : recordGood bytes = true ↔ GoodRecord bytes := by
  simp only [recordGood, GoodRecord, Bool.and_eq_true, decide_eq_true_eq]
  refine and_congr ?_ ?_
  · rw [← BitVec.toNat_inj]; rfl
  · rw [← BitVec.toNat_inj, rd16_nat, sumCheck, BitVec.toNat_ofNat, take_sum]; rfl

/-- The n-th trigger of a record is read from its n-th three bytes (R178). -/
theorem trigsRead_get (l : List Byte) (n : Nat) : (trigsRead l)[n]? =
    if 3 * n + 2 < l.length then some (trigRead (l.getD (3 * n) 0) (l.getD (3 * n + 1) 0) (l.getD (3 * n + 2) 0))
    else none := by
  induction n generalizing l with
  | zero =>
    rcases l with _ | ⟨a, _ | ⟨b, _ | ⟨c, l⟩⟩⟩ <;> simp [trigsRead]
  | succ n ih =>
    rcases l with _ | ⟨a, _ | ⟨b, _ | ⟨c, l⟩⟩⟩ <;>
      simp only [trigsRead, List.getElem?_nil, List.getElem?_cons_succ, List.length_nil, List.length_cons]
    · simp
    · simp
    · simp
    · rw [ih]
      have e : 3 * (n + 1) = 3 * n + 1 + 1 + 1 := by omega
      simp only [e, List.getD_cons_succ]
      congr 1
      simp only [eq_iff_iff]
      omega

theorem trigRead_fields (m0 m1 c : Byte) : (trigRead m0 m1 c).mask.toNat = m0.toNat + 256 * m1.toNat ∧
    (trigRead m0 m1 c).all = decide (c.toNat % 2 = 1) ∧ (trigRead m0 m1 c).inverse = decide (c.toNat / 2 % 2 = 1) ∧
    (trigRead m0 m1 c).severity = (if c.toNat / 4 % 4 = 0 then 1 else c.toNat / 4 % 4) ∧
    (trigRead m0 m1 c).enabled = decide (c.toNat / 16 % 2 = 1) := by
  refine ⟨rd16_nat _ _, ?_, ?_, ?_, ?_⟩
  · simpa [trigRead] using getLsbD_nat c 0
  · simpa [trigRead] using getLsbD_nat c 1
  · simp only [trigRead, extract_nat]; rfl
  · simpa [trigRead] using getLsbD_nat c 4

theorem portRead_fields (b : Byte) :
    (portRead b).cls.toNat = b.toNat % 4 ∧ (portRead b).rings = decide (b.toNat / 4 % 2 = 1) := by
  refine ⟨?_, ?_⟩
  · simp [portRead]
  · simpa [portRead] using getLsbD_nat b 2

/-- A record of at least 36 bytes is read byte for byte (R178). -/
theorem cfgRead_fields {bytes : List Byte} (h : 36 ≤ bytes.length) : ConfigFields bytes (cfgRead bytes) := by
  have hl : ((bytes.drop 10).take 24).length = 24 := by simp; omega
  have hb : ∀ i < 24, ((bytes.drop 10).take 24).getD i 0 = bytes.getD (10 + i) 0 := by
    intro i hi
    simp [List.getD_eq_getElem?_getD, hi]
  unfold ConfigFields
  refine ⟨?_, ?_, portRead_fields _, ?_, ?_, ?_, rd16_nat _ _, ?_, ?_, rfl, ?_, ?_⟩
  · show portCountRead bytes = _
    simp only [portCountRead, byteAt]; split <;> omega
  · simp [cfgRead, byteAt]
  · show if _ then port2Read bytes = _ else _
    have : portCountRead bytes = 2 ↔ ¬ (bytes.getD 1 0).toNat ≤ 1 := by simp only [portCountRead, byteAt]; omega
    simp only [cfgRead, port2Read]
    split
    · next h => rw [if_neg (by rw [this]; exact fun k => k h)]; rfl
    · next h => rw [if_pos (this.2 h)]; exact portRead_fields _
  · simp [cfgRead, byteAt]
  · exact extract_nat (byteAt bytes 5) 2 2
  · simp only [cfgRead, byteAt]; split <;> omega
  · simp only [cfgRead, byteAt]; split <;> omega
  · have a := trigsRead_get ((bytes.drop 10).take 24) 7
    have b := trigsRead_get ((bytes.drop 10).take 24) 8
    rw [hl] at a b
    have a' : 7 < (trigsRead ((bytes.drop 10).take 24)).length := by
      rw [if_pos (by omega)] at a
      exact (List.getElem?_eq_some_iff.1 a).1
    have b' : (trigsRead ((bytes.drop 10).take 24)).length ≤ 8 := by
      rw [if_neg (by omega)] at b
      exact List.getElem?_eq_none_iff.1 b
    show (trigsRead _).length = 8
    omega
  · intro n g hg
    have hg : (trigsRead ((bytes.drop 10).take 24))[n]? = some g := hg
    rw [trigsRead_get, hl] at hg
    split at hg
    · next hn =>
      rw [hb _ (by omega), hb _ (by omega), hb _ (by omega)] at hg
      have e1 : 10 + (3 * n + 1) = 11 + 3 * n := by omega
      have e2 : 10 + (3 * n + 2) = 12 + 3 * n := by omega
      rw [e1, e2] at hg
      obtain rfl := Option.some.inj hg
      exact trigRead_fields _ _ _
    · exact absurd hg (by simp)

end Sys2Proof.Machine
end

