-- ==== Sys2Proof/Laws/Settled.lean ====
section
/-! SUPPORT. A level rule that has settled does nothing, so at a Calm station the end of a command changes nothing
that the command left alone; and what each wrapper of a meaning can change. -/

set_option Elab.async false

namespace Sys2Proof.Machine

open Sys2Proof

/-! ## Conditions -/

theorem getLsbD_condBit (c : Cond) (i : Nat) : (condBit c).getLsbD i = decide (i = condNo c) := by
  by_cases h : i < 16
  · interval_cases i <;> cases c <;> decide
  · rw [BitVec.getLsbD_of_ge _ _ (by omega)]
    have : condNo c < 16 := by cases c <;> decide
    exact (decide_eq_false (by omega)).symm

/-- A written condition reads as written. -/
theorem getLsbD_writeCond_same (v : BitVec 16) (c : Cond) (b : Bool) :
    (writeCond v c b).getLsbD (condNo c) = b := by
  have h : condNo c < 16 := by cases c <;> decide
  cases b <;> simp [writeCond, BitVec.getLsbD_or, BitVec.getLsbD_and, BitVec.getLsbD_not, getLsbD_condBit, h,
    -BitVec.getLsbD_eq_getElem]

/-- Writing one condition leaves the others. -/
theorem getLsbD_writeCond_other (v : BitVec 16) {c d : Cond} (b : Bool) (h : d ≠ c) :
    (writeCond v c b).getLsbD (condNo d) = v.getLsbD (condNo d) := by
  have hd : condNo d < 16 := by cases d <;> decide
  have hn : condNo d ≠ condNo c := by revert h; cases c <;> cases d <;> decide
  cases b <;> simp [writeCond, BitVec.getLsbD_or, BitVec.getLsbD_and, BitVec.getLsbD_not, getLsbD_condBit, hd, hn,
    -BitVec.getLsbD_eq_getElem]

/-- Writing a condition as it stands changes nothing. -/
theorem writeCond_same (v : BitVec 16) (c : Cond) : writeCond v c (v.getLsbD (condNo c)) = v := by
  have hc : condNo c < 16 := by cases c <;> decide
  apply BitVec.eq_of_getLsbD_eq
  intro i hi
  by_cases h : i = condNo c
  · subst h; exact getLsbD_writeCond_same ..
  · cases hb : v.getLsbD (condNo c) <;>
      simp [writeCond, BitVec.getLsbD_or, BitVec.getLsbD_and, BitVec.getLsbD_not, getLsbD_condBit, hi, h,
        -BitVec.getLsbD_eq_getElem]

theorem setConds_same (s : State) : setConds s.fault.conds s = s := by simp [setConds]

theorem setCond_same {c : Cond} {b : Bool} {s : State} (h : s.cond c = b) : setCond c b s = s := by
  subst h
  unfold setCond
  rw [State.cond, writeCond_same, setConds_same]

/-! ## The level rules -/

theorem settleEligible_of {s : State} (h : s.eligibleNow = s.hold.eligible) : settleEligible s = s := by
  simp [settleEligible, h]

theorem settleDegraded_of {s : State} (h : (s.holding && s.hold.degraded && s.call.record.isNone) = false) :
    settleDegraded s = s := by simp [settleDegraded, h]

theorem settleHolder_of {s : State} (h : s.computeHolder = s.hold.known) : settleHolder s = s := by
  simp [settleHolder, h]

theorem settleNotices_of {s : State} (h : s.wire.dropped = []) : settleNotices s = s := by
  have e : (s.modWire fun w => { w with dropped := [] }) = s := by
    obtain ⟨⟩ := s; simp only [State.modWire]; congr; simp only at h; rw [← h]
  simp [settleNotices, h, e]

theorem clearNotices_of {s : State} (h : s.wire.dropped = []) : clearNotices s = s := by
  obtain ⟨⟩ := s; simp only [clearNotices, State.modWire]; congr; simp only at h; rw [← h]

theorem addressHead_of {s : State} (h : headSettled s = true) : addressHead s = s := by
  unfold headSettled at h
  unfold addressHead
  split
  · next e rest he =>
    rw [he] at h
    have : (e.dst.isNone && !e.inTx) = false := by
      cases hd : e.dst <;> cases ht : e.inTx <;> simp_all
    simp [this]
  · rfl

theorem settleDataHead_of {s : State} (h : headSettled s = true) : settleDataHead s = s := by
  unfold settleDataHead
  generalize s.wire.data = l
  induction l with
  | nil => rfl
  | cons _ _ ih => rw [List.foldl_cons, addressHead_of h]; exact ih

theorem settleConds_of {s : State} (h : condsSettled s = true) : settleConds s = s := by
  simp only [condsSettled, Bool.and_eq_true, decide_eq_true_eq] at h
  obtain ⟨⟨⟨⟨⟨⟨h1, h2⟩, h3⟩, h4⟩, h5⟩, h6⟩, h7⟩ := h
  simp only [settleConds, List.foldl_cons, List.foldl_nil, setCond_same h1, setCond_same h2, setCond_same h3,
    setCond_same h4, setCond_same h5, setCond_same h6]
  split
  · rfl
  · next hh =>
    have h7' : s.cond .lineDead = false ∧ s.cond .lineLeaky = false ∧ s.cond .lineForeign = false := by
      simp only [Bool.not_eq_true] at hh
      rw [hh] at h7
      revert h7
      cases s.cond .lineDead <;> cases s.cond .lineLeaky <;> cases s.cond .lineForeign <;> decide
    obtain ⟨a, b, c⟩ := h7'
    have e1 : writeCond s.fault.conds .lineDead false = s.fault.conds := by
      rw [← a]; exact writeCond_same ..
    have e2 : writeCond s.fault.conds .lineLeaky false = s.fault.conds := by
      rw [← b]; exact writeCond_same ..
    have e3 : writeCond s.fault.conds .lineForeign false = s.fault.conds := by
      rw [← c]; exact writeCond_same ..
    rw [e1, e2, e3, setConds_same]

theorem settleIdle_of {s : State} (h : idleSettled s = true) : settleIdle s = s := by
  unfold idleSettled at h
  unfold settleIdle
  split
  · next hi =>
    simp only [hi, if_true, Bool.and_eq_true, Bool.not_eq_true'] at h
    rw [if_neg (by simp [h.1])]
    obtain ⟨⟩ := s; rename_i p _ _ _ _ _ _ _ _ _ _ _ _
    obtain ⟨⟩ := p
    simp only [State.modPower] at h ⊢
    obtain ⟨x, hx⟩ := Option.isSome_iff_exists.mp h.2
    simp [hx]
  · next hi =>
    simp only [hi, Bool.false_eq_true, if_false, Option.isNone_iff_eq_none] at h
    obtain ⟨⟩ := s; rename_i p _ _ _ _ _ _ _ _ _ _ _ _
    obtain ⟨⟩ := p
    simp only [State.modPower] at h ⊢
    simp [h]

theorem takeInList_of : ∀ (l q : List FaultRecord),
    (l.all fun r => !isNew r || (placeReport (asSent r) q).isNone) = true → takeInList l q = (l, q)
  | [], _, _ => rfl
  | r :: l, q, h => by
    simp only [List.all_cons, Bool.and_eq_true, Bool.or_eq_true, Bool.not_eq_true', Option.isNone_iff_eq_none] at h
    obtain ⟨h1, h2⟩ := h
    have ih := takeInList_of l q h2
    unfold takeInList
    cases hn : isNew r with
    | false => simp [ih]
    | true =>
      have hp : placeReport (asSent r) q = none := by
        rcases h1 with h1 | h1
        · rw [hn] at h1; cases h1
        · exact h1
      simp [hp, ih]

theorem settleReports_of {s : State} (h : reportsSettled s = true) : settleReports s = s := by
  unfold reportsSettled at h
  unfold settleReports
  split
  · next hh =>
    rw [if_pos hh] at h
    simp only [takeIn, takeInList_of _ _ h]
    rfl
  · next hh =>
    rw [if_neg hh] at h
    unfold sendReport
    split
    · next k hk =>
      rw [hk] at h
      simp only at h
      split
      · next hc =>
        simp only [Bool.and_eq_true, Bool.not_eq_true', Option.isNone_iff_eq_none] at hc
        obtain ⟨⟨a, b⟩, c⟩ := hc
        have hall : (s.fault.list.all fun r => !isNew r) = true := by simpa [a, b, c] using h
        split
        · next r hr =>
          have := List.all_eq_true.mp hall r (List.mem_of_find?_eq_some hr)
          rw [List.find?_some hr] at this
          cases this
        · rfl
      · rfl
    · rfl

theorem mailboxOffer_of {s : State} (h : offerSettled s = true) : mailboxOffer s = s := by
  unfold offerSettled at h
  unfold mailboxOffer
  split
  · next r rest hq =>
    rw [hq] at h
    rw [if_neg]
    simpa only [List.isEmpty_cons, Bool.false_or, Bool.not_eq_true', Bool.not_eq_true] using h
  · rfl

theorem startTransfer_of {s : State} (h : transferSettled s = true) : startTransfer s = s := by
  unfold transferSettled at h
  unfold startTransfer
  split
  · next r rest hq =>
    rw [hq] at h
    rw [if_neg]
    simpa only [List.isEmpty_cons, Bool.false_or, Bool.not_eq_true', Bool.not_eq_true] using h
  · rfl

theorem startOutpulse_of {s : State} (h : outpulseSettled s = true) : startOutpulse s = s := by
  unfold outpulseSettled at h
  unfold startOutpulse
  split
  · next r hr =>
    rw [hr] at h
    simp only at h
    split
    · next i rest hq =>
      rw [hq] at h
      rw [if_neg]
      simpa only [List.isEmpty_cons, Bool.false_or, Bool.not_eq_true', Bool.not_eq_true] using h
    · rfl
  · rfl

theorem lossNow_of {s : State} {r : CallRecord}
    (h : r.loss.isSome = (r.seized && s.loopClosed && !s.pins.loopCurrent)) : lossNow s r = r.loss := by
  unfold lossNow
  cases hl : r.loss with
  | none => rw [hl] at h; simp only [Option.isSome_none] at h; simp [← h]
  | some x => rw [hl] at h; simp only [Option.isSome_some] at h; simp [← h]

theorem settleLoss_of {s : State} (h : lossSettled s = true) : settleLoss s = s := by
  unfold lossSettled at h
  unfold settleLoss modRecord
  cases hr : s.call.record with
  | none =>
    obtain ⟨⟩ := s; simp only [State.modCall] at hr ⊢; congr; simp [hr]
  | some r =>
    rw [hr] at h
    have e := lossNow_of (of_decide_eq_true h)
    have hc : s.call = { s.call with record := some r } := by rw [← hr]
    simp only [State.modCall, hr, Option.map_some, e]
    rw [← hc]

theorem settleLamp_of {s : State} (h : s.lampWanted = s.fault.lamp) : settleLamp s = s := by simp [settleLamp, h]

theorem tonePort_of {s : State} {n : PortNo} (h : toneSettled s n = true) : tonePort n s = s := by
  unfold tonePort State.modPort State.modPorts
  have hp : ¬ (((s.ports.get n).tone = .dial ∨ (s.ports.get n).tone = .stutter) ∧
      (s.ports.get n).tone ≠ s.dialTone) := by
    simp only [toneSettled, State.port, Bool.or_eq_true, Bool.not_eq_true', Bool.or_eq_false_iff] at h
    rintro ⟨a | a, b⟩ <;> rcases h with ⟨c, d⟩ | c
    · exact of_decide_eq_false c a
    · exact b (of_decide_eq_true c)
    · exact of_decide_eq_false d a
    · exact b (of_decide_eq_true c)
  simp only [if_neg hp]
  cases n <;> rfl

theorem settleTones_of {s : State} (h : s.fittedPorts.all (toneSettled s) = true) : settleTones s = s := by
  unfold settleTones State.eachPort
  have key : ∀ l : List PortNo, l.all (toneSettled s) = true → l.foldl (fun s n => tonePort n s) s = s := by
    intro l
    induction l with
    | nil => intro _; rfl
    | cons n l ih =>
      intro hl
      simp only [List.all_cons, Bool.and_eq_true] at hl
      rw [List.foldl_cons, tonePort_of hl.1]
      exact ih hl.2
  exact key _ h

/-- At a settled station the end of a command changes nothing. -/
theorem finish_of_calm {s : State} (h : Calm s) : finish s = s := by
  obtain ⟨_, h1, h2, h3, h4, h5, h6, h7, h8, h9, h10, h11, h12, h13, h14⟩ := h
  simp only [finish, settleEligible_of h1, settleDegraded_of h2, settleHolder_of h3, settleNotices_of h4,
    settleDataHead_of h5, settleConds_of h6, settleIdle_of h7, settleReports_of h8, mailboxOffer_of h9,
    startTransfer_of h10, startOutpulse_of h11, settleLoss_of h12, settleLamp_of h13, settleTones_of h14,
    clearNotices_of h4]

/-- Where no command can send the station to WATCH, the idle rule writes the idle timer alone (R168). -/
theorem settleIdle_awake {s : State} (h : s.power.state = .battery → s.pins.battLow = false) :
    ∃ i, settleIdle s = s.modPower fun p => { p with idle := i } := by
  unfold settleIdle
  split
  · next hi =>
    have hb : s.power.state = .battery := by
      simp only [State.idleHolds, Bool.and_eq_true, decide_eq_true_eq] at hi
      exact hi.1.1.1.1
    rw [if_neg (by simp [h hb])]
    exact ⟨_, rfl⟩
  · exact ⟨none, rfl⟩

/-- The end of a command where the drop notices and the idle timer alone have anything to do: `v` is what the notices
leave. -/
theorem finish_but_idle {u v : State} (h1 : u.eligibleNow = u.hold.eligible)
    (h2 : (u.holding && u.hold.degraded && u.call.record.isNone) = false) (h3 : u.computeHolder = u.hold.known)
    (hv : settleNotices u = v) (h4 : headSettled v = true) (h5 : condsSettled v = true)
    (hb : v.power.state = .battery → v.pins.battLow = false)
    (h6 : reportsSettled v = true) (h7 : offerSettled v = true) (h8 : transferSettled v = true)
    (h9 : outpulseSettled v = true) (h10 : lossSettled v = true) (h11 : v.lampWanted = v.fault.lamp)
    (h12 : v.fittedPorts.all (toneSettled v) = true) (h13 : v.wire.dropped = []) :
    ∃ i, finish u = v.modPower fun p => { p with idle := i } := by
  obtain ⟨i, hi⟩ := settleIdle_awake hb
  refine ⟨i, ?_⟩
  have e6 : settleReports (v.modPower fun p => { p with idle := i }) = _ := settleReports_of h6
  have e7 : mailboxOffer (v.modPower fun p => { p with idle := i }) = _ := mailboxOffer_of h7
  have e8 : startTransfer (v.modPower fun p => { p with idle := i }) = _ := startTransfer_of h8
  have e9 : startOutpulse (v.modPower fun p => { p with idle := i }) = _ := startOutpulse_of h9
  have e10 : settleLoss (v.modPower fun p => { p with idle := i }) = _ := settleLoss_of h10
  have e11 : settleLamp (v.modPower fun p => { p with idle := i }) = _ := settleLamp_of h11
  have e12 : settleTones (v.modPower fun p => { p with idle := i }) = _ := settleTones_of h12
  have e13 : clearNotices (v.modPower fun p => { p with idle := i }) = _ := clearNotices_of h13
  simp only [finish, settleEligible_of h1, settleDegraded_of h2, settleHolder_of h3, hv, settleDataHead_of h4,
    settleConds_of h5, hi, e6, e7, e8, e9, e10, e11, e12, e13]

/-! ## Calm and the parts it reads -/

/-- `Calm` reads neither the outputs of the last step, the draws, the service port nor the waiting commands. -/
theorem Calm.quiet {s : State} (h : Calm s) : Calm s.quiet := h

/-- `Calm` does not read the taps owed. -/
theorem Calm.modTaps {s : State} (h : Calm s) (f : Taps → Taps) : Calm (s.modTaps f) := h

/-! ## The wrappers of a meaning -/

theorem running_active {f : State → State} {s : State} (h : s.active = true) : running f s = finish (f s.quiet) := by
  simp [running, h]

theorem running_inactive {f : State → State} {s : State} (h : s.active = false) : running f s = s.quiet := by
  simp [running, h]

/-- A running command whose effect is already settled. -/
theorem running_calm {f : State → State} {s : State} (h : s.active = true) (hc : Calm (f s.quiet)) :
    running f s = f s.quiet := by rw [running_active h, finish_of_calm hc]

/-- The parts that the end of a command can change, the outputs among them. -/
def afterParts : List Part := [.power, .wire, .hold, .noise, .sup, .ports, .call, .fault, .report, .outs]

theorem within_of_mem {ps : List Part} : ∀ {qs : List Part}, (∀ p ∈ qs, p ∈ ps) →
    (qs.all fun p => decide (p ∈ ps)) = true := fun h => List.all_eq_true.mpr fun p hp => decide_eq_true (h p hp)

theorem mem_of_within {ps qs : List Part} (h : (qs.all fun p => decide (p ∈ ps)) = true) : ∀ p ∈ qs, p ∈ ps :=
  fun p hp => of_decide_eq_true (List.all_eq_true.mp h p hp)

theorem quiet_within {ps : List Part} (h : .outs ∈ ps) (s : State) : Only ps s s.quiet :=
  (State.quiet_only s).mono (within_of_mem (by simpa using h))

theorem running_only {ps qs : List Part} {f : State → State} (h : ∀ t, Only qs t (f t)) (hq : ∀ p ∈ qs, p ∈ ps)
    (ha : ∀ p ∈ afterParts, p ∈ ps) (s : State) : Only ps s (running f s) := by
  have h0 := quiet_within (ha .outs (by decide)) s
  unfold running
  split
  · exact ((finish_only _).mono (within_of_mem ha)).trans' ((h _).mono (within_of_mem hq)) h0
  · exact h0

theorem onWire_only {ps qs : List Part} {f : State → State} (h : ∀ t, Only qs t (f t)) (hq : ∀ p ∈ qs, p ∈ ps)
    (ha : ∀ p ∈ afterParts, p ∈ ps) (s : State) : Only ps s (onWire f s) := by
  have h0 := quiet_within (ha .outs (by decide)) s
  have hw := ha .wire (by decide)
  unfold onWire
  split
  · exact ((finish_only _).mono (within_of_mem ha)).trans' ((h _).mono (within_of_mem hq)) h0
  · split
    · exact ((clearNotices_only _).mono (within_of_mem (by simpa using hw))).trans' ((h _).mono (within_of_mem hq)) h0
    · exact h0

/-- What a checked frame can change beside what its contents do (R8). -/
def heardParts : List Part := [.wire, .hold, .sup, .ports, .call, .fault, .report, .draws, .outs]

theorem dispatch_only {ps qs : List Part} {act : Tick → State → State} (h : ∀ start t, Only qs t (act start t))
    (hq : ∀ p ∈ qs, p ∈ ps) (ha : ∀ p ∈ heardParts, p ∈ ps) (hd : Header) (tie : Option (BitVec 16)) (start : Tick)
    (s : State) : Only ps s (dispatch hd tie act start s) := by
  have hs : Only heardParts s (settleHolder (heardFrame hd.src start hd.hold s)) :=
    (settleHolder_only _).after ((heardFrame_only _ _ _ _).mono (by decide)) (by decide)
  have hs' : Only ps s (settleHolder (heardFrame hd.src start hd.hold s)) := hs.mono (within_of_mem ha)
  unfold dispatch
  split
  · exact (rankClash_only _ _).mono (within_of_mem ha)
  · dsimp only
    split
    · exact (h _ _).after hs' (within_of_mem hq)
    · exact hs'

theorem carrierEnd_only {ps qs : List Part} {act : Tick → State → State} (h : ∀ start t, Only qs t (act start t))
    (hq : ∀ p ∈ qs, p ∈ ps) (ha : ∀ p ∈ afterParts, p ∈ ps) (hp : .pins ∈ ps) (s : State) :
    Only ps s (carrierEnd act s) := by
  have hw : Only [.wire] s (dropRx s) := dropRx_only s
  have h1 : Only ps s (if s.active then carrierOff s else dropRx (carrierOff s)) := by
    have hc : Only ps s (carrierOff s) := (carrierOff_only s).mono (within_of_mem (by simpa using hp))
    split
    · exact hc
    · exact (dropRx_only _).after hc (within_of_mem (by simpa using ha .wire (by decide)))
  unfold carrierEnd
  refine (running_only (ps := ps) (qs := ps) ?_ (fun _ h => h) ha _).after h1 (within_of_mem fun _ h => h)
  intro t
  have hd : Only ps t (dropRx t) := (dropRx_only _).mono (within_of_mem (by simpa using ha .wire (by decide)))
  split
  · split
    · exact (h _ _).after hd (within_of_mem hq)
    · exact hd
  · exact Only.refl _ _

/-- A frame that DAMAGED_FRAME tells changes what a checked frame without contents changes. -/
theorem untoldFrame_only (bytes : List Byte) (start : Tick) (s : State) :
    Only heardParts s (untoldFrame bytes start s) := by
  unfold untoldFrame
  split
  · exact (countError_only _).mono (by decide)
  · exact dispatch_only (qs := []) (fun _ _ => Only.refl _ _) (by decide) (fun _ h => h) _ _ _ _
  · exact Only.refl _ _

/-! ## Interval taps -/

/-- A tap that is owed is handed out, and owed no more. -/
theorem handOut_owed {owed : Taps → Bool} {taken : Taps → Taps} {f : State → State} {s : State}
    (h : owed s.taps = true) : handOut owed taken f s = f (s.modTaps taken) := by simp [handOut, h]

/-- A tap that is not owed does nothing. -/
theorem handOut_not {owed : Taps → Bool} {taken : Taps → Taps} {f : State → State} {s : State}
    (h : owed s.taps = false) : handOut owed taken f s = s := by simp [handOut, h]

theorem handOut_only {ps qs : List Part} {owed : Taps → Bool} {taken : Taps → Taps} {f : State → State}
    (h : ∀ t, Only qs t (f t)) (hq : ∀ p ∈ qs, p ∈ ps) (ht : .taps ∈ ps) (s : State) :
    Only ps s (handOut owed taken f s) := by
  unfold handOut
  split
  · exact (h _).after ((State.modTaps_only _ _).mono (within_of_mem (by simpa using ht))) (within_of_mem hq)
  · exact Only.refl _ _

/-! ## Inputs whose fall no row names (logs 16 and 17) -/

/-- A told fall changes the level, clears the outputs, and does nothing else, in every phase. -/
theorem batteryTold_emptyFell (s : State) :
    batteryTold .emptyFell s = { s with pins := { s.pins with battEmpty := false }, outs := [] } := rfl

theorem upstreamTold_sendOkFell (s : State) :
    upstreamTold .sendOkFell s = { s with pins := { s.pins with sendOk := false }, outs := [] } := rfl

/-! ## Answers of the modem (R86, log 60) -/

/-- An answer to an offer withdrawn at this moment counts as such and does nothing else. -/
theorem answered_late {take : FaultRecord → State → State} {s : State} (h : 0 < s.sup.late) :
    answered take s = s.modSup fun u => { u with late := u.late - 1 } := by simp [answered, h]

/-- Another answer is taken for the copy offered. -/
theorem answered_offer {take : FaultRecord → State → State} {s : State} {m : MailOffer} (h : s.sup.late = 0)
    (hm : s.sup.mailbox = some m) : answered take s = take m.record (closeMailbox s) := by simp [answered, h, hm]

/-- An answer while the mailbox is IDLE is ignored. -/
theorem answered_idle {take : FaultRecord → State → State} {s : State} (h : s.sup.late = 0)
    (hm : s.sup.mailbox = none) : answered take s = s := by simp [answered, h, hm]

/-! ## A frame that outlives a restart (R13, log 54) -/

/-- A restart's wire holds at most the frame that was in transmission, as `Starting` asks. -/
theorem startWire_keptWire (s : State) (p : Pins) (d : Nat) (q : List Instr) :
    startWire (keptWire s (State.atStart p d q).wire) = true := by
  unfold keptWire
  split
  next x c e hx he =>
    obtain ⟨hi, hc⟩ : e.inTx = true ∧ c = x.cls := by
      simp only [txEntry, hx, Option.map_eq_some_iff, Prod.mk.injEq] at he
      obtain ⟨y, hy, hc, rfl⟩ := he
      exact ⟨by simpa using List.find?_some hy, hc.symm⟩
    subst hc
    cases x.cls <;> simp [startWire, State.atStart, Wire.setQueue, Wire.queue, hi]
  · rfl

end Sys2Proof.Machine
end

