-- ==== Sys2Proof/Laws/Sounding.lean ====
section
/-! SUPPORT. What putting a slot does to rounds where quiet windows coincide (R53), and when a port's tone sounds (R101,
R104). -/

namespace Sys2Proof.Machine

open Sys2Proof

/-! ## Coinciding quiet windows -/

@[simp] theorem otherSlot_otherSlot (n : SlotName) : otherSlot (otherSlot n) = n := by cases n <;> rfl

@[simp] theorem otherSlot_ne (n : SlotName) : otherSlot n ≠ n := by cases n <;> decide

/-- While the other slot's window is open a slot that is set opens no round: the span goes on. -/
theorem putSlot_beside_open {n : SlotName} {s : State} (t : Option Track)
    (h : openNow (s.noise.slot (otherSlot n)) = true) :
    putSlot n t s =
      s.modNoise fun q => q.setSlot (t.map (placeWindow s.now (spanIdle s.wireIdle (s.noise.slot (otherSlot n))))) n := by
  simp [putSlot, h]

/-- The last window of a span that closes after an idle span contends; another set slot changes the slot alone. -/
theorem putSlot_cases (n : SlotName) (t : Option Track) (s : State) :
    let new := t.map (placeWindow s.now (spanIdle s.wireIdle (s.noise.slot (otherSlot n))))
    let s' := s.modNoise fun q => q.setSlot new n
    (openNow (s.noise.slot n) = true ∧ openNow new = false ∧ openNow (s.noise.slot (otherSlot n)) = false ∧
        putSlot n t s = contend s') ∨
      putSlot n t s = s' := by
  dsimp only
  unfold putSlot
  dsimp only
  split
  · next h =>
    left
    simp only [closedIdle, Bool.and_eq_true, Bool.not_eq_true'] at h
    obtain ⟨h1, h2⟩ := h
    split at h1
    · next k hk =>
      simp only [Bool.and_eq_true, Bool.not_eq_true'] at h1
      exact ⟨by simp [hk, openNow, h1.1.1], h1.2, h2, rfl⟩
    · cases h1
  · exact .inr rfl

/-! ## Tones -/

/-- Every tone begins on (R104). -/
theorem toneLevelAt_zero {t : Tone} (h : t ≠ .silent) : toneLevelAt t 0 ≠ .absent := by
  cases t <;> first | exact absurd rfl h | decide

/-- A port of a running station whose tone has just begun plays it. -/
theorem tonePlayed_begins {n : PortNo} {s : State} (h : s.active = true) (h0 : (s.port n).toneStep = 0) :
    s.tonePlayed n = (s.port n).tone := by
  simp only [State.active] at h
  simp only [State.tonePlayed, State.toneLevel, h, if_true, h0]
  cases (s.port n).tone <;> rfl

/-- Silence wherever no tone sounds: a station that does not run, or is in the last-gasp window (R172, R175). -/
theorem tonePlayed_inactive {n : PortNo} {s : State} (h : s.active = false) : s.tonePlayed n = .silent := by
  simp only [State.active] at h
  simp [State.tonePlayed, State.toneLevel, h]

end Sys2Proof.Machine
end

