-- ==== Sys2Proof/Tests/Slice0.lean ====
section
/-! SUPPORT. Tests: commands that are not well formed, the spec's worked examples a step at a time, and for every
statement with hypotheses a state and operands that meet them, clause by clause. -/

set_option Elab.async false
set_option linter.unusedTactic false
set_option linter.unreachableTactic false
set_option maxRecDepth 4000

namespace Sys2Proof.Tests

open Sys2Proof.Machine

/-! ## Helpers -/

/-- The state after a command. -/
def after (c : Instr) (s : State) : State :=
  match exec c s with
  | .next t => t
  | _ => s

def word (n : Nat) : List Byte := List.replicate n 0#8

def quietFrame : Speech := List.replicate 80 0#16

/-! ## Commands that the outside cannot give -/

def okHeader : Header := ⟨5, 3, .listed .passive⟩
def okRequest : RequestMsg := ⟨1, 0, 0, 0, 7⟩
def okFixed : BeaconFixed := ⟨0x1234#16, .listed .full, true, true, 1#2, 600#32⟩
def okBlock : HolderBlock := ⟨false, 0#2, false, false, true, 1#2, false, false, false⟩
def okTrack : TrackMsg := ⟨320000#32, 9#8, 20000#24⟩
def okRecord : FaultRecord := ⟨5, 6, 3, 0x2000#16, 0, 1000#32, 1, 1, .sent⟩

theorem test_ill_header_source : WellFormed (.claim ⟨0, 3, .listed .seeking⟩ 1#16) = false := by decide
theorem test_ill_header_dest : WellFormed (.claim ⟨8, 9, .listed .seeking⟩ 1#16) = false := by decide
theorem test_ill_request_byte : WellFormed (.seize okHeader { okRequest with cls := 256 }) = false := by decide
theorem test_ill_beacon_block : WellFormed (.beacon ⟨5, 0, .listed .holding⟩ ⟨okFixed, none, []⟩) = false := by decide
theorem test_ill_beacon_tracks :
    WellFormed (.beacon ⟨5, 0, .listed .passive⟩ ⟨okFixed, none, [okTrack, okTrack, okTrack]⟩) = false := by decide
theorem test_ill_yield_tracks :
    WellFormed (.yield ⟨5, 0, .listed .yielding⟩ ⟨1#8, [okTrack, okTrack, okTrack]⟩) = false := by decide
theorem test_ill_gasp_record :
    WellFormed (.lastgasp ⟨5, 0, .listed .holding⟩ ⟨{ okRecord with count := 256 }, false, 0#2, []⟩) = false := by decide
theorem test_ill_reply : WellFormed (.reply okHeader ⟨7, .grant, 256, 0, 1⟩) = false := by decide
theorem test_ill_clear : WellFormed (.clear okHeader ⟨256, 1, .dual⟩) = false := by decide
theorem test_ill_dial : WellFormed (.dial okHeader ⟨1, 256, .listed .flash⟩) = false := by decide
theorem test_ill_voice : WellFormed (.voice okHeader ⟨.toHolder, 1, 1, 0, 0#8, []⟩) = false := by decide
theorem test_ill_receipt : WellFormed (.receipt okHeader 6 256) = false := by decide
theorem test_ill_link_short : WellFormed (.data okHeader (word 13)) = false := by decide
theorem test_ill_link_long : WellFormed (.data okHeader (word 1537)) = false := by decide +kernel
theorem test_ill_config : WellFormed (.configurationReadEnd (.answered (word 35)) true) = false := by decide
theorem test_ill_tap : WellFormed (.tap10ms quietFrame quietFrame []) = false := by decide
theorem test_ill_damaged :
    WellFormed (.damagedFrame (frameBytes 5 3 (.listed .seeking) (.claim 1#16))) = false := by decide +kernel
theorem test_ill_slot : WellFormed (.slotBegin 34) = false := by decide
theorem test_ill_party : WellFormed (.partySilenceTimeout 9 1) = false := by decide
theorem test_ill_forget : WellFormed (.forget 256) = false := by decide

/-! ## Words of the wire -/

/-- A SEIZE written out from R2, R3 and R5. -/
theorem test_seize_on_the_wire :
    receiveBytes ([0x06#8, 0x05#8, 0x03#8, 0x01#8, 0x06#8, 0x00#8, 0x01#8, 0x01#8, 0x00#8, 0x00#8, 0x00#8, 0x07#8] ++
      le16 (crc [0x06#8, 0x05#8, 0x03#8, 0x01#8, 0x06#8, 0x00#8, 0x01#8, 0x01#8, 0x00#8, 0x00#8, 0x00#8, 0x07#8])) =
    .checked okHeader (.request .seize okRequest) := by decide +kernel

/-- A HOLDING station's BEACON with its holder block and one track (R4). -/
theorem test_beacon_round_trip :
    receiveBytes (frameBytes 2 0 (.listed .holding) (.beacon ⟨okFixed, some okBlock, [okTrack]⟩)) =
      .checked ⟨2, 0, .listed .holding⟩ (.beacon ⟨okFixed, some okBlock, [okTrack]⟩) := by decide +kernel

theorem test_report_round_trip :
    receiveBytes (frameBytes 5 2 (.listed .passive) (.report okRecord)) = .checked ⟨5, 2,
      .listed .passive⟩ (.report okRecord) := by
  decide +kernel

/-- A hold state of 7 is in no table: the frame passes the five checks and carries the code (R7, log 25). -/
theorem test_unlisted_hold :
    receiveBytes ([2#8, 5#8, 0#8, 7#8, 2#8, 0#8, 1#8, 0#8] ++ le16 (crc [2#8, 5#8, 0#8, 7#8, 2#8, 0#8, 1#8, 0#8])) =
      .checked ⟨5, 0, .unlisted 7#8⟩ (.claim 1#16) := by decide +kernel

/-- A REQUEST of kind 9 passes the five checks and fits no row: DAMAGED_FRAME tells it (log 25). -/
theorem test_nameless_request :
    receiveBytes ([0x06#8, 0x05#8, 0x03#8, 0x01#8, 0x06#8, 0x00#8, 0x09#8, 0x01#8, 0x00#8, 0x00#8, 0x00#8, 0x07#8] ++
      le16 (crc [0x06#8, 0x05#8, 0x03#8, 0x01#8, 0x06#8, 0x00#8, 0x09#8, 0x01#8, 0x00#8, 0x00#8, 0x00#8, 0x07#8])) =
    .nameless okHeader ∧
    WellFormed (.damagedFrame ([0x06#8, 0x05#8, 0x03#8, 0x01#8, 0x06#8, 0x00#8, 0x09#8, 0x01#8, 0x00#8, 0x00#8, 0x00#8,
      0x07#8] ++ le16 (crc [0x06#8, 0x05#8, 0x03#8, 0x01#8, 0x06#8, 0x00#8, 0x09#8, 0x01#8, 0x00#8, 0x00#8, 0x00#8,
      0x07#8]))) = true := by decide +kernel

/-- Codes that no table lists, in a CLEAR, a VOICE, a REPLY and a record, are received as they were sent (log 25). -/
theorem test_unlisted_codes_round_trip :
    (([.clear ⟨9, 1, .unlisted 7#8⟩, .voice ⟨.unlisted 4#8, 9, 0, 1, 0#8, quietFrame⟩, .reply ⟨7, .unlisted 3#8 9#8,
      5, 0, 1⟩,
        .reply ⟨7, .refuse (.unlisted 12#8), 5, 0, 1⟩, .dial ⟨9, 1, .unlisted 11#8⟩, .halt ⟨okFixed, .unlisted 5#8⟩,
        .report { okRecord with state := .unlisted 3#8 }] : List Payload).all fun m =>
      frameOk okHeader m && decide (receiveBytes (frameBytes 5 3 (.listed .passive) m) = .checked okHeader m)) = true := by
  decide +kernel

/-- A code called unlisted that its table lists. -/
theorem test_ill_codes :
    (([.clear ⟨9, 1, .unlisted 6#8⟩, .voice ⟨.unlisted 3#8, 9, 0, 1, 0#8, quietFrame⟩, .reply ⟨7, .unlisted 2#8 9#8,
      5, 0, 1⟩,
        .reply ⟨7, .refuse (.unlisted 11#8), 5, 0, 1⟩, .dial ⟨9, 1, .unlisted 10#8⟩, .halt ⟨okFixed, .unlisted 4#8⟩,
        .halt ⟨{ okFixed with power := .unlisted 3#8 }, .listed .wireDead⟩,
        .report { okRecord with state := .unlisted 2#8 }] : List Payload).any fun m => frameOk okHeader m) = false ∧
      frameOk ⟨5, 3, .unlisted 6#8⟩ (.claim 1#16) = false := by decide +kernel

/-- No row gives bits. -/
theorem test_no_word_spells_a_command : decodeTableWord 8 0 = none := by decide

/-! ## States -/

def pins3 : Pins := { lowPins with straps := ⟨3, true⟩, mains := true, ready := true }

def present : Tick := 100000000#32

/-- The present time less `n` ticks. -/
def ago (n : Nat) : Tick := present - ticks n

/-- Station 3 on mains power: SEEKING, eligible, nothing else going on. -/
def base : State :=
  { State.atStart pins3 0 [] with
    phase := .running
    now := present
    interface := true
    power := ⟨.full, none, none, .live, none, .notSent, 0⟩
    hold := ⟨.seeking, [], [], 0x1000#16, none, true, none, none, none, none, none, none, false, 0⟩ }

def held (st : HoldState) (s : State) : State := s.modHold fun h => { h with state := st }

/-- The same station HOLDING, its modem SYNCED. -/
def holder : State :=
  { base with
    hold := { base.hold with state := .holding, known := some 3 }
    sup := { base.sup with state := .synced } }

/-- Mains absent and the battery in use, with the power conditions that follow. -/
def onBattery (s : State) : State :=
  { s with
    pins := { s.pins with mains := false }
    power := { s.power with state := .battery }
    hold := { s.hold with eligible := false }
    fault := { s.fault with conds := 0x0800#16 } }

/-- On battery and idle since 120 s (R168). -/
def idling : State := (onBattery base).modPower fun p => { p with idle := some (ago 4800000) }

def inWatch : State := (onBattery (held .listen base)).modPower fun p => { p with state := .watch, frontEnd := .down }

/-- HALTED, for a rank clash. -/
def haltedBase : State :=
  { base with
    hold := { base.hold with state := .halted, halt := some .rankClash, eligible := false }
    fault := { base.fault with lamp := .double } }

/-- The battery is low, with the condition that follows. -/
def lowBattery (s : State) : State :=
  { s with
    pins := { s.pins with battLow := true }
    fault := { s.fault with conds := s.fault.conds ||| 0x1000#16 } }

/-- The interval taps fall on the present station time and wait to be handed out. -/
def tapped (s : State) : State := s.modTaps fun _ => ⟨true, true, true⟩

def peerOf (id : Nat) (h : HoldState) (b : Option HolderBlock) : Peer :=
  ⟨id, .listed h, 0, ago 20000, some 7#16, some ⟨.listed .full, true, true, 1#2, 0#32⟩, b, none⟩

/-- Station 5 is in the roster, PASSIVE. -/
def known5 (s : State) : State := s.modHold fun h => { h with roster := [peerOf 5 .passive none] }

def frameStart : Tick := ago 10

/-- A frame whose start was heard is being received. -/
def hears (s : State) : State := s.modWire fun w => { w with rx := some ⟨frameStart, true⟩ }

/-- Station 2 is HOLDING with broadband up, and is the known holder. -/
def follows (s : State) : State :=
  s.modHold fun h =>
    { h with
      state := .passive, roster := [peerOf 2 .holding (some okBlock), peerOf 5 .passive none], known := some 2 }

/-- Station 2 is the known holder, its broadband down. -/
def followsDown (s : State) : State :=
  s.modHold fun h =>
    { h with
      state := .passive, roster := [peerOf 2 .holding (some { okBlock with broadband := false })], known := some 2 }

/-- A SEIZED call with the party 5/1; current flows in the loop. -/
def oneParty : CallRecord :=
  ⟨9, true, false, (5, 1), [⟨5, 1, 0#8, Playout.fresh, ago 40000⟩], none, none, [], .idle⟩

def inCall (r : CallRecord) (s : State) : State :=
  { s with call := { s.call with record := some r }, pins := { s.pins with loopCurrent := true } }

/-- One port in a given condition. -/
def port1 (f : Port → Port) (s : State) : State := s.modPort .one f

/-- Port 1 CONNECTED to 5/1 by binding 4. -/
def intercom (listAt : Nat) (s : State) : State :=
  port1 (fun p =>
    { p with
      state := .connected, offHook := true, callRef := some (.intercom 5 1 4 listAt), silence := some (ago 40000) }) s

/-- Port 1 CONNECTED to the outside call 9 of station 5. -/
def outsideOf5 (s : State) : State :=
  port1 (fun p =>
    { p with state := .connected, offHook := true, callRef := some (.outside 5 9), silence := some (ago 40000) }) s

def twoPorts (s : State) : State := { s with cfg := { s.cfg with portCount := 2 } }

def partyAt (st po : Nat) : Party := ⟨st, po, 0#8, Playout.fresh, ago 40000⟩

def fullCall : CallRecord := { oneParty with parties := [partyAt 5 1, partyAt 2 1, partyAt 2 2] }

/-- Port 2 fitted, in a given condition. -/
def port2 (f : Port → Port) (s : State) : State := (twoPorts s).modPort .two f

def entry (dst : Option Nat) (b : Body) : TxEntry := newEntry dst b (ago 300)

/-- A control frame in transmission at the head of its queue. -/
def sending (b : Body) (s : State) : State :=
  s.modWire fun w =>
    { w with control := [{ entry (some 0) b with inTx := true }], tx := some ⟨.control, [], some (ago 2)⟩ }

def lockedTrack (next : Tick) : Track := ⟨383978, next, 4, false, none, false, false⟩

/-- A slot A, with NOISE_TRACKED as it says. -/
def tracking (k : Track) (s : State) : State :=
  { s with
    noise := { s.noise with a := some k }
    fault := { s.fault with conds := if k.firm then s.fault.conds ||| 0x0040#16 else s.fault.conds } }

/-! ## The hypotheses of every statement are met (each clause, at the boundary of its range) -/

theorem test_hyps_EmptyQueueTicks :
    State.reset.pending = [] ∧ State.reset.phase ≠ .stopped ∧ State.reset.active = false ∧ base.active = true ∧
      base.phase ≠ .stopped ∧ (stopChip base).pending = [] ∧ (stopChip base).phase = .stopped := by
  and_intros <;> first | decide +kernel | (unfold Hearing; decide +kernel) | (unfold Awake; decide +kernel)

theorem test_hyps_EveryCommandAnswers :
    (∀ p, Instr.tap1s ≠ .powerUp p) ∧ (∀ p, Instr.tap1s ≠ .reset p) ∧
      (∀ r i, Instr.tap1s ≠ .configurationReadEnd r i) ∧ Instr.tap1s ≠ .lastGaspWindowEnd ∧
      (∀ p, Instr.tap1s ≠ .serviceResponseEnd p) := by
  and_intros <;> intros <;> simp

def inWindow (n : Nat) : State := base.modPower fun p => { p with state := .stop, window := some (ago n) }

theorem test_hyps_InactiveTakesNothing :
    State.reset.active = false ∧ (inWindow 0).active = false ∧ (stopChip base).active = false ∧
      frameHeader (.claim okHeader 1#16) = some okHeader ∧
      blockEvent (.tap10ms quietFrame quietFrame quietFrame) = true ∧ blockEvent (.onHook .one) = true ∧
      tellsInput (.hookFall .one) = true ∧ tellsInput (.batteryLowChange .emptyFell) = true := by
  and_intros <;> first | decide +kernel | (unfold Hearing; decide +kernel) | (unfold Awake; decide +kernel)

theorem test_hyps_FrameChecks :
    (word 7).length < 8 ∧ frameOk okHeader (.claim 1#16) = true ∧
      0#16 ≠ crc ((frameBytes 5 3 (.listed .passive) (.claim 1#16)).dropLast.dropLast) := by
  and_intros <;> first | decide +kernel | (unfold Hearing; decide +kernel) | (unfold Awake; decide +kernel)

theorem test_hyps_FrameRoundTrip :
    frameOk ⟨2, 0, .listed .holding⟩ (.beacon ⟨okFixed, some okBlock, [okTrack, okTrack]⟩) = true ∧
      frameOk okHeader (.beacon ⟨okFixed, none, []⟩) = true ∧ frameOk okHeader (.claim 0xFFFF#16) = true ∧
      frameOk okHeader (.yield ⟨0xFF#8, [okTrack]⟩) = true ∧
      frameOk okHeader (.lastgasp ⟨okRecord, true, 3#2, [okTrack]⟩) = true ∧
      frameOk okHeader (.halt ⟨okFixed, .listed .wireDead⟩) = true ∧
      frameOk okHeader (.request .offer okRequest) = true ∧
      frameOk okHeader (.reply ⟨255, .refuse .halted, 5, 2, 255⟩) = true ∧
      frameOk okHeader (.clear ⟨255, 2, .restart⟩) = true ∧ frameOk okHeader (.dial ⟨9, 1, .listed .flash⟩) = true ∧
      frameOk okHeader (.voice ⟨.toParty, 9, 0, 1, 255#8, quietFrame⟩) = true ∧
      frameOk okHeader (.report okRecord) = true ∧ frameOk okHeader (.receipt 7 255) = true ∧
      frameOk okHeader (.data (word 14)) = true ∧ frameOk okHeader (.data (word 1536)) = true := by
  and_intros <;> first | decide +kernel | (unfold Hearing; decide +kernel) | (unfold Awake; decide +kernel)

def anyTrig (m : BitVec 16) : TrigCfg := ⟨m, false, false, 3, true⟩

theorem test_hyps_ExpressionMeaning :
    (anyTrig 0#16).mask = 0 ∧ (anyTrig 0x6000#16).mask ≠ 0 ∧ (anyTrig 0x6000#16).all = false ∧
      { anyTrig 0x6000#16 with all := true }.mask ≠ 0 ∧ { anyTrig 0x6000#16 with all := true }.all = true := by
  and_intros <;> first | decide +kernel | (unfold Hearing; decide +kernel) | (unfold Awake; decide +kernel)

theorem test_hyps_MixIsExact :
    79 < 80 ∧ quietFrame.length = 80 ∧
      (([] ++ quietFrame :: [quietFrame, quietFrame]).all fun x => decide (x.length = 80)) = true := by
  and_intros <;> first | decide +kernel | (unfold Hearing; decide +kernel) | (unfold Awake; decide +kernel)

/-- A mailbox offer of the head of the queue, which holds one more record. -/
def offered (r : FaultRecord) : State :=
  { holder with
    sup := { holder.sup with mailbox := some ⟨r, ago 200000⟩ }
    report := ⟨none, [r, { okRecord with origin := 7 }]⟩ }

theorem test_hyps_StartsBegin :
    base.phase ≠ .stopped ∧ base.power.window = none ∧ base.sup.mailbox = none ∧ (offered okRecord).phase ≠ .stopped ∧
      (offered okRecord).power.window = none ∧ (offered okRecord).sup.mailbox.isSome = true ∧
      (stopChip base).phase = .stopped ∧ (inWindow 0).phase ≠ .stopped ∧
      (inWindow 0).power.window.isSome = true ∧ base.wire.tx = none ∧ (sending .beacon base).phase ≠ .stopped ∧
      (sending .beacon base).power.window = none ∧
      (sending .beacon base).wire.tx = some ⟨.control, [], some (ago 2)⟩ ∧
      ((sending .beacon base).wire.queue .control).find? (·.inTx) = some { entry (some 0) .beacon with inTx := true } := by
  and_intros <;> first | decide +kernel | (unfold Hearing; decide +kernel) | (unfold Awake; decide +kernel)

def goodBytes : List Byte := 1#8 :: (word 33 ++ [1#8, 0#8])

/-- A good record at the ends of its clamps: ports 1 and 2 each at class 3, seize level 2, join level 1, profile 4, interval
25, trigger 0 of two conditions with severity 0. -/
def clampBytes (count : Byte) : List Byte :=
  [1#8, count, 0xFE#8, 7#8, 3#8, 6#8, 5#8, 1#8, 4#8, 25#8, 3#8, 0x80#8, 0x13#8] ++ word 21 ++
    [0xC8#8 + count, 1#8]

/-- A start in progress with the levels given. -/
def starting (p : Pins) : State := State.atStart p 0 []

/-- A start-up whose wire still carries the frame that was in transmission at the RESET. -/
def outlived : State := after (.reset ⟨3, true⟩) (sending .beacon base)

theorem test_hyps_Starting_outlived :
    Starting outlived ∧ outlived.wire.tx = some ⟨.control, [], none⟩ ∧ outlived.straps.modem = true ∧
      outlived.pins.battEmpty = false ∧ outlived.pins.mains = true := by
  and_intros <;> decide +kernel

theorem test_hyps_ConfigurationReadListens :
    Starting (starting pins3) ∧ (readConfig .absent).2 = false ∧ (readConfig (.answered goodBytes)).2 = false ∧
      (starting pins3).straps.modem = true ∧ (starting pins3).pins.battEmpty = false ∧
      (starting pins3).pins.mains = true ∧ Starting (starting lowPins) ∧ (starting lowPins).straps.modem = false ∧
      (starting lowPins).pins.battLow = false ∧ configOk (.answered goodBytes) = true ∧ configOk .absent = true ∧
      (starting pins3).pins.carrier = false ∧ (starting pins3).wire.tx = none ∧ (starting pins3).wire.rx = none ∧
      Starting (starting { pins3 with carrier := true }) := by
  and_intros <;> first | decide +kernel | (unfold Hearing; decide +kernel) | (unfold Awake; decide +kernel)

theorem test_hyps_ConfigurationReadListens_record :
    GoodRecord goodBytes ∧ ¬ GoodRecord (word 36) ∧ ¬ GoodRecord (goodBytes.set 35 1#8) ∧ GoodRecord (clampBytes 1#8) ∧
      GoodRecord (clampBytes 2#8) ∧ GoodRecord (clampBytes 3#8) ∧ 36 ≤ (clampBytes 2#8).length := by
  unfold GoodRecord; and_intros <;> decide +kernel

theorem test_config_clamped :
    cfgRead (clampBytes 3#8) = ⟨2, 2#2, ⟨3#2, true⟩, ⟨3#2, false⟩, 2#2, 1#2, 0x0105#16, 3, 24,
      ⟨0x8003#16, true, true, 1, true⟩ :: List.replicate 7 ⟨0, false, false, 1, false⟩, true⟩ := by decide +kernel

theorem test_hyps_ConfigurationReadHaltsOrStops :
    Starting (starting pins3) ∧ (readConfig (.answered (word 36))).2 = true ∧
      (starting pins3).straps.modem = true ∧ (starting pins3).pins.mains = true ∧
      Starting (starting { pins3 with battEmpty := true }) ∧
      (starting { pins3 with battEmpty := true }).pins.battEmpty = true ∧
      Starting (starting { pins3 with battEmpty := true, carrier := true }) ∧
      (starting { pins3 with battEmpty := true }).wire.tx = none := by
  and_intros <;> first | decide +kernel | (unfold Hearing; decide +kernel) | (unfold Awake; decide +kernel)

/-- A degraded holder on battery, its record kept. -/
def degradedHolder : State := (inCall oneParty (onBattery holder)).modHold fun h => { h with degraded := true }

theorem test_hyps_MainsChanges :
    Calm base ∧ base.power.state = .full ∧ base.pins.battLow = false ∧ base.hold.eligible = true ∧
      base.hold.state = .seeking ∧ Calm (held .claiming base) ∧ (held .claiming base).hold.state = .claiming ∧
      Calm (inCall oneParty holder) ∧ (inCall oneParty holder).holding = true ∧
      (inCall oneParty holder).call.record.isSome = true ∧ Calm holder ∧ holder.call.record = none ∧
      holder.wire.control.length < 8 ∧ Calm idling ∧ idling.power.state = .battery ∧ Calm inWatch ∧
      inWatch.power.state = .watch ∧ Calm degradedHolder ∧ degradedHolder.power.state = .battery ∧
      degradedHolder.holding = true := by
  and_intros <;> first | decide +kernel | (unfold Hearing; decide +kernel) | (unfold Awake; decide +kernel)

theorem test_hyps_SleepEntered :
    Calm idling ∧ idling.power.idle = some (ago 4800000) ∧ 4800000 ≤ elapsed idling.now (ago 4800000) ∧
      Calm base ∧ base.power.idle = none ∧ Starting (starting { lowPins with battLow := true }) ∧
      (starting { lowPins with battLow := true }).pins = { lowPins with battLow := true } ∧
      lowPins.battEmpty = false ∧ lowPins.mains = false ∧ lowPins.hook1 = false ∧ lowPins.hook2 = false ∧
      Calm (lowBattery base) ∧ (lowBattery base).power.state = .full ∧ (lowBattery base).pins.battLow = true ∧
      (lowBattery base).power.frontEnd = .live ∧ portIdle (lowBattery base).ports.one = true ∧
      portIdle (lowBattery base).ports.two = true ∧ (lowBattery base).hold.state = .seeking ∧
      Calm (lowBattery (held .listen base)) ∧ Calm (lowBattery (follows base)) ∧
      (lowBattery (follows base)).hold.state = .passive ∧ Calm (lowBattery haltedBase) ∧
      (lowBattery haltedBase).hold.state = .halted ∧ Calm (lowBattery (sending .beacon base)) ∧
      (lowBattery (sending .beacon base)).wire.tx.isSome = true := by
  and_intros <;> first | decide +kernel | (unfold Hearing; decide +kernel) | (unfold Awake; decide +kernel)

theorem test_hyps_LastGaspWindow :
    Calm base ∧ base.power.state = .full ∧ base.halted = false ∧ base.power.frontEnd = .live ∧ Calm haltedBase ∧
      haltedBase.halted = true ∧ Calm inWatch ∧ inWatch.power.frontEnd ≠ .live ∧ (inWindow 800).phase = .running ∧
      (inWindow 800).power.window = some (ago 800) ∧ 800 ≤ elapsed (inWindow 800).now (ago 800) := by
  and_intros <;> first | decide +kernel | (unfold Hearing; decide +kernel) | (unfold Awake; decide +kernel)

/-- The rejoin wait is at its end. -/
def rejoining (s : State) : State :=
  { s with
    power := { s.power with rejoin := some (ago 1200000) }
    hold := { s.hold with eligible := false } }

/-- The front end settles since 50 ms. -/
def settling (carrier : Bool) (s : State) : State :=
  { s with
    power := { s.power with frontEnd := .settling (ago 2000) }
    pins := { s.pins with carrier := carrier } }

theorem test_hyps_PowerTimers :
    Calm (rejoining base) ∧ Awake (rejoining base) ∧ (rejoining base).power.rejoin = some (ago 1200000) ∧
      1200000 ≤ elapsed present (ago 1200000) ∧ (rejoining base).hold.state = .seeking ∧ Calm (rejoining holder) ∧
      (rejoining holder).holding = true ∧ Calm (settling true base) ∧ Awake (settling true base) ∧
      (settling true base).hold.known = none ∧ (settling true base).power.frontEnd = .settling (ago 2000) ∧
      2000 ≤ elapsed present (ago 2000) ∧ (settling true base).pins.carrier = true ∧
      (settling true base).halted = false ∧ Calm (settling false haltedBase) ∧
      (settling false haltedBase).halted = true ∧ (settling false haltedBase).wire.control.length < 8 ∧
      (settling true base).wire.tx = none ∧ Calm (settling true (sending .beacon base)) ∧
      (settling true (sending .beacon base)).wire.tx.isSome = true ∧
      (settling true (sending .beacon base)).hold.known = none ∧ Calm (settling false base) ∧
      (settling false base).pins.carrier = false ∧ (settling false base).wire.tx = none ∧
      (settling false base).wire.rx = none ∧ (settling false base).halted = false := by
  and_intros <;> first | decide +kernel | (unfold Hearing; decide +kernel) | (unfold Awake; decide +kernel)

/-- Port 1 is CONNECTED to the outside call 9 of station 2. -/
def talking (s : State) : State :=
  port1 (fun p =>
    { p with state := .connected, offHook := true, callRef := some (.outside 2 9), silence := some (ago 40000) }) s

/-- Port 2 CONNECTED to the outside call 9 of station 2. -/
def talking2 (s : State) : State :=
  port2 (fun p =>
    { p with state := .connected, offHook := true, callRef := some (.outside 2 9), silence := some (ago 40000) }) s

/-- The two ports of this station on one intercom call. -/
def household (s : State) : State :=
  port1 (fun p => { p with state := .connected, offHook := true, callRef := some (.intercom 3 2 4 3) })
    (port2 (fun p => { p with state := .connected, offHook := true, callRef := some (.intercom 3 1 4 3) }) s)

def twoParties : CallRecord := { oneParty with parties := [partyAt 5 1, partyAt 2 2] }

/-- The holder's own port 1 is the party of its call. -/
def ownCall : CallRecord := { oneParty with first := (3, 1), parties := [partyAt 3 1] }

def selfTalk : State :=
  port1 (fun p =>
    { p with state := .connected, offHook := true, callRef := some (.outside 3 9), silence := some (ago 40000) })
    (inCall ownCall holder)

theorem test_hyps_Tap10ms_ports :
    Calm base ∧ base.taps.ten = false ∧ Calm (tapped (talking (follows base))) ∧
      (tapped (talking (follows base))).taps.ten = true ∧
      (tapped (talking (follows base))).ports.one.callRef = some (.outside 2 9) ∧
      2 ≠ (tapped (talking (follows base))).own ∧ (tapped (talking (follows base))).fitted .one = true ∧
      (tapped (talking (follows base))).ports.two.callRef = none ∧
      (tapped (talking (follows base))).call.record = none ∧ (tapped (talking (follows base))).wire.voice = [] ∧
      (tapped (talking (follows base))).halted = false ∧ Calm (tapped (talking2 (follows base))) ∧
      (tapped (talking2 (follows base))).fitted .two = true ∧
      (tapped (talking2 (follows base))).ports.two.callRef = some (.outside 2 9) ∧
      (tapped (talking2 (follows base))).ports.one.callRef = none ∧ Calm (tapped (intercom 5 base)) ∧
      (tapped (intercom 5 base)).ports.one.callRef = some (.intercom 5 1 4 5) ∧ 5 ≠ (tapped (intercom 5 base)).own ∧
      (tapped (intercom 5 base)).ports.two.callRef = none ∧ Calm (tapped (household base)) ∧
      (tapped (household base)).fitted .two = true ∧
      (tapped (household base)).ports.one.callRef = some (.intercom (tapped (household base)).own 2 4 3) ∧
      (tapped (household base)).ports.two.callRef = some (.intercom (tapped (household base)).own 1 4 3) ∧
      (tapped (household base)).call.record = none := by
  and_intros <;> first | decide +kernel | (unfold Hearing; decide +kernel) | (unfold Awake; decide +kernel)

theorem test_hyps_Tap10ms_parties :
    Calm (tapped (inCall oneParty holder)) ∧ Calm (tapped (inCall twoParties holder)) ∧
      Calm (tapped (inCall fullCall holder)) ∧ (tapped (inCall fullCall holder)).call.record = some fullCall ∧
      fullCall.parties.length ≤ 3 ∧ fullCall.parties.all (fun p => decide (p.station ≠ holder.own)) = true ∧
      (tapped (inCall fullCall holder)).ports.one.callRef = none ∧
      (tapped (inCall fullCall holder)).ports.two.callRef = none ∧ (tapped (inCall fullCall holder)).wire.voice = [] ∧
      (tapped (inCall fullCall holder)).halted = false ∧ Calm (tapped selfTalk) ∧ (tapped selfTalk).fitted .one = true ∧
      (tapped selfTalk).call.record = some ownCall ∧ ownCall.parties = [partyAt 3 1] ∧ 3 = (tapped selfTalk).own ∧
      (tapped selfTalk).ports.one.state = .connected ∧
      (tapped selfTalk).ports.one.callRef = some (.outside 3 ownCall.id) ∧
      (tapped selfTalk).ports.two.callRef = none := by
  and_intros <;> first | decide +kernel | (unfold Hearing; decide +kernel) | (unfold Awake; decide +kernel)

/-- Station 5 has been missed three times. -/
def missed (s : State) : State := s.modHold fun h => { h with roster := [{ peerOf 5 .passive none with miss := 3 }] }

def heldFor (n : Nat) : State := holder.modSup fun u => { u with holdTime := n }

/-- A holder whose line test has come due. -/
def testDue : State := holder.modFault fun m => { m with due := some present }

/-- A due time kept in two parts (R149): its first part has passed. -/
def testRests : State := testDue.modFault fun m => { m with rest := 144000000 }

theorem test_hyps_SlowTaps :
    Calm base ∧ base.taps = ⟨false, false, false⟩ ∧ Calm (tapped (missed base)) ∧ Awake (tapped (missed base)) ∧
      (tapped (missed base)).taps = ⟨true, true, true⟩ ∧ (tapped (missed base)).halted = false ∧
      (missed base).power.frontEnd = .live ∧ (missed base).wire.control = [] ∧ Calm (tapped (heldFor 3599)) ∧
      (heldFor 3599).holding = true ∧ (heldFor 3599).sup.state = .synced ∧ (heldFor 3599).sup.holdTime + 1 = 3600 ∧
      Calm (tapped (heldFor 86399)) ∧ (heldFor 86399).sup.holdTime + 1 = 86400 ∧ Calm (tapped haltedBase) ∧
      Awake (tapped haltedBase) ∧ haltedBase.halted = true ∧ Calm (tapped testDue) ∧
      testDue.fault.due = some present ∧ 0 ≤ elapsed testDue.now present ∧ testDue.fault.rest = 0 ∧
      testDue.fault.test = none ∧ testDue.call.record = none ∧ testDue.fault.lastBurst = none ∧
      Calm (tapped testRests) ∧ testRests.fault.due = some present ∧ 0 < testRests.fault.rest := by
  and_intros <;> first | decide +kernel | (unfold Hearing; decide +kernel) | (unfold Awake; decide +kernel)

theorem test_hyps_WireEvents :
    Calm base ∧ base.power.frontEnd = .live ∧ base.wire.tx = none ∧ Calm inWatch ∧
      inWatch.power.frontEnd ≠ .live ∧ Calm (sending .beacon base) ∧ (sending .beacon base).wire.tx.isSome = true ∧
      Calm (hears base) ∧ Hearing (hears base) frameStart ∧ receiveBytes (word 8) = .damaged ∧
      (inWindow 0).phase = .running ∧ (inWindow 799).power.window.isSome = true ∧
      (inWindow 799).power.frontEnd = .live ∧ (inWindow 799).wire.tx = none ∧ (sending .beacon (inWindow 0)).wire.tx.isSome = true ∧
      (sending .beacon (inWindow 0)).power.window.isSome = true ∧ (inWindow 0).active = false ∧ State.reset.phase ≠ .running := by
  and_intros <;> first | decide +kernel | (unfold Hearing; decide +kernel) | (unfold Awake; decide +kernel)

theorem test_hyps_HeardFrameUpdatesRoster :
    Calm (hears base) ∧ Awake (hears base) ∧ Hearing (hears base) frameStart ∧
      frameHeader (.claim okHeader 1#16) = some okHeader ∧ okHeader.src ≠ (hears base).own ∧
      Calm (hears (known5 base)) ∧ Familiar (hears (known5 base)) ⟨5, 2, .listed .passive⟩ ∧
      frameHeader (.lastgasp ⟨5, 2, .listed .passive⟩ ⟨okRecord, false, 0#2, []⟩) = some ⟨5, 2, .listed .passive⟩ ∧
      heardHold (.lastgasp ⟨5, 2, .listed .passive⟩ ⟨okRecord, false, 0#2, []⟩) (.listed .passive) = .listed .passive ∧
      2 ≠ 0 ∧ 2 ≠ (hears (known5 base)).own ∧ Calm (hears (known5 (outsideOf5 base))) ∧
      Familiar (hears (known5 (outsideOf5 base))) ⟨5, 2, .listed .passive⟩ ∧
      (outsideOf5 base).ports.one.callRef = some (.outside 5 9) ∧ (outsideOf5 base).ports.one.silence.isSome = true ∧
      Calm (hears (known5 (talking base))) ∧ (talking base).ports.one.callRef = some (.outside 2 9) := by
  and_intros <;> first | decide +kernel | (unfold Hearing; decide +kernel) | (unfold Awake; decide +kernel)

theorem test_hyps_OwnIdFrameIsRankClash :
    Calm (hears base) ∧ Hearing (hears base) frameStart ∧ (⟨3, 0, .listed .seeking⟩ : Header).src = (hears base).own ∧
      frameTie (.seize ⟨3, 0, .listed .seeking⟩ okRequest) = none ∧
      frameTie (.claim ⟨3, 0, .listed .seeking⟩ 1#16) = some 1#16 ∧
      (hears base).halted = false ∧ (hears base).hold.tiebreak.toNat < (0x1001#16).toNat ∧
      (0x0FFF#16).toNat < (hears base).hold.tiebreak.toNat ∧ (hears base).hold.tiebreak = 0x1000#16 ∧
      Calm (hears haltedBase) ∧ (hears haltedBase).halted = true := by
  and_intros <;> first | decide +kernel | (unfold Hearing; decide +kernel) | (unfold Awake; decide +kernel)

theorem test_hyps_ContentsWrittenToRoster :
    Calm (hears base) ∧ Awake (hears base) ∧ Hearing (hears base) frameStart ∧ ForUs (hears base) okHeader ∧
      ForUs (hears base) ⟨8, 0, .listed .holding⟩ := by
  and_intros <;> first | decide +kernel | (unfold Hearing; decide +kernel) | (unfold Awake; decide +kernel)

/-- PASSIVE and following the claim of station 4. -/
def followsClaim (s : State) : State :=
  s.modHold fun h => { h with state := .passive, follow := some ⟨4, ago 80000⟩ }

theorem test_hyps_ClaimJudgedByHoldState :
    Calm (hears base) ∧ Awake (hears base) ∧ Hearing (hears base) frameStart ∧ (hears base).hold.known = none ∧
      ForUs (hears base) ⟨2, 0, .listed .claiming⟩ ∧ ForUs (hears base) ⟨5, 0, .listed .claiming⟩ ∧
      (Coded.listed HoldState.claiming) ≠ .listed .holding ∧
      Calm (hears (held .listen base)) ∧ Calm (hears (held .claiming base)) ∧
      Hearing (hears (held .claiming base)) frameStart ∧ 2 < (hears (held .claiming base)).own ∧
      (hears (held .claiming base)).own < 5 ∧ Calm (hears (followsClaim base)) ∧
      (hears (followsClaim base)).hold.follow = some ⟨4, ago 80000⟩ ∧ (hears (followsClaim base)).hold.known = none ∧
      Calm (hears (held .yielding base)) ∧ (hears (held .yielding base)).hold.known = none ∧ Calm (hears haltedBase) ∧
      Hearing (hears haltedBase) frameStart ∧ (hears haltedBase).hold.known = none := by
  and_intros <;> first | decide +kernel | (unfold Hearing; decide +kernel) | (unfold Awake; decide +kernel)

theorem test_recordOk (r : CallRecord) (h : 1 ≤ r.parties.length ∧ r.parties.length ≤ 3) :
    RecordOk (inCall r holder) ∧ RecordOk holder := by
  constructor
  · refine ⟨fun h => (by cases h), fun q hq => ?_⟩
    have : some r = some q := hq
    cases this
    exact ⟨rfl, h⟩
  · exact ⟨fun h => (by cases h), fun q hq => (by cases hq)⟩

theorem test_hyps_KeeperRule :
    ((2, false) ∈ [(2, false), (3, true)]) ∧ Calm (hears holder) ∧ Hearing (hears holder) frameStart ∧
      ForUs (hears holder) ⟨2, 0, .listed .holding⟩ ∧ ForUs (hears holder) ⟨5, 0, .listed .holding⟩ ∧
      (hears holder).holding = true ∧
      RecordOk (hears holder) ∧ (hears holder).wire.control = [] ∧ (hears holder).call.record = none ∧
      okBlock.call = (hears holder).call.record.isSome ∧ 2 < (hears holder).own ∧ Calm (hears (inCall oneParty holder)) ∧
      RecordOk (hears (inCall oneParty holder)) ∧ (hears (inCall oneParty holder)).call.record = some oneParty := by
  refine ⟨by decide, ?_⟩
  have h1 : RecordOk (hears holder) := (test_recordOk oneParty (by decide)).2
  have h2 : RecordOk (hears (inCall oneParty holder)) := (test_recordOk oneParty (by decide)).1
  refine ⟨?_, ?_, ?_, ?_, ?_, h1, ?_, ?_, ?_, ?_, ?_, h2, ?_⟩ <;> and_intros <;>
    first | decide +kernel | (unfold Hearing; decide +kernel)

/-- A slot A of the given confidence whose arrival is `n` ticks ahead. -/
def slotAt (n conf : Nat) (lender : Option Lender) : Track := ⟨320000, present + ticks n, conf, false, lender, false,
  false⟩

/-- A track that station 5 announces with its frame: arrival `offset` after the frame start. -/
def announces (period conf offset : Nat) : TrackMsg :=
  ⟨BitVec.ofNat 32 period, BitVec.ofNat 8 conf, BitVec.ofNat 24 offset⟩

theorem test_hyps_TracksHandedOver :
    Calm (hears base) ∧ Awake (hears base) ∧ Hearing (hears base) frameStart ∧ ForUs (hears base) okHeader ∧
      Calm (hears holder) ∧ ForUs (hears holder) okHeader ∧ (hears holder).holding = true ∧
      { okRecord with trigger := 8 }.origin = okHeader.src ∧ (⟨okRecord, false, 0#2, [okTrack]⟩ : GaspMsg).held = false ∧
      (hears holder).report.queue.length < 24 ∧ (3#8 : Byte).toNat < 4 ∧ 4 ≤ (4#8 : Byte).toNat ∧
      (hears base).noise.a = none ∧ (hears base).noise.b = none ∧
      160000 ≤ (announces 160000 4 20040).period.toNat ∧ (announces 640000 15 80040).period.toNat ≤ 640000 ∧
      4 ≤ (announces 160000 4 20040).conf.toNat ∧ (announces 640000 15 80040).conf.toNat ≤ 15 ∧
      (announces 160000 4 20040).offset.toNat ≤ rounded 160000 + 40 ∧
      elapsed (hears base).now (frameStart + (announces 160000 4 20040).offset.setWidth 32) ≤ 40 ∧
      Calm (hears (tracking (slotAt 20000 3 none) base)) ∧ Awake (hears (tracking (slotAt 20000 3 none) base)) ∧
      announcedOk (announces 320000 9 20010) = true ∧
      -40 ≤ elapsed (frameStart + (announces 320000 9 19970).offset.setWidth 32) (present + ticks 20000) ∧
      elapsed (frameStart + (announces 320000 9 20050).offset.setWidth 32) (present + ticks 20000) ≤ 40 ∧
      Calm (hears (tracking (slotAt 20000 4 none) base)) ∧
      Calm (hears (tracking (slotAt 20000 4 (some ⟨4, ago 9000⟩)) base)) ∧
      Calm (hears (tracking (slotAt 20000 4 (some ⟨5, ago 9000⟩)) base)) := by
  and_intros <;> first | decide +kernel | (unfold Hearing; decide +kernel) | (unfold Awake; decide +kernel)

/-- A holder whose gate refuses class 1 and above. -/
def gated (s : State) : State := { s with cfg := { s.cfg with seizeLevel := 0, joinLevel := 0 } }

def deadLine (s : State) : State := s.modFault fun m => { m with conds := m.conds ||| 1#16 }

def ringingLine (s : State) : State := s.modPorts fun ps => { ps with ringing := some (ago 240000) }

/-- A YIELDING station, whose YIELD waits in the control queue. -/
def yields (s : State) : State := (held .yielding s).modWire fun w => { w with control := [entry (some 0) .yield] }

/-- A YIELDING station hears a SEIZE while its YIELD waits, and answers HANDOVER behind it (R11, R112). -/
theorem test_hyps_SeizeWithoutRecord_yield :
    Calm (hears (known5 (yields base))) ∧ Hearing (hears (known5 (yields base))) frameStart ∧
      ForUs (hears (known5 (yields base))) okHeader ∧ Familiar (hears (known5 (yields base))) okHeader ∧
      RosterOk (hears (known5 (yields base))) ∧ (hears (known5 (yields base))).hold.state = .yielding ∧
      (after (.seize okHeader okRequest) (hears (known5 (yields base)))).wire.control.map (·.body) =
        [.yield, .reply ⟨7, .refuse .handover, 3, 0, 0⟩] := by
  and_intros <;> first | decide +kernel | (unfold Hearing; decide +kernel) | (unfold Awake; decide +kernel)

theorem test_hyps_SeizeWithoutRecord :
    Calm (hears (known5 base)) ∧ Hearing (hears (known5 base)) frameStart ∧ ForUs (hears (known5 base)) okHeader ∧
      Familiar (hears (known5 base)) okHeader ∧ (hears (known5 base)).wire.control = [] ∧
      RosterOk (hears (known5 base)) ∧ RosterOk (hears (follows base)) ∧ RosterOk (hears (known5 holder)) ∧
      (hears (known5 base)).hold.state = .seeking ∧ Calm (hears (known5 (held .listen base))) ∧
      Calm (hears (known5 (held .claiming base))) ∧ Calm (hears (follows base)) ∧
      Familiar (hears (follows base)) okHeader ∧ (hears (follows base)).hold.state = .passive ∧
      Calm (hears (known5 (held .yielding base))) ∧ Calm (hears (known5 haltedBase)) ∧
      Calm (hears (known5 holder)) ∧ Familiar (hears (known5 holder)) okHeader ∧
      (hears (known5 holder)).holding = true ∧ (hears (known5 holder)).call.record = none ∧ okRequest.port = 1 ∧
      max okRequest.cls ((hears (known5 holder)).classOf 5) ≤ (hears (known5 holder)).cfg.seizeLevel.toNat ∧
      (hears (known5 holder)).cond .lineDead = false ∧ Calm (hears (known5 (ringingLine (gated holder)))) ∧
      (hears (known5 (ringingLine (gated holder)))).ports.ringing.isSome = true ∧
      Calm (hears (known5 (gated holder))) ∧
      (hears (known5 (gated holder))).cfg.seizeLevel.toNat <
        max okRequest.cls ((hears (known5 (gated holder))).classOf 5) ∧
      Calm (hears (known5 (deadLine holder))) ∧ (hears (known5 (deadLine holder))).cond .lineDead = true := by
  and_intros <;> first | decide +kernel | (unfold Hearing; decide +kernel) | (unfold Awake; decide +kernel)

/-- A requester without a roster entry, and port numbers that no requester, or not this station, has. -/
theorem test_hyps_SeizeWithoutRecord_noPort :
    { okRequest with port := 3 }.port ≠ 1 ∧ { okRequest with port := 3 }.port ≠ 2 ∧
      { okRequest with port := 0 }.port ≠ 1 ∧ { okRequest with port := 0 }.port ≠ 2 ∧ 5 ≠ holder.own ∧
      holder.peer 5 = none ∧ holder.own = 3 ∧ holder.cfg.portCount ≠ 2 ∧ (known5 holder).peer 5 ≠ none := by
  and_intros <;> first | decide +kernel | (unfold Hearing; decide +kernel) | (unfold Awake; decide +kernel)

/-- The holder's call with 5/1, seen by a frame of station 5. -/
def joined (r : CallRecord) (s : State) : State := hears (known5 (inCall r s))

theorem test_hyps_SeizeJoinsRecord :
    Calm (joined oneParty holder) ∧ Hearing (joined oneParty holder) frameStart ∧
      ForUs (joined oneParty holder) okHeader ∧ Familiar (joined oneParty holder) okHeader ∧
      (joined oneParty holder).holding = true ∧ (joined oneParty holder).wire.control = [] ∧
      RosterOk (joined oneParty holder) ∧ RosterOk (joined fullCall holder) ∧ RosterOk (hears (known5 degradedHolder)) ∧
      oneParty.has 5 1 = true ∧ oneParty.has 5 2 = false ∧ Calm (hears (known5 degradedHolder)) ∧
      (hears (known5 degradedHolder)).hold.degraded = true ∧ Calm (joined { oneParty with priv := true } holder) ∧
      Calm (joined oneParty (gated holder)) ∧ Calm (joined fullCall holder) ∧ 3 ≤ fullCall.parties.length ∧
      fullCall.has 5 2 = false := by
  and_intros <;> first | decide +kernel | (unfold Hearing; decide +kernel) | (unfold Awake; decide +kernel)

/-- Port 1 OFFERING to 5/1, with the reference that the GRANT gave. -/
def offers (ref : Option Nat) (req : Option OutReq) (s : State) : State :=
  port1 (fun p =>
    { p with
      state := .offering, offHook := true, pending := some (.offered 5 1 ref), outReq := req
      ringBack := ref.map fun _ => ago 1200000 }) s

def ringsFor (why : Pending) (s : State) : State :=
  port1 (fun p =>
    { p with
      state := .ringing, pending := some why, ringOn := true, ringAt := ago 40000, offerAt := some (ago 1200000) }) s

def bound (connected : Bool) (s : State) : State :=
  s.modCall fun c => { c with bindings := [⟨4, 5, 1, some 7, [.one], connected⟩] }

def endMsg : RequestMsg := { okRequest with target := 1, ref := 4 }

def takersOf (s : State) : List PortNo :=
  s.fittedPorts.filter fun n => decide ((s.port n).state = .idle) && !faultLevel s.pins n

/-- An OFFER for every port: none takes it, port 1 takes it, port 2 alone takes it while port 1 hears the sender; and an
OFFER for a port that no station has. -/
theorem test_hyps_IntercomFrames_offer :
    Calm (hears (known5 (talking base))) ∧ takersOf (hears (known5 (talking base))) = [] ∧ Calm (hears (known5 base)) ∧
      takersOf (hears (known5 base)) = [.one] ∧ Calm (hears (known5 (twoPorts (outsideOf5 base)))) ∧
      takersOf (hears (known5 (twoPorts (outsideOf5 base)))) = [.two] ∧
      (hears (known5 (twoPorts (outsideOf5 base)))).ports.one.callRef = some (.outside 5 9) ∧
      PortsOk (hears (known5 (talking base))) ∧ PortsOk (hears (known5 base)) ∧
      PortsOk (hears (known5 (twoPorts (outsideOf5 base)))) ∧
      { okRequest with target := 0 }.target = 0 ∧ 3 ≤ { okRequest with target := 255 }.target ∧
      okRequest.target ≠ 1 := by
  and_intros <;> first | decide +kernel | (unfold Hearing; decide +kernel) | (unfold Awake; decide +kernel)

theorem test_hyps_IntercomFrames :
    Calm (hears (known5 base)) ∧ Hearing (hears (known5 base)) frameStart ∧ ForUs (hears (known5 base)) okHeader ∧
      Familiar (hears (known5 base)) okHeader ∧ (hears (known5 base)).halted = false ∧
      (hears (known5 base)).wire.control = [] ∧ (hears (known5 base)).fitted .two = false ∧ portNo .two = 2 ∧
      ((hears (known5 base)).port .one).state = .idle ∧ faultLevel (hears (known5 base)).pins .one = false ∧
      Calm (hears (known5 (talking base))) ∧ ((hears (known5 (talking base))).port .one).state ≠ .idle ∧
      Calm (hears (known5 (offers (some 4) none base))) ∧
      ((hears (known5 (offers (some 4) none base))).port .one).state = .offering ∧
      ((hears (known5 (offers (some 4) none base))).port .one).pending = some (.offered 5 1 (some 4)) ∧
      Calm (hears (known5 (bound true (intercom 3 base)))) ∧
      (hears (known5 (bound true (intercom 3 base)))).call.bindings = [⟨4, 5, 1, some 7, [.one], true⟩] ∧
      Calm (hears (known5 (bound false (ringsFor (.offerFrom 5 1 4) base)))) ∧
      PortsOk (hears (known5 (bound false (ringsFor (.offerFrom 5 1 4) base)))) ∧
      PortsOk (hears (known5 (bound true (intercom 3 base)))) ∧ PortsOk (hears (known5 (intercom 5 base))) ∧
      PortsOk (hears (known5 (offers (some 4) none base))) ∧ endMsg.ref ≠ 0 ∧ Calm (hears (known5 (intercom 5 base))) ∧
      (hears (known5 (intercom 5 base))).call.bindings = [] ∧ endMsg.target = portNo .one ∧
      ((hears (known5 (intercom 5 base))).port .one).callRef = some (.intercom 5 1 endMsg.ref 5) := by
  and_intros <;> first | decide +kernel | (unfold Hearing; decide +kernel) | (unfold Awake; decide +kernel)

def reqTo (k : RequestKind) : OutReq := ⟨k, 7, 5, 1, ago 20000, false⟩

/-- An ACCEPT before the GRANT, at a port that offers another binding, at one whose OFFER is held or that offers to another
station, and for a port that no station has; an END by tag, at an OFFERING port, and one that fits nothing. -/
theorem test_hyps_IntercomFrames_accept :
    Calm (hears (known5 (offers none (some (reqTo .offer)) base))) ∧
      PortsOk (hears (known5 (offers none (some (reqTo .offer)) base))) ∧
      ((hears (known5 (offers none (some (reqTo .offer)) base))).port .one).pending = some (.offered 5 1 none) ∧
      ((hears (known5 (offers none (some (reqTo .offer)) base))).port .one).outReq = some (reqTo .offer) ∧
      (reqTo .offer).held = false ∧ (hears (known5 (offers (some 4) none base))).wire.control = [] ∧
      ((hears (known5 (offers (some 4) none base))).port .one).pending = some (.offered 5 1 (some 4)) ∧ 4 ≠ okRequest.ref ∧
      Calm (hears (known5 (offers none (some { reqTo .offer with held := true }) base))) ∧
      PortsOk (hears (known5 (offers none (some { reqTo .offer with held := true }) base))) ∧
      { reqTo .offer with held := true }.held = true ∧ ForUs (hears (known5 (offers (some 4) none base))) ⟨7, 3,
        .listed .passive⟩ ∧ 5 ≠ (⟨7, 3, .listed .passive⟩ : Header).src ∧ okRequest.target = 0 ∧
      { endMsg with ref := 0 }.ref = 0 ∧ (⟨4, 5, 1, some 7, [.one], true⟩ : Binding).tag = some endMsg.tag ∧
      (hears (known5 (offers (some 4) none base))).call.bindings = [] ∧ endMsg.ref = 4 ∧
      ((hears (known5 base)).port .one).state ≠ .offering ∧ ((hears (known5 base)).port .one).state ≠ .connected ∧
      PortsOk (hears (known5 base)) := by
  and_intros <;> first | decide +kernel | (unfold Hearing; decide +kernel) | (unfold Awake; decide +kernel)

/-- An ACCEPT for a port that no station has, where the ports are as they may be; an entry found among the bindings. -/
theorem test_hyps_IntercomFrames_end :
    PortsOk (hears (known5 base)) ∧ (hears (known5 (bound true (intercom 3 base)))).call.bindings.find? (fun b =>
        decide (b.station = okHeader.src ∧ b.port = endMsg.port ∧
          (if endMsg.ref = 0 then b.tag = some endMsg.tag else b.ref = endMsg.ref))) =
      some ⟨4, 5, 1, some 7, [.one], true⟩ := by
  and_intros <;> first | decide +kernel | (unfold Hearing; decide +kernel) | (unfold Awake; decide +kernel)

/-- Port 1 WAITING for the answer to its SEIZE. -/
def waits (s : State) : State :=
  port1 (fun p => { p with state := .waiting, offHook := true, outReq := some (reqTo .seize) }) s

/-- Both ports WAITING, each for an answer of its own. -/
def bothWait (s : State) : State :=
  waits (port2 (fun p =>
    { p with state := .waiting, offHook := true, outReq := some ⟨.seize, 8, 5, 0, ago 20000, false⟩ }) s)

theorem test_hyps_ReplyAndClear_two :
    Calm (hears (known5 (bothWait base))) ∧ Hearing (hears (known5 (bothWait base))) frameStart ∧
      (hears (known5 (bothWait base))).ports.two.outReq = some ⟨.seize, 8, 5, 0, ago 20000, false⟩ ∧
      (hears (known5 (bothWait base))).ports.one.outReq = some (reqTo .seize) ∧ (reqTo .seize).tag ≠ 8 ∧
      (⟨8, .unlisted 3#8 0#8, 5, 0, 0⟩ : ReplyMsg).answer = .unlisted 3#8 0#8 ∧
      (hears (known5 (waits base))).ports.two.outReq = none := by
  and_intros <;> first | decide +kernel | (unfold Hearing; decide +kernel) | (unfold Awake; decide +kernel)

theorem test_hyps_ReplyAndClear :
    Calm (hears (known5 (waits base))) ∧ Hearing (hears (known5 (waits base))) frameStart ∧
      ForUs (hears (known5 (waits base))) okHeader ∧ Familiar (hears (known5 (waits base))) okHeader ∧
      (hears (known5 (waits base))).ports.one.outReq = some (reqTo .seize) ∧ (reqTo .seize).held = false ∧
      (reqTo .seize).kind ≠ .offer ∧ Calm (hears (known5 (offers none (some (reqTo .offer)) base))) ∧
      (hears (known5 (offers none (some (reqTo .offer)) base))).ports.one.outReq = some (reqTo .offer) ∧
      (hears (known5 (offers none (some (reqTo .offer)) base))).ports.one.pending = some (.offered 5 1 none) ∧
      Calm (hears (known5 (outsideOf5 base))) ∧
      ((hears (known5 (outsideOf5 base))).port .one).callRef = some (.outside 5 9) ∧ portNo .one = 1 := by
  and_intros <;> first | decide +kernel | (unfold Hearing; decide +kernel) | (unfold Awake; decide +kernel)

def dialled (n : Nat) (o : Outpulse) : CallRecord :=
  { oneParty with queue := List.replicate n (.digit 5), outpulse := o }

def stale (n : Nat) (s : State) : State := s.modCall fun c => { c with stale := some ⟨5, 1, 9, ago n⟩ }

theorem test_hyps_DialAndStaleFrames :
    Calm (joined oneParty holder) ∧ Hearing (joined oneParty holder) frameStart ∧
      ForUs (joined oneParty holder) okHeader ∧ Familiar (joined oneParty holder) okHeader ∧
      (joined oneParty holder).call.record = some oneParty ∧ oneParty.has 5 1 = true ∧ oneParty.seized = true ∧
      oneParty.outpulse = .idle ∧ Calm (joined (dialled 31 (.pausing (ago 9))) holder) ∧
      (dialled 31 (.pausing (ago 9))).queue.length < 32 ∧ Calm (joined (dialled 32 (.pausing (ago 9))) holder) ∧
      Calm (hears (known5 base)) ∧ (hears (known5 base)).halted = false ∧ (hears (known5 base)).wire.control = [] ∧
      recordFor 5 1 9 (hears (known5 base)) = false ∧ (hears (known5 base)).call.stale = none ∧
      recordFor 5 2 9 (joined oneParty holder) = false ∧ Calm (hears (known5 (stale 40000 base))) ∧
      0 ≤ elapsed present (ago 40000) ∧ elapsed present (ago 40000) ≤ 40000 ∧
      Calm (hears (known5 (stale 40001 base))) ∧ 40000 < elapsed present (ago 40001) := by
  and_intros <;> first | decide +kernel | (unfold Hearing; decide +kernel) | (unfold Awake; decide +kernel)

/-- A stale DIAL at a YIELDING station whose YIELD waits (R121, R131). -/
theorem test_hyps_DialAndStaleFrames_yield :
    Calm (hears (known5 (yields base))) ∧ (hears (known5 (yields base))).halted = false ∧
      recordFor 5 1 9 (hears (known5 (yields base))) = false ∧ (hears (known5 (yields base))).call.stale = none ∧
      (after (.dial okHeader ⟨9, 1, .listed .flash⟩) (hears (known5 (yields base)))).wire.control.map (·.body) =
        [.yield, .clear ⟨9, 1, .restart⟩] := by
  and_intros <;> first | decide +kernel | (unfold Hearing; decide +kernel) | (unfold Awake; decide +kernel)

def buffered (last : Option Byte) (conceal : Nat) : Playout := ⟨[(7#8, quietFrame)], last, quietFrame, conceal⟩

/-- A buffer of three frames; the last one played is 5. -/
def fullBuffer : Playout := ⟨[(6#8, quietFrame), (8#8, quietFrame), (9#8, quietFrame)], some 5#8, quietFrame, 0⟩

theorem test_hyps_Playout_insert :
    (buffered (some 6#8) 0).last = some 6#8 ∧ (6#8 - 6#8 : Byte).toInt ≤ 0 ∧
      (buffered none 0).frames.any (fun f => f.1 == 7#8) = true ∧ (buffered (some 5#8) 0).last = some 5#8 ∧
      0 < (6#8 - 5#8 : Byte).toInt ∧ (buffered (some 5#8) 0).frames.all (fun f => f.1 != 6#8) = true ∧
      (buffered (some 5#8) 0).frames.length < 3 ∧ fullBuffer.last = some 5#8 ∧ 0 < (7#8 - 5#8 : Byte).toInt ∧
      fullBuffer.frames.all (fun f => f.1 != 7#8) = true ∧ fullBuffer.frames.length = 3 := by
  and_intros <;> first | decide +kernel | (unfold Hearing; decide +kernel) | (unfold Awake; decide +kernel)

/-- Streams from another station than the call's, of a code no table lists, and for a port without a call. -/
theorem test_hyps_Voice_ports :
    Calm (hears (known5 (talking base))) ∧ Familiar (hears (known5 (talking base))) okHeader ∧
      (hears (known5 (talking base))).ports.one.callRef = some (.outside 2 9) ∧ 2 ≠ okHeader.src ∧
      StreamType.unlisted 4#8 ≠ .toHolder ∧ Calm (hears (known5 base)) ∧
      (hears (known5 base)).ports.one.callRef = none := by
  and_intros <;> first | decide +kernel | (unfold Hearing; decide +kernel) | (unfold Awake; decide +kernel)

theorem test_hyps_VoiceEntersPlayout :
    Playout.fresh.last = none ∧ Playout.fresh.frames = [] ∧ (buffered none 0).last = none ∧
      (buffered none 0).frames = [(7#8, quietFrame)] ∧ (buffered (some 6#8) 0).last = some 6#8 ∧
      (buffered (some 6#8) 0).frames.find? (fun f => f.1 == 6#8 + 1) = some (7#8, quietFrame) ∧
      (buffered (some 5#8) 0).frames.find? (fun f => f.1 == 5#8 + 1) = none ∧ (buffered (some 5#8) 0).conceal = 0 ∧
      (buffered (some 5#8) 1).conceal = 1 ∧ Calm (joined oneParty holder) ∧
      Familiar (joined oneParty holder) okHeader ∧ (joined oneParty holder).call.record = some oneParty ∧
      oneParty.has 5 1 = true ∧ Calm (hears (known5 (outsideOf5 base))) ∧
      ((hears (known5 (outsideOf5 base))).port .one).callRef = some (.outside 5 9) ∧
      Calm (hears (known5 (intercom 5 base))) ∧
      ((hears (known5 (intercom 5 base))).port .one).callRef = some (.intercom 5 1 4 5) := by
  and_intros <;> first | decide +kernel | (unfold Hearing; decide +kernel) | (unfold Awake; decide +kernel)

/-- The holder's report queue with `n` entries of station 5. -/
def queued (n : Nat) : State :=
  (holder.modReport fun p =>
    { p with queue := (List.range n).map fun i => { okRecord with origin := 10 + i } }).modSup fun u =>
    { u with mailbox := some ⟨okRecord, ago 200000⟩ }

/-- A record of this station, SENT, and its outstanding report. -/
def ownSent : FaultRecord := { okRecord with origin := 3, severity := 3 }

def reporting (s : State) : State :=
  { s with
    fault := { s.fault with list := [ownSent], lamp := .slow }
    report := { s.report with outstanding := some ⟨6, 1, 2, ago 1200000⟩ } }

theorem test_hyps_ReportFrames :
    Calm (hears (known5 (queued 23))) ∧ Hearing (hears (known5 (queued 23))) frameStart ∧
      ForUs (hears (known5 (queued 23))) okHeader ∧ Familiar (hears (known5 (queued 23))) okHeader ∧
      (hears (known5 (queued 23))).holding = true ∧ okRecord.origin = okHeader.src ∧ okRecord.trigger < 8 ∧
      okRecord.count ≠ 0 ∧ (hears (known5 (queued 23))).report.queue.length < 24 ∧ Calm (hears (known5 (queued 24))) ∧
      (hears (known5 (queued 24))).report.queue.length = 24 ∧ Calm (hears (known5 base)) ∧
      (hears (known5 base)).holding = false ∧ Calm (hears (known5 (reporting base))) ∧
      (hears (known5 (reporting base))).fault.list = [ownSent] ∧ ownSent.trigger = 6 ∧ ownSent.state = .sent ∧
      ownSent.count = 1 ∧ (hears (known5 (reporting base))).report.outstanding = some ⟨6, 1, 2, ago 1200000⟩ ∧
      Calm (reporting base) ∧ 1200000 ≤ elapsed (reporting base).now (ago 1200000) ∧
      (reporting base).hold.known = none ∧ (reporting base).holding = false := by
  and_intros <;> first | decide +kernel | (unfold Hearing; decide +kernel) | (unfold Awake; decide +kernel)

/-- A HOLDING station's record judged by a RECEIPT or by the receipt timer: its entry is in the queue, or there is room
for one, or there is none. -/
theorem test_hyps_ReportFrames_holding :
    Calm (hears (known5 (reporting (queued 23)))) ∧ (hears (known5 (reporting (queued 23)))).holding = true ∧
      (hears (known5 (reporting (queued 23)))).fault.list = [ownSent] ∧
      (hears (known5 (reporting (queued 23)))).report.queue.length = 23 ∧
      (hears (known5 (reporting (queued 23)))).report.outstanding = some ⟨6, 1, 2, ago 1200000⟩ ∧
      Hearing (hears (known5 (reporting (queued 23)))) frameStart ∧
      Familiar (hears (known5 (reporting (queued 23)))) okHeader ∧ Calm (hears (known5 (reporting (queued 24)))) ∧
      Calm (hears (known5 (reporting (offered ownSent)))) ∧
      (hears (known5 (reporting (offered ownSent)))).report.queue.any
        (fun e => decide (e.origin = ownSent.origin) && decide (e.trigger = ownSent.trigger)) = true ∧
      (hears (known5 base)).fault.list = [] ∧ Calm (reporting (queued 23)) ∧ (reporting (queued 23)).holding = true := by
  and_intros <;> first | decide +kernel | (unfold Hearing; decide +kernel) | (unfold Awake; decide +kernel)

/-- The receipt timer with a known holder, whose broadband is up or down. -/
theorem test_hyps_ReportFrames_resent :
    Calm (reporting (follows base)) ∧ (reporting (follows base)).hold.known = some 2 ∧
      (reporting (follows base)).broadbandOf 2 = true ∧ (reporting (follows base)).halted = false ∧
      (reporting (follows base)).holding = false ∧ (reporting (follows base)).wire.control = [] ∧
      [{ ownSent with state := .new }] = [] ++ { ownSent with state := .new } :: [] ∧
      Calm (reporting (followsDown base)) ∧ (reporting (followsDown base)).hold.known = some 2 ∧
      (reporting (followsDown base)).broadbandOf 2 = false := by
  and_intros <;> first | decide +kernel | (unfold Hearing; decide +kernel) | (unfold Awake; decide +kernel)

def uplinked (n : Nat) (ok : Bool) : State :=
  { holder with
    sup := { holder.sup with uplink := List.replicate n (word 14) }
    pins := { holder.pins with sendOk := ok } }

/-- A map of `n` stations' addresses. -/
def mapOf (n : Nat) : List MapEntry := (List.range n).map fun i => ⟨[2#8, BitVec.ofNat 8 i], 5, present⟩

theorem test_hyps_learn :
    (([1#8, 9#8] : List Byte).headD 0).getLsbD 0 = true ∧ (([2#8, 9#8] : List Byte).headD 0).getLsbD 0 = false ∧
      ((mapOf 32).filter fun e => decide (e.addr ≠ [2#8, 9#8])).length < 32 ∧
      32 ≤ ((mapOf 32).filter fun e => decide (e.addr ≠ [2#8, 40#8])).length := by
  and_intros <;> first | decide +kernel | (unfold Hearing; decide +kernel) | (unfold Awake; decide +kernel)

theorem test_hyps_DataFrameRouted :
    Calm (hears (known5 base)) ∧ Hearing (hears (known5 base)) frameStart ∧ ForUs (hears (known5 base)) okHeader ∧
      Familiar (hears (known5 base)) okHeader ∧ (hears (known5 base)).holding = false ∧
      RosterOk (hears (known5 base)) ∧ RosterOk (hears (known5 (uplinked 32 false))) ∧
      Calm (hears (known5 holder)) ∧ ForUs (hears (known5 holder)) ⟨5, 0, .listed .passive⟩ ∧
      okHeader.dst = (hears (known5 holder)).own ∧ Calm (hears (known5 (uplinked 31 false))) ∧
      (hears (known5 (uplinked 31 false))).sup.uplink.length < 32 ∧ Calm (hears (known5 (uplinked 32 false))) ∧
      32 ≤ (hears (known5 (uplinked 32 false))).sup.uplink.length ∧ Calm (hears (known5 (uplinked 0 true))) ∧
      (hears (known5 (uplinked 0 true))).pins.sendOk = true ∧
      (hears (known5 (uplinked 0 true))).sup.upTransfer = none := by
  and_intros <;> first | decide +kernel | (unfold Hearing; decide +kernel) | (unfold Awake; decide +kernel)

/-- A round is open, with a frame of each class at its head; the data head's backoff is 31. -/
def contending (s : State) : State :=
  s.modWire fun w =>
    { w with
      round := some ⟨0⟩
      voice := [entry (some 2) (.voice ⟨.toHolder, 9, 1, 0, 0#8, quietFrame⟩)]
      control := [entry (some 0) (.claim 1#16 0)]
      data := [{ entry (some 2) (.data (word 14)) with backoff := 31 }] }

theorem test_slotOpens (k : Track) (n : Nat) (h : n ≤ 33) : SlotOpens (tracking k (contending base)) n :=
  ⟨rfl, rfl, rfl, rfl, rfl, h, ⟨0⟩, rfl, Nat.zero_le _⟩

theorem test_spanFree (k : Track) (air : Nat) :
    SpanFree (tracking k (contending base)) air ↔
      (k.firm = true → 20 < elapsed present k.tNext ∨ (air : Int) < -(elapsed present k.tNext) - 12) := by
  constructor
  · intro h; exact h k (.inl rfl)
  · rintro h q (hq | hq)
    · have hq' : some k = some q := hq
      cases hq'; exact h
    · have hq' : (none : Option Track) = some q := hq
      cases hq'

/-- A head's span is free to the last tick before a quiet window and from the first tick after one, and is not while the
window lasts, nor where the airtime reaches a later window. -/
theorem test_hyps_SlotBegins_span :
    SpanFree (tracking (lockedTrack (present + ticks 15)) (contending base)) 2 ∧
      SpanFree (tracking (lockedTrack (ago 21)) (contending base)) 15 ∧
      ¬ SpanFree (tracking (lockedTrack (present + ticks 14)) (contending base)) 2 ∧
      ¬ SpanFree (tracking (lockedTrack (present + ticks 27)) (contending base)) 15 ∧
      ¬ SpanFree (tracking (lockedTrack (present + ticks 12)) (contending base)) 2 ∧
      ¬ SpanFree (tracking (lockedTrack (ago 20)) (contending base)) 2 ∧
      airtime (payloadBytes (startContents base (.claim 1#16 0))).length = 2 := by
  simp only [test_spanFree]
  and_intros <;> decide +kernel

theorem test_hyps_SlotBegins :
    Calm (tracking (lockedTrack (present + ticks 15)) (contending base)) ∧
      Calm (tracking (lockedTrack (present + ticks 14)) (contending base)) ∧
      Calm (tracking (lockedTrack (present + ticks 27)) (contending base)) ∧
      Calm (tracking (lockedTrack (present + ticks 12)) (contending base)) ∧
      Calm (tracking (lockedTrack (ago 20)) (contending base)) ∧
      Calm (tracking (lockedTrack (ago 21)) (contending base)) ∧
      ((contending base).wire.queue .voice).head?.map (fun e => (e.sitOut, e.dst, slotOf e .voice)) = some (0,
        some 2, 0) ∧
      ((contending base).wire.queue .control).head?.map (fun e => (e.sitOut, e.dst, slotOf e .control)) =
        some (0, some 0, 1) ∧
      ((contending base).wire.queue .data).head?.map (fun e => (e.sitOut, e.dst, slotOf e .data)) =
        some (0, some 2, 33) ∧ Calm (sending .beacon base) ∧ Calm inWatch ∧ Calm base := by
  and_intros <;> first | decide +kernel | (unfold Hearing; decide +kernel) | (unfold Awake; decide +kernel)

/-- Slot 5 has no head; at a station with nothing to send no slot has one. -/
theorem test_hyps_SlotBegins_noHead :
    (∀ c e, ((contending base).wire.queue c).head? = some e → 5 = slotOf e c → e.sitOut ≠ 0 ∨ e.dst = none) ∧
      (∀ c e, (base.wire.queue c).head? = some e → 1 = slotOf e c → e.sitOut ≠ 0 ∨ e.dst = none) := by
  constructor
  · rintro c e h hs
    cases c <;> cases h <;> exact absurd hs (by decide)
  · rintro c e h
    cases c <;> cases h

theorem test_hyps_SlotBegins_closed :
    ¬ SlotOpens (sending .beacon base) 1 ∧ ¬ SlotOpens inWatch 1 ∧ ¬ SlotOpens base 1 := by
  refine ⟨?_, ?_, ?_⟩
  · rintro ⟨_, _, h, _⟩; cases h
  · rintro ⟨_, h, _⟩; cases h
  · rintro ⟨_, _, _, _, _, _, r, h, _⟩; cases h

/-- The last-gasp window `n` ticks on: a round is open, and LASTGASP waits behind a CLAIM. -/
def gasping (n : Nat) : State :=
  (inWindow n).modWire fun w =>
    { w with
      round := some ⟨0⟩
      control := [entry (some 0) (.claim 1#16 0), entry (some 0) (.lastgasp okRecord true)] }

theorem test_hyps_SlotBegins_window :
    SlotOpens (gasping 797) 1 ∧ SlotOpens (gasping 798) 1 ∧ SlotOpens (gasping 0) 0 ∧
      (∀ k air, (gasping 797).noise.a = some k ∨ (gasping 797).noise.b = some k → SpanFree (gasping 797) air) ∧
      (gasping 797).power.window = some (ago 797) ∧
      (((gasping 797).wire.control.find? fun e => isGasp e.body).map fun e => (e.sitOut, e.dst)) = some (0, some 0) ∧
      airtime (payloadBytes (startContents (gasping 797) (.lastgasp okRecord true))).length = 3 ∧
      elapsed present (ago 797) + 3 ≤ 800 ∧ 800 < elapsed present (ago 798) + 3 ∧
      ((contending (inWindow 0)).wire.control.find? fun e => isGasp e.body) = none := by
  refine ⟨⟨rfl, rfl, rfl, rfl, rfl, by decide, ⟨0⟩, rfl, by decide⟩, ⟨rfl, rfl, rfl, rfl, rfl, by decide, ⟨0⟩, rfl,
    by decide⟩,
    ⟨rfl, rfl, rfl, rfl, rfl, by decide, ⟨0⟩, rfl, by decide⟩, ?_, ?_⟩
  · rintro k air (h | h) <;> cases h
  · and_intros <;> decide +kernel

/-- A round is open, with one control frame at its head. -/
def starts (b : Body) (s : State) : State :=
  s.modWire fun w => { w with round := some ⟨0⟩, control := [entry (some 0) b] }

/-- A frame of each kind that is filled at its start is at its head's slot at a settled station: the holder's BEACON in a
call of one to three parties, the others' BEACON, YIELD and HALT. -/
theorem test_hyps_SlotBegins_contents :
    Calm (starts .beacon (inCall oneParty holder)) ∧ Calm (starts .beacon (inCall fullCall holder)) ∧
      Calm (starts .beacon degradedHolder) ∧ Calm (starts .beacon base) ∧ Calm (starts .yield (held .yielding base)) ∧
      Calm (starts .halt haltedBase) ∧ slotOf (entry (some 0) .beacon) .control = 1 := by
  and_intros <;> first | decide +kernel | (unfold Hearing; decide +kernel) | (unfold Awake; decide +kernel)

theorem test_slotOpens_contents :
    SlotOpens (starts .beacon (inCall fullCall holder)) 1 ∧ SlotOpens (starts .yield (held .yielding base)) 1 ∧
      SlotOpens (starts .halt haltedBase) 1 :=
  ⟨⟨rfl, rfl, rfl, rfl, rfl, by decide, ⟨0⟩, rfl, by decide⟩, ⟨rfl, rfl, rfl, rfl, rfl, by decide, ⟨0⟩, rfl, by decide⟩,
    ⟨rfl, rfl, rfl, rfl, rfl, by decide, ⟨0⟩, rfl, by decide⟩⟩

/-- The spec's worked example: a prediction of 292000, a rounded period of 47997 and a start at 292037 give an offset of
47960; one that lies ahead is its distance; a TENTATIVE and a BORROWED slot are not carried (R4). -/
theorem test_start_tracks :
    startTracks { tracking { lockedTrack 292000#32 with period := 383976 } base with now := 292037#32 } =
        [⟨383976#32, 4#8, 47960#24⟩] ∧
      startTracks (tracking (lockedTrack (present + ticks 15)) base) = [⟨383978#32, 4#8, 15#24⟩] ∧
      startTracks (tracking { lockedTrack present with conf := 3 } base) = [] ∧
      startTracks (tracking { lockedTrack present with lender := some ⟨5, present⟩ } base) = [] := by decide +kernel

/-- The holder block of a call of three parties on a SYNCED modem (R37), the fixed part of a HALT (R44), and a LASTGASP
with and without the held flag (R174). -/
theorem test_start_contents :
    startHolderBlock (inCall fullCall holder) = ⟨true, 3#2, false, false, true, 1#2, false, false, false⟩ ∧
      (startFixed base).tiebreak = 0x1000#16 ∧ (startFixed base).power = .listed .full ∧
      startContents (tracking (lockedTrack present) base) (.lastgasp okRecord false) =
        .lastgasp ⟨okRecord, false, BitVec.ofNat 2 base.sup.stored, []⟩ ∧
      startContents (tracking (lockedTrack present) base) (.lastgasp okRecord true) =
        .lastgasp ⟨okRecord, true, BitVec.ofNat 2 base.sup.stored, [⟨383978#32, 4#8, 0#24⟩]⟩ := by decide +kernel

/-- A frame of a class in transmission at the head of its queue, after `n` collisions. -/
def onAir (c : FrameClass) (b : Body) (n wire : Nat) (s : State) : State :=
  s.modWire fun w =>
    { w.setQueue [{ entry (some 2) b with inTx := true, collisions := n }] c with
      tx := some ⟨c, [], some (ago 2)⟩, collided := wire }

def voiceBody : Body := .voice ⟨.toHolder, 9, 1, 0, 0#8, quietFrame⟩

def lateVoice (s : State) : State := s.modWire fun w => { w with voice := [newEntry (some 2) voiceBody (ago 200)] }

theorem test_hyps_TransmissionEnds :
    Calm (onAir .control (.claim 0x1000#16 0) 15 30 (held .claiming base)) ∧
      Awake (onAir .control (.claim 0x1000#16 0) 15 30 (held .claiming base)) ∧
      (onAir .control (.claim 0x1000#16 0) 15 30 (held .claiming base)).wire.tx = some ⟨.control, [], some (ago 2)⟩ ∧
      (onAir .control (.claim 0x1000#16 0) 15 30 (held .claiming base)).hold.claimSerial = 0 ∧
      Calm (onAir .control .yield 0 0 (held .yielding base)) ∧
      (onAir .control .yield 0 0 (held .yielding base)).hold.known = none ∧
      Calm (onAir .control .beacon 14 30 base) ∧ Calm (onAir .control .beacon 0 31 base) ∧
      (onAir .control .beacon 0 31 base).halted = false ∧ Calm (onAir .data (.data (word 14)) 6 30 base) ∧
      (onAir .data (.data (word 14)) 6 30 base).wire.data.map (·.collisions) = [6] ∧
      Calm (onAir .voice voiceBody 0 0 base) ∧
      (onAir .voice voiceBody 0 0 base).wire.voice.all (fun e => decide (200 ≤ elapsed present e.due)) = true ∧
      Calm (onAir .control .halt 0 31 haltedBase) ∧ Calm (lateVoice base) ∧
      (lateVoice base).wire.voice = [newEntry (some 2) voiceBody (ago 200)] ∧ 200 ≤ elapsed present (ago 200) ∧
      Calm (onAir .control .beacon 15 30 base) ∧ Calm (onAir .data (.data (word 14)) 7 30 base) ∧
      (onAir .data (.data (word 14)) 7 30 base).wire.data.map (·.collisions) = [7] ∧
      Calm (onAir .voice voiceBody 0 0 { base with now := ago 101 }) ∧ elapsed (ago 101) (ago 300) < 200 ∧
      ((onAir .voice voiceBody 0 0 { base with now := ago 101 }).wire.voice.all
        fun e => decide (e.due = ago 300)) = true := by
  and_intros <;> first | decide +kernel | (unfold Hearing; decide +kernel) | (unfold Awake; decide +kernel)

/-- A DATA frame in transmission with others behind it. -/
def dataBehind (q : List TxEntry) (s : State) : State :=
  (onAir .data (.data (word 14)) 0 0 s).modWire fun w => { w with data := w.data ++ q }

def upward : TxEntry := newEntry none (.data (word 15)) (ago 5)

def downward : TxEntry := newEntry (some 4) (.data (word 15)) (ago 5)

/-- The frame behind has its destination; or has none while another station, none, or this one holds the line. -/
theorem test_hyps_TransmissionEnds_next :
    Calm (dataBehind [downward, upward] base) ∧ Awake (dataBehind [downward, upward] base) ∧
      downward.dst.isSome = true ∧ Calm (dataBehind [upward, upward] (follows base)) ∧ upward.dst = none ∧
      upward.inTx = false ∧ (dataBehind [upward, upward] (follows base)).hold.known = some 2 ∧
      2 ≠ (dataBehind [upward, upward] (follows base)).own ∧ Calm (dataBehind [upward, upward, downward] base) ∧
      (dataBehind [upward, upward, downward] base).hold.known = none ∧
      Calm (dataBehind [upward, downward] (uplinked 31 false)) ∧
      (dataBehind [upward, downward] (uplinked 31 false)).hold.known =
        some (dataBehind [upward, downward] (uplinked 31 false)).own ∧
      (dataBehind [upward, downward] (uplinked 31 false)).sup.state = .synced ∧
      Calm (dataBehind [upward] (uplinked 32 false)) ∧ Calm (dataBehind [upward] (uplinked 0 true)) ∧
      (dataBehind [upward] (uplinked 0 true)).pins.sendOk = true := by
  and_intros <;> first | decide +kernel | (unfold Hearing; decide +kernel) | (unfold Awake; decide +kernel)

/-- A frame in transmission that a station gone to WATCH lets complete, and LASTGASP in transmission in its window. -/
def closingDown (n : Nat) : State :=
  (onAir .control .beacon 0 n inWatch).modPower fun p => { p with frontEnd := .closing }

def gaspSent : State := onAir .control (.lastgasp okRecord true) 0 0 (inWindow 797)

theorem test_hyps_TransmissionEnds_closing :
    Calm (closingDown 30) ∧ Awake (closingDown 30) ∧ (closingDown 30).power.frontEnd = .closing ∧
      (closingDown 30).wire.control.map (·.inTx) = [true] ∧ gaspSent.phase = .running ∧
      gaspSent.power.window = some (ago 797) ∧ gaspSent.wire.tx = some ⟨.control, [], some (ago 2)⟩ ∧
      gaspSent.wire.control.map (fun e => (isGasp e.body, e.inTx, e.flushed)) = [(true, true, false)] ∧
      gaspSent.power.frontEnd = .live ∧
      (onAir .control .beacon 0 0 (inWindow 0)).wire.control.map (fun e => isGasp e.body) = [false] := by
  and_intros <;> first | decide +kernel | (unfold Hearing; decide +kernel) | (unfold Awake; decide +kernel)

/-- The frame in transmission has been flushed. -/
def flushedTx (s : State) : State :=
  s.modWire fun w =>
    { w with
      voice := w.voice.map fun e => { e with flushed := true }
      control := w.control.map fun e => { e with flushed := true }
      data := w.data.map fun e => { e with flushed := e.inTx } }

/-- A frame flushed at entry to WATCH, at HALTED with its HALT behind it, and at another moment, of each class and of each
kind whose sender is told, after up to 30 collisions in a row, and after 31. -/
theorem test_hyps_TransmissionEnds_flushed :
    Calm (flushedTx (closingDown 30)) ∧ PortsOk (flushedTx (closingDown 30)) ∧
      (flushedTx (closingDown 30)).power.state = .watch ∧ (flushedTx (closingDown 30)).power.frontEnd = .closing ∧
      (flushedTx (closingDown 30)).wire.control.map (fun e => (e.inTx, e.flushed)) = [(true, true)] ∧
      (flushedTx (closingDown 30)).wire.tx = some ⟨.control, [], some (ago 2)⟩ ∧
      (flushedTx (closingDown 30)).wire.collided < 31 ∧ Calm (flushedTx (onAir .control .beacon 15 40 haltedBase)) ∧
      Awake (flushedTx (onAir .control .beacon 15 40 haltedBase)) ∧ haltedBase.halted = true ∧
      Calm (flushedTx (onAir .voice voiceBody 0 30 base)) ∧ PortsOk (flushedTx (onAir .voice voiceBody 0 30 base)) ∧
      Calm (flushedTx (onAir .control (.claim 0x1000#16 0) 0 0 (held .claiming base))) ∧
      (flushedTx (onAir .control (.claim 0x1000#16 0) 0 0 (held .claiming base))).hold.claimSerial = 0 ∧
      Calm (flushedTx (onAir .control .yield 0 0 (held .yielding base))) ∧
      Calm (flushedTx (onAir .control (.request .seize okRequest) 0 0 (waits base))) ∧
      PortsOk (flushedTx (onAir .control (.request .seize okRequest) 0 0 (waits base))) ∧
      ((flushedTx (onAir .control (.request .seize okRequest) 0 0 (waits base))).port .one).outReq =
        some (reqTo .seize) ∧ (reqTo .seize).tag = okRequest.tag ∧ Calm (flushedTx (closingDown 31)) ∧
      (flushedTx (closingDown 31)).halted = false ∧ 31 ≤ (flushedTx (closingDown 31)).wire.collided := by
  and_intros <;> first | decide +kernel | (unfold Awake; decide +kernel)

/-- A flushed DATA frame with none behind it, and with those that an upstream frame finds: another holder, none, or this
station itself. -/
theorem test_hyps_TransmissionEnds_flushedData :
    Calm (flushedTx (dataBehind [] base)) ∧ Awake (flushedTx (dataBehind [] base)) ∧
      (flushedTx (dataBehind [upward] base)).wire.data.map (fun e => (e.inTx, e.flushed)) =
        [(true, true), (false, false)] ∧
      Calm (flushedTx (dataBehind [downward] base)) ∧ Calm (flushedTx (dataBehind [upward] (follows base))) ∧
      Calm (flushedTx (dataBehind [upward] base)) ∧ Calm (flushedTx (dataBehind [upward] (uplinked 31 false))) := by
  and_intros <;> first | decide +kernel | (unfold Awake; decide +kernel)

/-- In the last-gasp window: a frame that was flushed before it opened, and LASTGASP at its 15th and 16th collision. -/
theorem test_hyps_TransmissionEnds_window :
    (flushedTx (onAir .control .beacon 0 0 (inWindow 0))).power.window = some (ago 0) ∧
      (flushedTx (onAir .control .beacon 0 0 (inWindow 0))).phase = .running ∧
      (flushedTx (onAir .control .beacon 0 0 (inWindow 0))).wire.control.map (fun e => (e.inTx, e.flushed)) =
        [(true, true)] ∧
      (onAir .control (.lastgasp okRecord true) 14 31 (inWindow 9)).wire.control.map
        (fun e => (e.collisions, e.flushed)) = [(14, false)] ∧
      (onAir .control (.lastgasp okRecord true) 15 31 (inWindow 9)).wire.control.map
        (fun e => (e.collisions, e.flushed)) = [(15, false)] ∧ gaspSent.power.gasp = .notSent := by
  and_intros <;> decide +kernel

/-- The end of a frame flushed at entry to WATCH takes the front end down and empties the queue (R169). -/
theorem test_flushed_end_in_watch :
    (after .transmissionEnd (flushedTx (closingDown 3))).power.frontEnd = .down ∧
      (after .collision (flushedTx (closingDown 3))).power.frontEnd = .down ∧
      (after .transmissionEnd (flushedTx (closingDown 3))).wire.control = [] ∧
      (after .collision (flushedTx (closingDown 3))).wire.control = [] := by decide +kernel

/-- After the start-up of `outlived`: its frame is still in transmission. -/
def outlivedRuns : State := after (.configurationReadEnd .absent true) outlived

theorem test_hyps_TransmissionEnds_outlived :
    Starting outlived ∧ outlived.wire.tx.isSome = true ∧ Calm outlivedRuns ∧
      outlivedRuns.wire.tx = some ⟨.control, [], none⟩ ∧
      outlivedRuns.wire.control.map (fun e => (e.inTx, e.flushed)) = [(true, true)] := by
  and_intros <;> decide +kernel

def syncedSince (x : Option Tick) : State := (uplinked 0 true).modSup fun u => { u with syncedAt := x }

theorem test_hyps_LinkFramesRouted :
    Calm base ∧ (word 13).length < 14 ∧ 1536 < (word 1537).length ∧ 14 ≤ (word 14).length ∧
      (word 1536).length ≤ 1536 ∧ Calm (follows base) ∧ (follows base).holdBack = false ∧
      (follows base).holding = false ∧ (follows base).hold.known = some 2 ∧ 2 ≠ (follows base).own ∧
      Calm (uplinked 31 false) ∧ (uplinked 31 false).holdBack = false ∧ (uplinked 31 false).holding = true ∧
      (uplinked 31 false).sup.state = .synced ∧ (uplinked 31 false).sup.upTransfer = none ∧
      Calm (uplinked 0 true) ∧ (uplinked 0 true).sup.uplink = [] ∧ base.sup.state ≠ .synced ∧
      (uplinked 0 true).sup.syncedAt = none ∧ Calm (syncedSince (some (ago 9))) ∧
      (syncedSince (some (ago 9))).sup.syncedAt = some (ago 9) ∧ elapsed (ago 10) (ago 9) < 0 ∧
      0 ≤ elapsed (ago 9) (ago 9) ∧ (uplinked 0 true).power.state = .full ∧
      (uplinked 0 true).halted = false ∧ (uplinked 0 true).wire.data.length < 32 := by
  and_intros <;> first | decide +kernel | (unfold Hearing; decide +kernel) | (unfold Awake; decide +kernel)

/-- A slot A one capture window away from the present time, by `n` ticks. -/
def noisy (n : Int) (conf : Nat) (s : State) : State :=
  tracking ⟨383978, present - BitVec.ofInt 32 n, conf, false, none, false, false⟩ s

def impulseAt (n : Nat) (cs : List Tick) (s : State) : State :=
  s.modNoise fun q => { q with lastImpulse := some (ago n), candidates := cs }

theorem test_hyps_ImpulseMovesSlot :
    Calm base ∧ base.power.frontEnd = .live ∧ base.noise.lastImpulse = none ∧ Calm holder ∧ holder.holding = true ∧
      holder.sup.state = .synced ∧ Calm (impulseAt 40 [] base) ∧ elapsed present (ago 40) ≤ 40 ∧
      Calm (impulseAt 41 [] base) ∧ 40 < elapsed present (ago 41) ∧ Calm (noisy (-40) 3 base) ∧
      -40 ≤ elapsed present ((present - BitVec.ofInt 32 (-40)) : Tick) ∧ Calm (noisy 40 4 base) ∧
      elapsed present ((present - BitVec.ofInt 32 40) : Tick) ≤ 40 ∧ Calm (impulseAt 41 [ago 50] base) ∧
      (impulseAt 41 [ago 50] base).noise.candidates = [ago 50] ∧ (impulseAt 41 [ago 50] base).noise.a = none ∧
      Calm (impulseAt 41 [ago 40000, ago 20000] base) ∧ 20000 ≤ elapsed (ago 20000) (ago 40000) ∧
      elapsed (ago 80000) (ago 160000) ≤ 80000 ∧
      -40 ≤ elapsed present (ago 19960) - elapsed (ago 19960) (ago 39960) ∧
      elapsed present (ago 20040) - elapsed (ago 20040) (ago 40040) ≤ 40 ∧ Calm inWatch ∧
      inWatch.power.frontEnd ≠ .live ∧ base.holding = false := by
  and_intros <;> first | decide +kernel | (unfold Hearing; decide +kernel) | (unfold Awake; decide +kernel)

/-- Both slots in use, their predictions 5000 ticks ahead. -/
def bothAhead (confA confB : Nat) (s : State) : State :=
  (tracking (slotAt 5000 confA none) s).modNoise fun q => { q with b := some (slotAt 5000 confB none) }

/-- Candidates 1 s and 0.5 s ago. -/
def paired : List Tick := [ago 40000, ago 20000]

/-- Two pairs: 1.5 s and 0.75 s ago, 1 s and 0.5 s ago. -/
def twoPairs : List Tick := [ago 60000, ago 40000, ago 30000, ago 20000]

/-- A full candidate list without a pair; the latest of two pairs; and each way in which a slot is found, or is not. -/
theorem test_hyps_ImpulseMovesSlot_formation :
    Calm (impulseAt 41 ((List.range 6).map fun i => ago (600 - 100 * i)) base) ∧
      ((List.range 6).map fun i => ago (600 - 100 * i)).Pairwise (fun c1 c2 => ¬ PairFor present c1 c2) ∧
      LatestPair present twoPairs (ago 40000) (ago 20000) ∧ LatestPair present paired (ago 40000) (ago 20000) ∧
      Calm (impulseAt 41 twoPairs base) ∧ FormsIn .a base.noise ∧ Calm (noisy (-5000) 2 (impulseAt 41 paired base)) ∧
      FormsIn .b (noisy (-5000) 2 (impulseAt 41 paired base)).noise ∧
      Calm (bothAhead 2 2 (impulseAt 41 paired base)) ∧ FormsIn .a (bothAhead 2 2 base).noise ∧
      FormsIn .b (bothAhead 2 1 base).noise ∧ FormsIn .b (bothAhead 3 2 base).noise ∧
      (∀ n, ¬ FormsIn n (bothAhead 3 3 base).noise) ∧ Calm (bothAhead 3 3 (impulseAt 41 paired base)) ∧
      elapsed present (slotAt 5000 2 none).tNext < -40 := by
  have pair : PairFor present (ago 40000) (ago 20000) := by unfold PairFor; decide
  have noLater : ∀ (m m' l : List Tick) (d : Tick), [] = m ++ d :: m' → ∀ c ∈ l, ¬ PairFor present c d := by
    simp
  refine ⟨by and_intros <;> decide +kernel, ?_, ?_, ?_, by and_intros <;> decide +kernel, rfl,
    by and_intros <;> decide +kernel, rfl, by and_intros <;> decide +kernel, ?_, ?_, ?_, ?_,
    by and_intros <;> decide +kernel, by decide +kernel⟩
  · unfold PairFor; decide +kernel
  · refine ⟨[ago 60000], [ago 30000], [], rfl, pair, ?_, fun m d m' h => noLater m m' _ d h⟩
    intro c hc
    obtain rfl : c = ago 30000 := by simpa using hc
    unfold PairFor; decide
  · exact ⟨[], [], [], rfl, pair, by simp, fun m d m' h => noLater m m' _ d h⟩
  · exact .inl ⟨rfl, ⟨rfl, by decide⟩, fun _ => by decide⟩
  · exact .inr ⟨rfl, ⟨rfl, by decide⟩, fun _ => by decide⟩
  · exact .inr ⟨rfl, ⟨rfl, by decide⟩, fun h => absurd h.2 (by decide)⟩
  · rintro n (⟨-, h, -⟩ | ⟨-, h, -⟩) <;> exact absurd h.2 (by decide)

def opened (n : Nat) (idle : Bool) (s : State) : State :=
  tracking { lockedTrack (ago n) with winOpen := true, winIdle := idle } s

/-- A holder with both quiet windows open; that of slot A is at its end. -/
def bothOpen : State :=
  (opened 21 true holder).modNoise fun q => { q with b := some { lockedTrack present with winOpen := true } }

/-- Both quiet windows open on an idle wire, and an impulse that hits both slots; a frame sits rounds out. -/
def bothHit : State :=
  ((opened 20 true base).modNoise fun q =>
    { q with b := some { lockedTrack (present + ticks 12) with winOpen := true, winIdle := true } }).modWire fun w =>
    { w with control := [{ entry (some 0) .beacon with sitOut := 2 }] }

theorem test_hyps_SlotsFollowTime_span :
    Calm bothHit ∧ bothHit.noise.a.any (fun k => k.winOpen && k.winIdle && decide (4 ≤ k.conf)) = true ∧
      bothHit.noise.b.any (fun k => k.winOpen && k.winIdle && decide (4 ≤ k.conf)) = true ∧
      bothHit.noise.lastImpulse = none ∧ -40 ≤ elapsed present (present + ticks 12) ∧
      elapsed present (ago 20) ≤ 40 ∧ bothHit.power.frontEnd = .live ∧ bothHit.wireIdle = true ∧
      bothHit.wire.rx = none ∧ openNow ((opened 21 true base).noise.slot (otherSlot .a)) = false ∧
      openNow (bothOpen.noise.slot (otherSlot .a)) = true ∧ Calm (opened 21 false base) := by
  and_intros <;> first | decide +kernel | (unfold Hearing; decide +kernel) | (unfold Awake; decide +kernel)

theorem test_hyps_SlotsFollowTime :
    Calm (noisy 40 2 base) ∧ 40 ≤ elapsed present ((present - BitVec.ofInt 32 40) : Tick) ∧ Calm (noisy 40 3 base) ∧
      Calm (tracking (slotAt 0 4 (some ⟨4, ago 120000⟩)) base) ∧ 120000 ≤ elapsed present (ago 120000) ∧
      (tracking (slotAt 0 4 (some ⟨4, ago 120000⟩)) base).noise.slot .a =
        some (slotAt 0 4 (some ⟨4, ago 120000⟩)) ∧ Calm (noisy (-12) 4 base) ∧
      -12 ≤ elapsed present ((present - BitVec.ofInt 32 (-12)) : Tick) ∧ Calm (noisy 20 4 base) ∧
      elapsed present ((present - BitVec.ofInt 32 20) : Tick) ≤ 20 ∧ Calm (opened 21 true base) ∧
      20 < elapsed present (ago 21) ∧ (opened 21 true base).wireIdle = true ∧ (opened 21 true base).wire.rx = none ∧
      (opened 21 true base).power.frontEnd = .live ∧ Calm bothOpen ∧ bothOpen.holding = true ∧
      bothOpen.sup.state ≠ .off ∧ openNow (bothOpen.noise.slot .b) = true := by
  and_intros <;> first | decide +kernel | (unfold Hearing; decide +kernel) | (unfold Awake; decide +kernel)

theorem test_hyps_SlotsFollowTime_window :
    (noisy (-12) 4 (inWindow 0)).phase = .running ∧ (noisy 20 4 (inWindow 799)).power.window.isSome = true ∧
      (opened 21 true (inWindow 799)).wireIdle = true ∧ (opened 21 true (inWindow 799)).wire.rx = none ∧
      (opened 21 true (inWindow 799)).power.frontEnd = .live ∧ State.reset.phase ≠ .running := by
  and_intros <;> first | decide +kernel | (unfold Hearing; decide +kernel) | (unfold Awake; decide +kernel)

def holdTimer (f : Hold → Hold) (s : State) : State := s.modHold f

/-- Port 1 WAITING with a request held in LISTEN. -/
def heldRequest (s : State) : State :=
  port1 (fun p => { p with state := .waiting, offHook := true, outReq := some ⟨.seize, 0, 0, 0, ago 9, true⟩ }) s

def listening : State := heldRequest (holdTimer (fun h => { h with state := .listen, listen := some (ago 120000) }) base)
def deferring : State := holdTimer (fun h => { h with deferral := some (ago 30000) }) base
def contesting : State := holdTimer (fun h => { h with state := .claiming, contest := some (ago 20000) }) base
def unheld : State := holdTimer (fun h => { h with noHolder := some (ago 1200000) }) base

theorem test_hyps_HoldTimers :
    Calm unheld ∧ unheld.hold.noHolder = some (ago 1200000) ∧ 1200000 ≤ elapsed present (ago 1200000) ∧
      Calm listening ∧ Awake listening ∧ listening.hold.state = .listen ∧ listening.hold.listen = some (ago 120000) ∧
      120000 ≤ elapsed present (ago 120000) ∧ listening.hold.known = none ∧
      listening.ports.one.outReq = some ⟨.seize, 0, 0, 0, ago 9, true⟩ ∧ Calm (followsClaim base) ∧
      (followsClaim base).hold.follow = some ⟨4, ago 80000⟩ ∧ 80000 ≤ elapsed present (ago 80000) ∧ Calm deferring ∧
      deferring.hold.state = .seeking ∧ deferring.hold.deferral = some (ago 30000) ∧
      deferring.hold.eligible = true ∧ deferring.hold.known = none ∧
      ((10000 * deferring.own : Nat) : Int) ≤ elapsed present (ago 30000) ∧ deferring.wire.control.length < 8 ∧
      Calm contesting ∧ contesting.hold.contest = some (ago 20000) ∧ 20000 ≤ elapsed present (ago 20000) ∧
      contesting.hold.eligible = true ∧ contesting.power.frontEnd = .live ∧ contesting.wire.control = [] := by
  and_intros <;> first | decide +kernel | (unfold Hearing; decide +kernel) | (unfold Awake; decide +kernel)

def supIn (st : SupState) (n : Nat) (s : State) : State :=
  s.modSup fun u => { u with state := st, timer := some (ago n), backoffLen := 400000, failures := 1 }

def lossy (l : List Tick) : State := holder.modSup fun u => { u with losses := l }

def readyRuns (s : State) : State := s.modSup fun u => { u with readyTimer := some (ago 400000) }

theorem test_hyps_ModemSupervised :
    Calm base ∧ base.power.state = .full ∧ base.straps.modem = true ∧ base.pins.ready ≠ false ∧ Calm idling ∧
      idling.power.state ≠ .full ∧ Calm (readyRuns (inCall oneParty holder)) ∧
      (readyRuns (inCall oneParty holder)).sup.readyTimer = some (ago 400000) ∧
      400000 ≤ elapsed present (ago 400000) ∧ (readyRuns (inCall oneParty holder)).hold.eligible = true ∧
      Calm (readyRuns (held .claiming base)) ∧ Calm (supIn .training 3600000 holder) ∧
      (supIn .training 3600000 holder).sup.state = .training ∧ 3600000 ≤ elapsed present (ago 3600000) ∧
      1 ≤ (supIn .training 3600000 holder).sup.failures ∧ Calm (supIn .lost 80000 holder) ∧
      80000 ≤ elapsed present (ago 80000) ∧ Calm (supIn .backoff 400000 holder) ∧
      ((supIn .backoff 400000 holder).sup.backoffLen : Int) ≤ elapsed present (ago 400000) ∧ Calm holder ∧
      holder.sup.state = .synced ∧ base.sup.state = .off ∧ Calm (lossy [ago 36000000, ago 9]) ∧
      elapsed present (ago 36000000) ≤ 36000000 := by
  and_intros <;> first | decide +kernel | (unfold Hearing; decide +kernel) | (unfold Awake; decide +kernel)

/-- An offer stands, and the answer to one withdrawn at this instant has not come. -/
def offeredLate : State := (offered okRecord).modSup fun u => { u with late := 1 }

theorem test_hyps_MailboxOutcomes :
    Calm (offered okRecord) ∧ (offered okRecord).holding = true ∧ (offered okRecord).sup.state = .synced ∧
      (offered okRecord).sup.mailbox = some ⟨okRecord, ago 200000⟩ ∧
      (offered okRecord).report.queue = [okRecord, { okRecord with origin := 7 }] ∧ 7 ≠ okRecord.origin ∧
      (offered okRecord).fault.list = [] ∧ okRecord.origin ≠ (offered okRecord).own ∧ okRecord.trigger ≠ 8 ∧
      Calm (offered { okRecord with trigger := 8 }) ∧ 200000 ≤ elapsed present (ago 200000) ∧
      (offered okRecord).sup.late = 0 ∧ Calm offeredLate ∧ 0 < offeredLate.sup.late ∧
      offeredLate.sup.mailbox.isSome = true := by
  and_intros <;> first | decide +kernel | (unfold Hearing; decide +kernel) | (unfold Awake; decide +kernel)

/-- An offer of this station's own record, one copy of which heads the queue, with its record in the fault list. -/
def ownOffered (x r : FaultRecord) : State :=
  { offered r with
    sup := { (offered r).sup with mailbox := some ⟨ownSent, ago 200000⟩ }
    fault := { (offered r).fault with list := [x], lamp := .slow } }

/-- A rise has been counted since the copy was offered, and the entry rewritten or not. -/
theorem test_hyps_MailboxOutcomes_own :
    Calm (ownOffered ownSent ownSent) ∧ ownSent.origin = (ownOffered ownSent ownSent).own ∧ ownSent.trigger ≠ 8 ∧
      ownSent.state = .sent ∧ (ownOffered ownSent ownSent).report.queue = [ownSent, { okRecord with origin := 7 }] ∧
      (ownOffered ownSent ownSent).sup.mailbox = some ⟨ownSent, ago 200000⟩ ∧
      Calm (ownOffered { ownSent with count := 2, sentCount := 2 } { ownSent with count := 2, sentCount := 2 }) ∧
      Calm (ownOffered { ownSent with count := 2 } ownSent) ∧ { ownSent with count := 2 }.count ≠ ownSent.count ∧
      Calm (ownOffered { ownSent with trigger := 5 } ownSent) := by
  and_intros <;> first | decide +kernel | (unfold Hearing; decide +kernel) | (unfold Awake; decide +kernel)

def offHook1 (st : PortState) (s : State) : State := port1 (fun p => { p with state := st, offHook := true }) s

def breaking (n : Nat) (s : State) : State := port1 (fun p => { p with breakStart := some (ago n) }) s

theorem test_hyps_HookBreaksAndOnHook :
    Calm (offHook1 .dialing base) ∧ (offHook1 .dialing base).fitted .one = true ∧
      ((offHook1 .dialing base).port .one).offHook = true ∧ ((offHook1 .dialing base).port .one).breakStart = none ∧
      Calm base ∧ (base.port .one).offHook = false ∧ Calm (breaking 5599 (offHook1 .dialing base)) ∧
      elapsed present (ago 5599) < 5600 ∧ Calm (breaking 5600 (offHook1 .dialing base)) ∧
      5600 ≤ elapsed present (ago 5600) ∧ Calm (breaking 40000 (offHook1 .dialing base)) ∧
      elapsed present (ago 40000) ≤ 40000 ∧ Calm (breaking 40001 (talking base)) ∧
      Awake (breaking 40001 (talking base)) ∧ 40000 < elapsed present (ago 40001) ∧
      ((breaking 40001 (talking base)).port .one).callRef = some (.outside 2 9) ∧
      (breaking 40001 (talking base)).wire.control = [] ∧ Calm (breaking 40001 (intercom 5 base)) ∧
      ((breaking 40001 (intercom 5 base)).port .one).callRef = some (.intercom 5 1 4 5) ∧
      Calm (breaking 40001 (waits base)) ∧
      ((breaking 40001 (waits base)).port .one).outReq = some (reqTo .seize) ∧
      PortsOk (offHook1 .dialing base) ∧ PortsOk (breaking 40001 (talking base)) ∧
      PortsOk (breaking 40001 (intercom 5 base)) ∧ PortsOk (breaking 40001 (waits base)) ∧
      (breaking 40001 (talking base)).fitted .one = true ∧ Calm (breaking 40001 (offHook1 .cleared haltedBase)) ∧
      PortsOk (breaking 40001 (offHook1 .cleared haltedBase)) ∧ haltedBase.halted = true := by
  and_intros <;> first | decide +kernel | (unfold Hearing; decide +kernel) | (unfold Awake; decide +kernel)

def howling (s : State) : State :=
  { port1 (fun p => { p with state := .parked, offHook := true, howler := some (ago 1200000), tone := .howler }) s with
    fault := { s.fault with conds := s.fault.conds ||| 0x2000#16 } }

/-- Port 1 goes on-hook: its break has lasted more than 1 s. -/
def hangsUp (s : State) : State := breaking 40001 s

/-- Port 1 CONNECTED to the own holder's outside call, whose record is given. -/
def onOwnCall (r : CallRecord) (s : State) : State :=
  port1 (fun p => { p with state := .connected, offHook := true, callRef := some (.outside 3 9) }) (inCall r s)

/-- Port 1 OFFERING to port 2 of its own station, which rings. -/
def offersAtHome (s : State) : State :=
  (port1 (fun p =>
    { p with
      state := .offering, offHook := true, pending := some (.offered 3 2 (some 4)), ringBack := some (ago 9) })
    (port2 (fun p => { p with state := .ringing, pending := some (.offerFrom 3 1 4), ringOn := true }) s)).modCall
    fun c => { c with bindings := [⟨4, 3, 1, none, [.two], false⟩] }

/-- `n` frames wait in the control queue, a BEACON behind them if `beacon` says so. -/
def crowdedWire (n : Nat) (beacon : Bool) (s : State) : State :=
  s.modWire fun w =>
    { w with
      control := List.replicate n (entry (some 2) (.receipt 1 1)) ++ if beacon then [entry (some 0) .beacon] else [] }

/-- Port 1 WAITING for an answer that its own call controller has not given. -/
def waitsAtHome (s : State) : State :=
  port1 (fun p => { p with state := .waiting, offHook := true, outReq := some { reqTo .seize with dst := 3 } }) s

theorem test_hyps_HookBreaksAndOnHook_sent :
    Calm (hangsUp (offHook1 .cleared base)) ∧ Calm (hangsUp (howling base)) ∧ PortsOk (hangsUp (howling base)) ∧
      Calm (hangsUp (heldRequest (held .listen base))) ∧ PortsOk (hangsUp (heldRequest (held .listen base))) ∧
      Calm (hangsUp (offers none (some (reqTo .offer)) base)) ∧
      PortsOk (hangsUp (offers none (some (reqTo .offer)) base)) ∧
      Calm (hangsUp (offers none (some { reqTo .offer with held := true }) base)) ∧
      Calm (hangsUp (offers (some 4) none base)) ∧ PortsOk (hangsUp (offers (some 4) none base)) ∧
      ((hangsUp (offers (some 4) none base)).port .one).pending = some (.offered 5 1 (some 4)) ∧
      Calm (hangsUp (crowdedWire 7 true (talking base))) ∧ Calm (hangsUp (crowdedWire 8 false (talking base))) ∧
      (crowdedWire 7 true (talking base)).wire.control.length = 8 ∧ Calm (hangsUp (talking haltedBase)) := by
  and_intros <;> first | decide +kernel | (unfold Awake; decide +kernel)

/-- Inside the station: the last party and one of two at the holder, at a degraded one, with another reference and without
a record; an offer and a call between the own ports. -/
theorem test_hyps_HookBreaksAndOnHook_inside :
    Calm (hangsUp selfTalk) ∧ PortsOk (hangsUp selfTalk) ∧ Awake (hangsUp selfTalk) ∧
      selfTalk.call.record = some ownCall ∧ ((hangsUp selfTalk).port .one).callRef = some (.outside 3 9) ∧
      Calm (hangsUp (onOwnCall { ownCall with parties := [partyAt 3 1, partyAt 5 1] } holder)) ∧
      Calm (hangsUp (onOwnCall ownCall degradedHolder)) ∧ Awake (hangsUp (onOwnCall ownCall degradedHolder)) ∧
      (onOwnCall ownCall degradedHolder).hold.degraded = true ∧
      (onOwnCall ownCall degradedHolder).wire.control.length < 8 ∧
      Calm (hangsUp (onOwnCall { ownCall with id := 8 } holder)) ∧ Calm (hangsUp (waitsAtHome holder)) ∧
      PortsOk (hangsUp (waitsAtHome holder)) ∧ Calm (hangsUp (waitsAtHome (inCall ownCall holder))) ∧
      Calm (hangsUp (offersAtHome base)) ∧ PortsOk (hangsUp (offersAtHome base)) ∧
      Calm (hangsUp (household base)) ∧ PortsOk (hangsUp (household base)) := by
  and_intros <;> first | decide +kernel | (unfold Awake; decide +kernel)

/-- What an on-hook does inside the station: a degraded holder's last party yields the line, the offered port stops ringing,
and the other port of an intercom is cleared (R38, R103, R117, R122, R130). -/
theorem test_on_hook_inside :
    (after (.onHook .one) (hangsUp (onOwnCall ownCall degradedHolder))).hold.state = .yielding ∧
      (after (.onHook .one) (hangsUp selfTalk)).call.record = none ∧
      ((after (.onHook .one) (hangsUp (offersAtHome base))).port .two).state = .idle ∧
      ((after (.onHook .one) (hangsUp (household base))).port .two).state = .cleared ∧
      (after (.onHook .one) (hangsUp (household base))).wire.control = [] := by decide +kernel

/-- A LEAVE takes the place of a waiting BEACON in a full control queue, and is lost in one without (R11). -/
theorem test_on_hook_full_queue :
    (after (.onHook .one) (hangsUp (crowdedWire 7 true (talking base)))).wire.control.getLast?.map (·.body) =
        some (.request .leave ⟨1, (base.portCfg .one).cls.toNat, 0, 9, base.ports.tag⟩) ∧
      (after (.onHook .one) (hangsUp (crowdedWire 8 false (talking base)))).wire.control.length = 8 := by decide +kernel

theorem test_hyps_OffHookTaken :
    Calm base ∧ base.fitted .one = true ∧ (base.port .one).offHook = false ∧ (base.port .one).state = .idle ∧
      base.halted = false ∧ Calm inWatch ∧ inWatch.power.state = .watch ∧ (inWatch.port .one).offHook = false ∧
      Calm haltedBase ∧ haltedBase.halted = true ∧ Calm (ringsFor .exchange (held .listen base)) ∧
      ((ringsFor .exchange (held .listen base)).port .one).pending = some .exchange ∧
      Calm (ringsFor .exchange (follows base)) ∧ (ringsFor .exchange (follows base)).hold.state ≠ .listen ∧
      (ringsFor .exchange (follows base)).hold.known = some 2 ∧ (ringsFor .exchange (follows base)).wire.control = [] ∧
      Calm (ringsFor (.offerFrom 5 1 4) base) ∧ 5 ≠ (ringsFor (.offerFrom 5 1 4) base).own ∧ PortsOk base ∧
      PortsOk inWatch ∧ PortsOk haltedBase ∧ PortsOk (ringsFor .exchange (held .listen base)) ∧
      PortsOk (ringsFor .exchange (follows base)) ∧ PortsOk (ringsFor (.offerFrom 5 1 4) base) := by
  and_intros <;> first | decide +kernel | (unfold Hearing; decide +kernel) | (unfold Awake; decide +kernel)

/-- Both ports ring for the offer of 5/1. -/
def twoRing (s : State) : State :=
  (ringsFor (.offerFrom 5 1 4) (port2 (fun p =>
    { p with
      state := .ringing, pending := some (.offerFrom 5 1 4), ringOn := true, ringAt := ago 40000
      offerAt := some (ago 1200000) }) s)).modCall
    fun c => { c with bindings := [⟨4, 5, 1, some 7, [.one, .two], false⟩] }

/-- An ANSWER in a full queue and without a holder, an offer that both ports ring for, and the offer of the own port. -/
theorem test_hyps_OffHookTaken_offers :
    Calm (ringsFor .exchange (follows (crowdedWire 7 true base))) ∧
      PortsOk (ringsFor .exchange (follows (crowdedWire 7 true base))) ∧
      Calm (ringsFor .exchange (follows (crowdedWire 8 false base))) ∧
      PortsOk (ringsFor .exchange (follows (crowdedWire 8 false base))) ∧ Calm (ringsFor .exchange base) ∧
      PortsOk (ringsFor .exchange base) ∧ base.hold.known = none ∧ Calm (twoRing base) ∧ PortsOk (twoRing base) ∧
      (twoRing base).ports.two.pending = some (.offerFrom 5 1 4) ∧ (twoRing base).fitted .two = true ∧
      Calm (offersAtHome base) ∧ PortsOk (offersAtHome base) ∧ (offersAtHome base).fitted .two = true ∧
      ((offersAtHome base).port .two).offHook = false ∧
      ((offersAtHome base).port .two).pending = some (.offerFrom (offersAtHome base).own 1 4) ∧
      ((offersAtHome base).port .one).pending = some (.offered (offersAtHome base).own 2 (some 4)) := by
  and_intros <;> first | decide +kernel | (unfold Hearing; decide +kernel) | (unfold Awake; decide +kernel)

/-- An ANSWER that finds no room clears its port; an answered offer leaves the other port IDLE, or connects both ports of
the station (R11, R96, R99, R129). -/
theorem test_off_hook_answers :
    ((after (.hookRise .one) (ringsFor .exchange (follows (crowdedWire 8 false base)))).port .one).lastCause =
        some (.refused .noHolder) ∧
      ((after (.hookRise .one) (twoRing base)).port .two).state = .idle ∧
      (after (.hookRise .one) (twoRing base)).call.bindings = [⟨4, 5, 1, some 7, [.one], true⟩] ∧
      ((after (.hookRise .two) (offersAtHome base)).port .one).callRef = some (.intercom 3 2 4 3) ∧
      ((after (.hookRise .two) (offersAtHome base)).port .two).callRef = some (.intercom 3 1 4 3) := by decide +kernel

/-- The holder's own port answers: the ringing call, or, with no ringing recorded, under the checks of a SEIZE. -/
theorem test_hyps_OffHookTaken_own :
    Calm (ringingLine (ringsFor .exchange (gated holder))) ∧
      PortsOk (ringingLine (ringsFor .exchange (gated holder))) ∧
      (ringingLine (ringsFor .exchange (gated holder))).holding = true ∧
      (ringingLine (ringsFor .exchange (gated holder))).hold.known = some holder.own ∧
      Calm (ringsFor .exchange (deadLine holder)) ∧ PortsOk (ringsFor .exchange (deadLine holder)) ∧
      Calm (ringsFor .exchange degradedHolder) ∧ PortsOk (ringsFor .exchange degradedHolder) := by
  and_intros <;> first | decide +kernel | (unfold Hearing; decide +kernel) | (unfold Awake; decide +kernel)

/-- Port 1 DIALING, with its station digit if it has one and pulses counted. -/
def dials (d : Option Nat) (pulses : Nat) (s : State) : State :=
  port1 (fun p =>
    { p with
      state := .dialing, offHook := true, digit := d, digitAt := d.map fun _ => ago 120000, pulses := pulses
      pulseEnd := some (ago 10000), firstDigit := if d.isSome then none else some (ago 600000) }) s

theorem test_hyps_DigitsChooseCall :
    Calm (dials none 10 (follows base)) ∧ (dials none 10 (follows base)).fitted .one = true ∧
      ((dials none 10 (follows base)).port .one).state = .dialing ∧
      ((dials none 10 (follows base)).port .one).digit = none ∧
      ((dials none 10 (follows base)).port .one).pulses = 10 ∧
      ((dials none 10 (follows base)).port .one).breakStart = none ∧ 10000 ≤ elapsed present (ago 10000) ∧
      (dials none 10 (follows base)).hold.known = some 2 ∧ (dials none 10 (follows base)).wire.control = [] ∧
      Calm (dials none 0 (held .listen base)) ∧ Calm (dials none 0 base) ∧ (dials none 0 base).hold.known = none ∧
      Calm (dials (some 5) 0 (known5 base)) ∧ ((dials (some 5) 0 (known5 base)).port .one).digit = some 5 ∧
      (dials (some 5) 0 (known5 base)).peer 5 = some (peerOf 5 .passive none) ∧
      5 ≠ (dials (some 5) 0 (known5 base)).own ∧ 120000 ≤ elapsed present (ago 120000) ∧
      (dials (some 5) 0 base).peer 5 = none ∧ Calm (dials (some 5) 0 base) ∧ Calm (dials (some 3) 0 base) ∧
      (dials (some 3) 0 base).ports.one.digit = some (dials (some 3) 0 base).own ∧
      (dials (some 3) 0 base).cfg.portCount ≠ 2 ∧ Calm (dials (some 3) 0 (twoPorts base)) ∧
      (dials (some 3) 0 (twoPorts base)).ports.two.state = .idle ∧
      (dials (some 3) 0 (twoPorts base)).pins.fault2 = false := by
  and_intros <;> first | decide +kernel | (unfold Hearing; decide +kernel) | (unfold Awake; decide +kernel)

/-- A holder's own port dials 9: without a record, with one that it can join or is a party of, and where it is refused. -/
theorem test_hyps_DigitsChooseCall_own :
    Calm (dials none 9 holder) ∧ (dials none 9 holder).holding = true ∧
      (dials none 9 holder).hold.known = some (dials none 9 holder).own ∧ Calm (dials none 9 (deadLine holder)) ∧
      Calm (dials none 9 { gated holder with cfg := { (gated holder).cfg with stationClass := 1 } }) ∧
      Calm (dials none 9 (inCall oneParty holder)) ∧ Calm (dials none 9 (inCall ownCall holder)) ∧
      ownCall.has 3 1 = true ∧ Calm (dials none 9 (inCall fullCall holder)) ∧ Calm (dials none 9 degradedHolder) ∧
      Calm (dials none 9 (inCall { oneParty with priv := true } holder)) := by
  and_intros <;> first | decide +kernel | (unfold Hearing; decide +kernel) | (unfold Awake; decide +kernel)

/-- Bad digits at each end of their ranges; the port digit by pulses and by its absence, held in LISTEN, in a full queue,
and for the own station. -/
theorem test_hyps_DigitsChooseCall_target :
    Calm (dials none 0 base) ∧ Calm (dials none 11 base) ∧ Calm (dials (some 5) 3 base) ∧
      (dials (some 5) 3 base).ports.one.digit.isSome = true ∧ 11 ≤ (dials none 11 base).ports.one.pulses ∧
      3 ≤ (dials (some 5) 3 base).ports.one.pulses ∧ (3 : Fin 10).val ≠ 1 ∧ (3 : Fin 10).val ≠ 2 ∧
      Calm (dials (some 5) 2 (known5 base)) ∧ TargetSettled (.pulseCountClose .one) .one 2 (dials (some 5) 2 base) ∧
      TargetSettled (.toneDigitEvent .one (.digit 1)) .one 1 (dials (some 5) 0 base) ∧
      TargetSettled (.portDigitTimeout .one) .one 0 (dials (some 5) 0 base) ∧ PortsOk (dials (some 5) 2 (known5 base)) ∧
      Calm (dials (some 5) 0 (held .listen base)) ∧ Calm (dials (some 5) 0 (known5 (crowdedWire 8 false base))) ∧
      PortsOk (dials (some 5) 0 (known5 (crowdedWire 8 false base))) ∧ PortsOk (dials none 0 (follows base)) ∧
      Calm (dials (some 3) 0 (twoPorts base)) ∧ PortsOk (dials (some 3) 0 (twoPorts base)) := by
  and_intros <;> first
    | decide +kernel
    | exact .inl ⟨by decide, 1, rfl, rfl⟩
    | exact .inr (.inl ⟨by decide, rfl, by decide +kernel, by decide +kernel, ago 10000, by decide +kernel, by decide +kernel⟩)
    | exact .inr (.inr ⟨rfl, rfl, by decide +kernel, ago 120000, by decide +kernel, by decide +kernel⟩)

/-- Port 1 has counted `n` pulses. -/
def pulsed (n : Nat) (s : State) : State := port1 (fun p => { p with pulses := n, pulseEnd := some (ago 10000) }) s

/-- A party at the holder's own port dials and flashes. -/
theorem test_hyps_DigitsChooseCall_inside :
    Calm (pulsed 10 (onOwnCall ownCall holder)) ∧ Calm (breaking 5600 (onOwnCall ownCall holder)) ∧
      (onOwnCall ownCall holder).ports.one.callRef = some (.outside (onOwnCall ownCall holder).own ownCall.id) ∧
      (onOwnCall ownCall holder).call.record = some ownCall ∧ ownCall.has (onOwnCall ownCall holder).own 1 = true ∧
      (after (.pulseCountClose .one) (pulsed 10 (onOwnCall ownCall holder))).call.record.map (·.outpulse) =
        some (.breaking 9 2400 present) ∧
      (after (.hookRise .one) (breaking 5600 (onOwnCall ownCall holder))).call.record.map (·.outpulse) =
        some (.breaking 0 10000 present) := by
  and_intros <;> first | decide +kernel | (unfold Hearing; decide +kernel) | (unfold Awake; decide +kernel)

theorem test_hyps_DigitsChooseCall_outside :
    Calm (breaking 5600 (talking base)) ∧ ((talking base).port .one).state = .connected ∧ 2 ≠ (talking base).own ∧
      ((breaking 5600 (talking base)).port .one).breakStart = some (ago 5600) ∧
      5600 ≤ elapsed present (ago 5600) ∧ Calm (breaking 40000 (talking base)) ∧ elapsed present (ago 40000) ≤ 40000 ∧
      Calm (port1 (fun p => { p with pulses := 10, pulseEnd := some (ago 10000) }) (talking base)) ∧
      (port1 (fun p => { p with pulses := 10, pulseEnd := some (ago 10000) }) (talking base)).ports.one.pulses = 10 ∧
      10000 ≤ elapsed present (ago 10000) ∧ (talking base).wire.control = [] ∧ (talking base).halted = false := by
  and_intros <;> first | decide +kernel | (unfold Hearing; decide +kernel) | (unfold Awake; decide +kernel)

theorem test_hyps_PortTimersClear :
    Calm (dials none 0 base) ∧ Awake (dials none 0 base) ∧
      ((dials none 0 base).port .one).firstDigit = some (ago 600000) ∧ 600000 ≤ elapsed present (ago 600000) ∧
      Calm (waits base) ∧ ((waits base).port .one).outReq = some (reqTo .seize) ∧ (reqTo .seize).held = false ∧
      20000 ≤ elapsed present (reqTo .seize).made ∧ Calm (offers (some 4) none base) ∧
      ((offers (some 4) none base).port .one).ringBack = some (ago 1200000) ∧
      1200000 ≤ elapsed present (ago 1200000) ∧ (offers (some 4) none base).wire.control = [] ∧
      Calm (talking base) ∧ ((talking base).port .one).silence = some (ago 40000) ∧
      40000 ≤ elapsed present (ago 40000) ∧ Calm (intercom 5 base) ∧
      ((intercom 5 base).port .one).silence = some (ago 40000) ∧ Calm (howling base) ∧
      ((howling base).port .one).howler = some (ago 1200000) ∧ PortsOk (dials none 0 base) ∧
      PortsOk (waits base) ∧ PortsOk (offers (some 4) none base) ∧ PortsOk (talking base) ∧
      PortsOk (intercom 5 base) ∧ PortsOk (howling base) := by
  and_intros <;> first | decide +kernel | (unfold Hearing; decide +kernel) | (unfold Awake; decide +kernel)

/-- An offer to the own other port, not answered for 30 s. -/
def lateAtHome : State := port1 (fun p => { p with ringBack := some (ago 1200000) }) (offersAtHome base)

theorem test_hyps_PortTimersClear_local :
    Calm lateAtHome ∧ Awake lateAtHome ∧ PortsOk lateAtHome ∧
      (lateAtHome.port .one).pending = some (.offered lateAtHome.own 2 (some 4)) ∧
      (lateAtHome.port .one).ringBack = some (ago 1200000) ∧
      (after (.ringBackTimeout .one) lateAtHome).call.bindings = [] := by
  and_intros <;> first | decide +kernel | (unfold Awake; decide +kernel)

theorem test_hyps_RingingBeginsAndEnds :
    Calm base ∧ base.fitted .one = true ∧ base.interface = true ∧ (base.port .one).state = .idle ∧
      (base.portCfg .one).rings = true ∧ faultLevel base.pins .one = false ∧ base.halted = false ∧ Calm inWatch ∧
      Calm (ringsFor .exchange (ringingLine base)) ∧
      ((ringsFor .exchange (ringingLine base)).port .one).pending = some .exchange ∧
      (ringsFor .exchange (ringingLine base)).ports.ringing = some (ago 240000) ∧
      240000 ≤ elapsed present (ago 240000) ∧ Calm { base with interface := false } ∧
      Calm (bound false (ringsFor (.offerFrom 5 1 4) base)) ∧
      ((bound false (ringsFor (.offerFrom 5 1 4) base)).port .one).pending = some (.offerFrom 5 1 4) ∧
      ((bound false (ringsFor (.offerFrom 5 1 4) base)).port .one).offerAt = some (ago 1200000) ∧
      1200000 ≤ elapsed present (ago 1200000) ∧ PortsOk base ∧ PortsOk (ringsFor .exchange (ringingLine base)) ∧
      PortsOk (bound false (ringsFor (.offerFrom 5 1 4) base)) := by
  and_intros <;> first | decide +kernel | (unfold Hearing; decide +kernel) | (unfold Awake; decide +kernel)

def pausedRing (s : State) : State := port1 (fun p => { p with ringOn := false, ringAt := ago 80000 }) s

def busyTone (s : State) : State :=
  port1 (fun p => { p with state := .cleared, offHook := true, tone := .busy, toneAt := ago 20000 }) s

/-- Port 1 plays a tone, in a step of its cadence that began `n` ticks ago. -/
def toned (t : Tone) (step n : Nat) (s : State) : State :=
  port1 (fun p => { p with tone := t, toneStep := step, toneAt := ago n }) s

/-- A record of severity 1 is SENT. -/
def alarmed (s : State) : State :=
  s.modFault fun m => { m with list := [{ ownSent with severity := 1 }], lamp := .steady }

theorem test_hyps_CadencesAndLoopFaults :
    Calm (ringsFor .exchange base) ∧ ((ringsFor .exchange base).port .one).pending = some .exchange ∧
      ((ringsFor .exchange base).port .one).ringOn = true ∧ 40000 ≤ elapsed present (ago 40000) ∧
      Calm (ringsFor (.offerFrom 5 1 4) base) ∧ Calm (pausedRing (ringsFor (.offerFrom 5 1 4) base)) ∧
      ((pausedRing (ringsFor (.offerFrom 5 1 4) base)).port .one).ringOn = false ∧
      80000 ≤ elapsed present (ago 80000) ∧ Calm (busyTone base) ∧ (toneSteps .busy)[0]? = some 20000 ∧
      ((busyTone base).port .one).tone = .busy ∧ 20000 ≤ elapsed present (ago 20000) ∧ base.fitted .one = true ∧
      ((busyTone base).port .one).toneStep = 0 ∧ Calm (alarmed (toned .stutter 1 4000 base)) ∧
      Calm (toned .busy 1 20000 base) ∧ Calm (toned .ringBack 0 40000 base) ∧ Calm (toned .ringBack 1 80000 base) ∧
      Calm (toned .howler 1 10000 base) ∧ Calm (toned .fault 3 50000 base) ∧
      ((toned .fault 3 50000 base).port .one).toneStep = 3 ∧ 50000 ≤ elapsed present (ago 50000) := by
  and_intros <;> first | decide +kernel | (unfold Hearing; decide +kernel) | (unfold Awake; decide +kernel)

def seizing : CallRecord := { oneParty with seized := false, seize := some (ago 40000) }

/-- A SEIZED call without loop current. -/
def losing (s : State) : State :=
  { s with call := { s.call with record := some { oneParty with loss := some (ago 16000) } } }

/-- On battery and degraded, its record kept. -/
def degrading (s : State) : State := (onBattery s).modHold fun h => { h with degraded := true }

def sendingItem (o : Outpulse) (l : List DialItem) : CallRecord := { oneParty with outpulse := o, queue := l }

theorem test_hyps_ExchangeLoop :
    Calm (inCall seizing holder) ∧ (inCall seizing holder).call.record = some seizing ∧ seizing.seized = false ∧
      (inCall seizing holder).holding = true ∧ seizing.queue = [] ∧ Calm (inCall oneParty holder) ∧
      oneParty.seized = true ∧ Calm (inCall (sendingItem (.breaking 2 2400 (ago 2400)) []) holder) ∧
      2400 ≤ elapsed present (ago 2400) ∧ Calm (inCall (sendingItem (.breaking 0 10000 (ago 10000)) []) holder) ∧
      Calm (inCall (sendingItem (.making 2 (ago 1600)) []) holder) ∧ 1600 ≤ elapsed present (ago 1600) ∧
      Calm (inCall (sendingItem (.pausing (ago 28000)) []) holder) ∧ 28000 ≤ elapsed present (ago 28000) ∧
      Calm (inCall (sendingItem (.pausing (ago 28000)) [.digit 0]) holder) ∧
      Calm (inCall (sendingItem (.pausing (ago 28000)) [.flash]) holder) ∧
      (sendingItem (.pausing (ago 28000)) [.flash]).seized = true ∧
      Calm (inCall { seizing with queue := [.digit 0, .flash] } holder) ∧
      Calm (inCall { seizing with queue := [.flash] } holder) ∧ seizing.outpulse = .idle ∧
      Calm (inCall { seizing with queue := [.flash], outpulse := .pausing present } holder) ∧
      Outpulse.pausing present ≠ .idle := by
  and_intros <;> first | decide +kernel | (unfold Hearing; decide +kernel) | (unfold Awake; decide +kernel)

theorem test_hyps_RecordEnds :
    Calm (joined oneParty holder) ∧ Hearing (joined oneParty holder) frameStart ∧
      ForUs (joined oneParty holder) okHeader ∧ Familiar (joined oneParty holder) okHeader ∧
      (joined oneParty holder).hold.degraded = false ∧ okRequest.ref = 0 ∧ Calm (joined fullCall holder) ∧
      fullCall.parties.all (fun p => decide (p.station = 5) && decide (p.port = 1)) = false ∧
      { okRequest with ref := 8 }.ref ≠ oneParty.id ∧ Calm (hears (known5 base)) ∧
      (hears (known5 base)).call.record = none ∧ Calm (inCall seizing holder) ∧
      seizing.seize = some (ago 40000) ∧ 40000 ≤ elapsed present (ago 40000) ∧
      (inCall seizing holder).wire.control = [] ∧ (inCall seizing holder).hold.degraded = false ∧
      Calm (losing holder) ∧ 16000 ≤ elapsed present (ago 16000) ∧ partyAt 5 1 ∈ fullCall.parties ∧
      40000 ≤ elapsed present (partyAt 5 1).silence := by
  and_intros <;> first | decide +kernel | (unfold Hearing; decide +kernel) | (unfold Awake; decide +kernel)

/-- A call of three, the second party at the holder's own port. -/
def mixedCall : CallRecord := { ownCall with parties := [partyAt 5 1, partyAt 3 1, partyAt 2 2] }

def mixedSeizing : CallRecord := { mixedCall with seized := false, seize := some (ago 40000) }

/-- A record with a party at the holder's own port: a failed seize, that party's silence, and a degraded holder's. -/
theorem test_hyps_RecordEnds_own :
    Calm (onOwnCall mixedSeizing holder) ∧ partyAt 3 1 ∈ mixedSeizing.parties ∧
      (partyAt 3 1).station = (onOwnCall mixedSeizing holder).own ∧ (partyAt 3 1).port = portNo .one ∧
      ((onOwnCall mixedSeizing holder).port .one).callRef = some (.outside 3 mixedSeizing.id) ∧
      Calm (onOwnCall mixedCall holder) ∧ PortsOk (onOwnCall mixedCall holder) ∧
      40000 ≤ elapsed present (partyAt 3 1).silence ∧ Calm (onOwnCall ownCall degradedHolder) ∧
      (onOwnCall ownCall degradedHolder).wire.control.length ≤ 4 ∧
      Calm (onOwnCall { ownCall with seized := false, seize := some (ago 40000) } degradedHolder) := by
  and_intros <;> first | decide +kernel | (unfold Hearing; decide +kernel) | (unfold Awake; decide +kernel)

/-- The holder's own port is CLEARED without a frame, and the others are told in the order of the list (R120, R122). -/
theorem test_own_party_cleared :
    ((after .seizeTimeout (onOwnCall mixedSeizing holder)).port .one).lastCause = some (.cleared .lineFault) ∧
      (after .seizeTimeout (onOwnCall mixedSeizing holder)).wire.control.map (·.body) =
        [.clear ⟨9, 1, .lineFault⟩, .clear ⟨9, 2, .lineFault⟩] ∧
      ((after (.partySilenceTimeout 3 1) (onOwnCall mixedCall holder)).port .one).lastCause =
        some (.cleared .partyLimit) ∧
      (after (.partySilenceTimeout 3 1) (onOwnCall mixedCall holder)).wire.control = [] := by decide +kernel

theorem test_hyps_RecordEnds_recordOk : RecordOk (inCall seizing holder) := (test_recordOk seizing (by decide)).1

/-- A degraded holder whose only party leaves, and one whose loop current has been gone for 400 ms. -/
theorem test_hyps_RecordEnds_degraded :
    Calm (hears (known5 degradedHolder)) ∧ (hears (known5 degradedHolder)).call.record = some oneParty ∧
      (hears (known5 degradedHolder)).hold.degraded = true ∧ (hears (known5 degradedHolder)).wire.control = [] ∧
      oneParty.parties.all (fun p => decide (p.station = okHeader.src) && decide (p.port = okRequest.port)) = true ∧
      Calm (degrading (losing holder)) ∧ (degrading (losing holder)).hold.degraded = true ∧
      (degrading (losing holder)).call.record.map (·.loss) = some (some (ago 16000)) ∧
      RecordOk (hears (known5 degradedHolder)) ∧ RecordOk (degrading (losing holder)) := by
  have ok (s : State) (r : CallRecord) (h : s.phase = .running) (hr : s.call.record = some r)
      (hs : s.hold.state = .holding) (hp : 1 ≤ r.parties.length ∧ r.parties.length ≤ 3) : RecordOk s := by
    refine ⟨fun h' => (by rw [h] at h'; cases h'), fun q hq => ?_⟩
    rw [hr] at hq; cases hq
    exact ⟨hs, hp⟩
  refine ⟨?_, ?_, ?_, ?_, ?_, ?_, ?_, ?_, ok _ oneParty rfl rfl rfl (by decide),
    ok _ { oneParty with loss := some (ago 16000) } rfl rfl rfl (by decide)⟩ <;> and_intros <;> decide +kernel

def testing (n : Nat) (l : List Bool) (hours : Nat) : State :=
  { holder with
    fault := { holder.fault with test := some ⟨n, l, ago 40000⟩ }
    cfg := { holder.cfg with testInterval := hours } }

theorem test_hyps_TestStepsComplete :
    Calm (testing 1 [] 6) ∧ (testing 1 [] 6).holding = true ∧
      (testing 1 [] 6).fault.test = some ⟨1, [], ago 40000⟩ ∧ 40000 ≤ elapsed present (ago 40000) ∧
      Calm (testing 3 [true, false] 0) ∧ Calm (testing 3 [true, false] 12) ∧ Calm (testing 3 [true, false] 13) ∧
      (testing 3 [true, false] 12).cfg.testInterval ≤ 12 ∧ 12 < (testing 3 [true, false] 13).cfg.testInterval := by
  and_intros <;> first | decide +kernel | (unfold Hearing; decide +kernel) | (unfold Awake; decide +kernel)

/-- One trigger, number 6, enabled; the rest disabled. -/
def lonely (r : TrigRun) (v : BitVec 16) (s : State) : State :=
  { s with
    cfg := { s.cfg with triggers := (List.replicate 8 ⟨0#16, false, false, 3, false⟩).set 6 (anyTrig 0x6000#16) }
    fault := { s.fault with conds := v, runs := (List.replicate 8 ⟨false, true, false⟩).set 6 r } }

theorem test_hyps_TriggerRiseAndFall_only (m : Nat) (u : TrigCfg)
    (h : (lonely ⟨false, true, false⟩ 0#16 base).cfg.triggers[m]? = some u) (hm : m ≠ 6) : u.enabled = false := by
  change ((List.replicate 8 (⟨0#16, false, false, 3, false⟩ : TrigCfg)).set 6 (anyTrig 0x6000#16))[m]? = some u at h
  rw [List.getElem?_set_ne (Ne.symm hm), List.getElem?_replicate] at h
  split at h
  · cases h; rfl
  · cases h

theorem test_hyps_TriggerRiseAndFall :
    (lonely ⟨false, true, false⟩ 0#16 base).cond .portParked ≠ true ∧
      (lonely ⟨false, true, false⟩ 0#16 base).cfg.triggers[6]? = some (anyTrig 0x6000#16) ∧
      (lonely ⟨false, true, false⟩ 0#16 base).fault.runs[6]? = some ⟨false, true, false⟩ ∧
      (anyTrig 0x6000#16).enabled = true ∧ exprValue (anyTrig 0x6000#16) (writeCond 0#16 .portParked true) = true ∧
      (lonely ⟨false, true, false⟩ 0#16 base).fault.list.length < 16 ∧
      (lonely ⟨false, false, false⟩ 0#16 base).fault.runs[6]? = some ⟨false, false, false⟩ ∧
      (lonely ⟨false, false, false⟩ 0#16 base).holding = false ∧
      (lonely ⟨true, false, true⟩ 0x2000#16 base).cond .portParked ≠ false ∧
      exprValue (anyTrig 0x6000#16) (writeCond 0x2000#16 .portParked false) = false ∧
      (lonely ⟨true, false, true⟩ 0x2000#16 base).fault.runs[6]? = some ⟨true, false, true⟩ ∧
      exprValue (anyTrig 0x6000#16) (writeCond 0x2000#16 .portShort true) = true := by
  and_intros <;> first | decide +kernel | (unfold Hearing; decide +kernel) | (unfold Awake; decide +kernel)

/-- A full fault list: sixteen records of trigger 2 in a state and with a severity. -/
def crowded (st : RecordState) (severity : Nat) (s : State) : State :=
  s.modFault fun m => { m with list := List.replicate 16 { okRecord with trigger := 2, state := st, severity := severity } }

def ofSeverity (n : Nat) (s : State) : State :=
  { s with cfg := { s.cfg with triggers := s.cfg.triggers.set 6 { anyTrig 0x6000#16 with severity := n } } }

/-- The holder's own SENT record and its entry in the report queue. -/
def countsAtHolder : State :=
  (lonely ⟨false, false, false⟩ 0#16 (holder.modReport fun p => { p with queue := [ownSent] })).modFault fun m =>
    { m with list := [ownSent] }

theorem test_hyps_TriggerRiseAndFall_full :
    16 ≤ (crowded .reported 3 (lonely ⟨false, true, false⟩ 0#16 base)).fault.list.length ∧
      (crowded .reported 3 (lonely ⟨false, true, false⟩ 0#16 base)).fault.list.head?.map (·.state) = some .reported ∧
      (ofSeverity 2 (crowded .new 3 (lonely ⟨false, true, false⟩ 0#16 base))).fault.list.all
        (fun y => decide (y.state ≠ .reported)) = true ∧
      (ofSeverity 2 (crowded .new 3 (lonely ⟨false, true, false⟩ 0#16 base))).cfg.triggers[6]? =
        some { anyTrig 0x6000#16 with severity := 2 } ∧
      (ofSeverity 2 (crowded .new 3 (lonely ⟨false, true, false⟩ 0#16 base))).fault.runs[2]? =
        some ⟨false, true, false⟩ ∧
      (ofSeverity 2 (crowded .new 2 (lonely ⟨false, true, false⟩ 0#16 base))).fault.list.all
        (fun y => decide (¬ (y.state = .new ∧ y.severity = 3))) = true ∧
      countsAtHolder.cond .portParked ≠ true ∧ countsAtHolder.holding = true ∧
      countsAtHolder.fault.list = [ownSent] ∧ ownSent.trigger = 6 ∧ ownSent.state = .sent ∧
      countsAtHolder.fault.runs[6]? = some ⟨false, false, false⟩ ∧
      countsAtHolder.report.queue.any (fun e =>
        decide (ownSent.origin = e.origin) && decide (ownSent.trigger = e.trigger)) = true := by
  and_intros <;> decide +kernel

theorem test_hyps_FallRearmsTrigger :
    (lonely ⟨true, false, true⟩ 0#16 base).cfg.triggers[6]? = some (anyTrig 0x6000#16) ∧
      (lonely ⟨true, false, true⟩ 0#16 base).fault.runs[6]? = some ⟨true, false, true⟩ ∧
      (anyTrig 0x6000#16).enabled = true ∧ exprValue (anyTrig 0x6000#16) 0#16 = false ∧
      (lonely ⟨true, false, false⟩ 0#16 base).fault.runs[6]? = some ⟨true, false, false⟩ := by
  and_intros <;> first | decide +kernel | (unfold Hearing; decide +kernel) | (unfold Awake; decide +kernel)

def blinking (n : Nat) : State := (reporting base).modFault fun m => { m with lampStep := n, lampAt := ago 40000 }

theorem test_hyps_LampFollowsWorst :
    Calm base ∧ Calm haltedBase ∧ haltedBase.fault.lamp = .double ∧ Calm (blinking 1) ∧
      (lampSteps (blinking 1).fault.lamp)[(blinking 1).fault.lampStep]? = some 40000 ∧
      40000 ≤ elapsed present (blinking 1).fault.lampAt := by
  and_intros <;> first | decide +kernel | (unfold Hearing; decide +kernel) | (unfold Awake; decide +kernel)

/-- The double flash at each end of its long dark part. -/
def flashing (n : Nat) : State := haltedBase.modFault fun m => { m with lampStep := 3, lampAt := ago n }

theorem test_hyps_LampFollowsWorst_double :
    Calm (flashing 56000) ∧ (flashing 56000).fault.lamp = .double ∧ (flashing 56000).fault.lampStep = 3 ∧
      56000 ≤ elapsed present (flashing 56000).fault.lampAt ∧ Calm (flashing 55999) ∧
      elapsed present (flashing 55999).fault.lampAt < 56000 ∧ haltedBase.fault.lampStep = 0 ∧
      base.fault.lamp = .off := by
  and_intros <;> first | decide +kernel | (unfold Hearing; decide +kernel) | (unfold Awake; decide +kernel)

def bursted (n : Nat) : State := holder.modFault fun m => { m with lastBurst := some (ago n) }

def answering (waits : List SvcWait) (restart : Bool) (s : State) : State :=
  s.modSvc fun _ => ⟨some (.accepted .restart), waits, restart⟩

theorem test_hyps_RequestsAnswered :
    Calm base ∧ base.svc.sending = none ∧ base.holding = false ∧ Calm (testing 1 [] 6) ∧
      (testing 1 [] 6).fault.test.isSome = true ∧ Calm (inCall oneParty holder) ∧
      (inCall oneParty holder).call.record.isSome = true ∧ Calm (bursted 400000) ∧
      elapsed present (ago 400000) ≤ 400000 ∧ Calm (bursted 400001) ∧ Calm holder ∧ holder.svc.sending = none := by
  and_intros <;> first | decide +kernel | (unfold Hearing; decide +kernel) | (unfold Awake; decide +kernel)

theorem test_hyps_ServiceOneAtATime :
    Calm (answering [] false base) ∧ (answering [] false base).svc.sending = some (.accepted .restart) ∧
      (answering [] false base).svc.waiting = [] ∧ svcRequest (.forget 8) = some (.forget 8) ∧
      Calm (answering [⟨.tracks, true⟩, ⟨.calls, false⟩] false base) ∧ Calm (answering [] true base) ∧
      (answering [] true base).svc.restart = true ∧ Calm (answering [⟨.faults, true⟩] false base) ∧
      svcRequest .faults = some .faults ∧ (answering [⟨.faults, true⟩] false base).svc.waiting = [⟨.faults, true⟩] ∧
      Calm (answering [⟨.faults, false⟩] false base) ∧
      (answering [⟨.faults, false⟩] false base).svc.waiting = [⟨.faults, false⟩] ∧ State.reset.phase = .startUp ∧
      State.reset.svc.sending = none ∧ SvcReq.faults ≠ .status ∧ SvcReq.faults ≠ .restart ∧
      (inWindow 0).phase = .running ∧ (inWindow 0).power.window.isSome = true ∧ (stopChip base).phase = .stopped ∧
      (svcRequest .status).isSome = true := by
  and_intros <;> first | decide +kernel | (unfold Hearing; decide +kernel) | (unfold Awake; decide +kernel)

/-- A tick at a settled station: both ends of `CalmKept` are met. -/
theorem test_hyps_CalmKept : Calm haltedBase ∧ step haltedBase = .next (tick haltedBase) ∧
      (tick haltedBase).active = true := by
  refine ⟨?_, rfl, rfl⟩
  and_intros <;> decide +kernel

theorem test_hyps_BoundsKept :
    Starting State.reset ∧ QueueBounds base ∧ TracksOk (noisy 40 15 base) ∧ base.fault.list.length ≤ 16 ∧
      base.report.queue.length ≤ 24 ∧ (queued 24).report.queue.length ≤ 24 ∧ PortsOk (household base) := by
  and_intros <;> first | decide +kernel | (unfold Hearing; decide +kernel) | (unfold Awake; decide +kernel)

theorem test_hyps_RosterOkKept : RosterOk (follows base) ∧ WellFormed (.claim okHeader 1#16) = true := by
  refine ⟨⟨by decide, by decide, by decide +kernel, ?_⟩, by decide⟩
  intro p hp
  have hp' : p ∈ [peerOf 2 .holding (some okBlock), peerOf 5 .passive none] := hp
  simp only [List.mem_cons, List.not_mem_nil, or_false] at hp'
  rcases hp' with h | h <;> subst h <;> decide

/-! ## The spec's worked examples, a step at a time -/

/-- 03, event 3: the third impulse forms slot A. -/
theorem test_noise_formation :
    (after .impulseDetect
      { base with now := 195990#32, noise := ⟨none, none, [100000#32, 148010#32], some 148010#32, 2⟩ }).noise =
    ⟨some ⟨383960, 243985#32, 3, false, none, false, false⟩, none, [], some 195990#32, 3⟩ := by decide +kernel

/-- 03, event 4: a hit makes it LOCKED. -/
theorem test_noise_hit :
    (after .impulseDetect
      { base with
        now := 244003#32, noise := ⟨some ⟨383960, 243985#32, 3, false, none, false, false⟩, none, [], none,
          3⟩ }).noise.a =
    some ⟨383978, 292000#32, 4, false, none, false, false⟩ := by decide +kernel

/-- 03, event 7: the skipped beat. -/
theorem test_noise_miss :
    (after (.captureExpiry .a)
      { base with
        now := 292040#32, noise := ⟨some ⟨383978, 292000#32, 4, false, none, false, false⟩, none, [], none,
          4⟩ }).noise.a =
    some ⟨383978, 339997#32, 2, true, none, false, false⟩ := by decide +kernel

/-- 03, event 11: a track is borrowed into slot B. -/
theorem test_noise_borrow :
    (takeTrack 4 365000#32
      { base with
        now := 365003#32, noise := ⟨some ⟨383971, 387986#32, 4, false, none, false, false⟩, none, [], none, 4⟩ }
      okTrack).noise.b = some ⟨320000, 385000#32, 4, false, some ⟨4, 365000#32⟩, false, false⟩ := by decide +kernel

/-- 01: the last start of a VOICE frame before the window at 292 000, and one that is blocked. -/
theorem test_gate_voice :
    blocks 291972#32 15 (some (lockedTrack 292000#32)) = false ∧
      blocks 291974#32 15 (some (lockedTrack 292000#32)) = true ∧
      blocks 291862#32 125 (some (lockedTrack 292000#32)) = false ∧
      blocks 292021#32 125 (some (lockedTrack 292000#32)) = false := by decide +kernel

/-- R53: two windows that coincide close at one moment as one span: one round opens, and a frame that sits rounds out
counts it once. -/
theorem test_one_span :
    (after .impulseDetect bothHit).wire.control.map (·.sitOut) = [1] ∧
      (after (.quietWindowClose .b) (after (.quietWindowClose .a) { bothHit with now := present + ticks 33
        })).wire.control.map (·.sitOut) = [1] ∧
      (after (.quietWindowClose .a) { bothHit with now := present + ticks 1 }).wire.round = none := by decide +kernel

/-- R101: ring-back sounds for 1 s, and then is silent for 2 s. -/
theorem test_ring_back_off :
    (toned .ringBack 0 40000 base).tonePlayed .one = .ringBack ∧
      (after (.toneCadence .one) (toned .ringBack 0 40000 base)).tonePlayed .one = .silent ∧
      (after (.toneCadence .one) (toned .ringBack 1 79999 base)).tonePlayed .one = .silent ∧
      (after (.toneCadence .one) (toned .ringBack 1 80000 base)).tonePlayed .one = .ringBack := by decide +kernel

/-- 04, step 13: the third loss within 15 min steps down. -/
theorem test_third_loss :
    let t := after .syncFall { lossy [ago 24000000, ago 12000000] with pins := { pins3 with sync := true } }
    t.sup.state = .lost ∧ t.sup.stored = 2 ∧ t.sup.losses = [] ∧ t.cond .syncUnstable = true := by decide +kernel

/-- 04, steps 2 and 4: the failed trainings and their waits. -/
theorem test_second_failure :
    let t := after .trainingTimeout ((supIn .training 3600000 holder).modSup fun u => { u with step := 1 })
    t.sup.state = .backoff ∧ t.sup.backoffLen = 800000 ∧ t.sup.step = 2 ∧ t.cond .trainFail = true := by decide +kernel

/-- 08, step 5: a rise while SENT counts. -/
theorem test_coalesce :
    ((setCond .portShort true
      { reporting base with
        fault := { (reporting base).fault with runs := (List.replicate 8 ⟨false, true, false⟩).set 6 ⟨false, false,
          false⟩ } }
      ).fault.list.map fun r => (r.count, r.sentCount)) = [(2, 1)] := by decide +kernel

/-- 08, step 7: a RECEIPT for the earlier count makes the record NEW again. -/
theorem test_receipt_late :
    ((judgeReceipt 6 1
      ((reporting base).modFault fun m => { m with list := [{ ownSent with count := 2 }] })).fault.list.map (·.state)) =
    [.new] := by decide +kernel

/-- 10, steps 2 to 4: a bad record halts the station with CONFIG_BAD, double flash and a HALT. -/
theorem test_start_with_bad_record :
    let t := after (.configurationReadEnd (.answered (word 36)) true) (starting { pins3 with straps := ⟨5, true⟩ })
    t.own = 5 ∧ t.hold.state = .halted ∧ t.hold.halt = some .configBad ∧ t.power.state = .full ∧
      t.fault.lamp = .double ∧ t.wire.control.map (·.body) = [.halt] ∧ t.ports.one.state = .idle := by decide +kernel

/-- R178: byte 4 is ignored when the port count is 1, and gives port 2 its class when it is 2. -/
theorem test_port2_byte :
    (cfgRead (goodBytes.set 4 3#8)).port2 = (cfgRead goodBytes).port2 ∧
      (cfgRead ((goodBytes.set 1 2#8).set 4 3#8)).port2 = ⟨3#2, false⟩ := by decide +kernel

/-- R108: a missing frame is concealed once, truncated toward zero, then silence. -/
theorem test_concealment :
    ((buffered (some 5#8) 0).draw.1 = quietFrame) ∧ halve 0xFFFD#16 = 0xFFFF#16 ∧ halve 3#16 = 1#16 := by
  decide +kernel

/-- R15, R16: a draw from one choice is 0. -/
theorem test_draw_of_one (d : Nat) : drawBelow 1 d = 0 := rfl

/-- Every draw lies below its bound. -/
theorem test_draw_in_bound (b d : Nat) (h : 0 < b) : drawBelow b d < b := by
  unfold drawBelow
  split
  · exact h
  · exact Nat.mod_lt _ h

/-- A hook that closes for 100 ms counts a pulse; the count closes 250 ms later. -/
theorem test_pulse_dialling :
    (after (.hookRise .one) (breaking 4000 (dials none 0 base))).ports.one.pulses = 1 ∧
      (after (.pulseCountClose .one) (dials none 5 (known5 base))).ports.one.digit = some 5 := by decide +kernel

/-- The tick that comes next. -/
def soon (s : State) : State := { s with now := s.now + 1 }

/-- Each timer puts its command in the queue at the tick at which it runs out, and not at the one before. -/
theorem test_hyps_EmptyQueueTicks_timers :
    timerRunOut (soon (holdTimer (fun h => { h with noHolder := some (ago 1199999) }) base)) .noHolderTimeout = true ∧
      timerRunOut (soon (holdTimer (fun h => { h with noHolder := some (ago 1199998) }) base)) .noHolderTimeout = false ∧
      timerRunOut (soon (inWindow 799)) .lastGaspWindowEnd = true ∧
      timerRunOut (soon (inWindow 798)) .lastGaspWindowEnd = false ∧
      timerRunOut (soon (breaking 40000 (offHook1 .dialing base))) (.onHook .one) = true ∧
      timerRunOut (soon (breaking 39999 (offHook1 .dialing base))) (.onHook .one) = false ∧
      timerRunOut (soon base) .noHolderTimeout = false ∧ intervalTap .noHolderTimeout = false := by
  and_intros <;> decide +kernel

/-- R149: a test interval of 13 hours is waited in two parts. -/
theorem test_long_interval : dueAfter present 13 = (some (present + ticks 1728000000), 144000000) := by decide +kernel

/-- R175: a stopped chip keeps no time and RESET begins a power-up. -/
theorem test_stopped_chip :
    (tick (stopChip base)).now = (stopChip base).now ∧ (resetChip ⟨0, false⟩ (stopChip base)).phase = .startUp ∧
      (resetChip ⟨0, false⟩ (stopChip base)).own = 8 := by decide +kernel

/-- R164: the interval taps fall on the multiples of their intervals. -/
theorem test_taps :
    tapsAt 400000#32 = ⟨true, true, true⟩ ∧ tapsAt 40000#32 = ⟨true, true, false⟩ ∧
      tapsAt 400#32 = ⟨true, false, false⟩ ∧ tapsAt 401#32 = ⟨false, false, false⟩ ∧
      (dueTaps (tapped base)).length = 3 ∧ dueTaps base = [] := by decide +kernel

/-- R85: a time of entry to SYNCED is kept for 15 min, so that a signed difference to it never overflows (log 18). -/
theorem test_synced_forgotten :
    (after .tap10s (tapped (syncedSince (some (ago 36000000))))).sup.syncedAt = some (ago 36000000) ∧
      (after .tap10s (tapped (syncedSince (some (ago 36000001))))).sup.syncedAt = none := by decide +kernel

/-- A battery that recovers after the stop: RESET then begins a start that does not stop (R165, log 16). -/
theorem test_battery_recovers :
    let dead := stopChip { base with pins := { pins3 with battEmpty := true } }
    let go := fun s => after (.configurationReadEnd .absent true) (resetChip ⟨3, true⟩ s)
    (go dead).power.state = .stop ∧ (go (after (.batteryLowChange .emptyFell) dead)).power.state = .full := by
  decide +kernel

/-- A fall of SEND-OK between transfers: the next frame waits (R81, log 17). -/
theorem test_send_ok_falls :
    let t := after (.upstreamTransferEnd .sendOkFell) (uplinked 0 true)
    (after (.packetReceive (word 14)) t).sup.uplink = [word 14] ∧
      (after (.packetReceive (word 14)) (uplinked 0 true)).sup.upTransfer = some (word 14) := by decide +kernel

/-- R169: a frame in transmission completes before the front end goes down (log 37). -/
theorem test_front_end_waits :
    let t := after .mainsPresentFall (lowBattery (sending .beacon base))
    t.power.state = .watch ∧ t.power.frontEnd = .closing ∧ t.wire.tx.isSome = true ∧
      (after .transmissionEnd t).power.frontEnd = .down := by decide +kernel

/-- R13: a restart lets the frame in transmission complete, flushed, and no block is told of its end (log 54). -/
theorem test_restart_lets_frame_complete :
    (after .transmissionEnd outlived).wire.tx = none ∧ (after .transmissionEnd outlived).power.frontEnd = .down ∧
      (after .transmissionEnd outlivedRuns).wire.control = [] ∧ (after .transmissionEnd outlivedRuns).outs = [] := by
  decide +kernel

/-- R86: the timer withdraws the offer and the next one stands; the answer to the first, at the same instant, is ignored. -/
theorem test_late_answer_ignored :
    let t := after .mailboxTimeout (offered okRecord)
    let u := after .mailboxDelivered t
    t.sup.mailbox.map (·.record.origin) = some 7 ∧ u.sup.mailbox = t.sup.mailbox ∧ u.report = t.report ∧
      u.outs = [] ∧ u.sup.late = 0 := by decide +kernel

end Sys2Proof.Tests
end

section
/-! PROOFS. The farm wire's layouts: a frame of well-formed contents is read back as it was sent, a changed check fails
it, and its airtime in ticks (01: R1 to R7, R19). -/

namespace Sys2Proof.Machine

open Sys2Proof

/-! ## Bytes -/

theorem toNat_byteOf {n : Nat} (h : byteOk n = true) : (byteOf n).toNat = n := by
  simp only [byteOk, decide_eq_true_eq] at h
  simp [byteOf, Nat.mod_eq_of_lt h]

theorem byteOf_toNat (b : Byte) : byteOf b.toNat = b := by simp [byteOf]

theorem rd16_le16 (w : BitVec 16) : rd16 (w.extractLsb' 0 8) (w.extractLsb' 8 8) = w := by
  apply BitVec.eq_of_getLsbD_eq
  intro i hi
  rw [rd16, BitVec.getLsbD_append]
  simp only [BitVec.getLsbD_extractLsb']
  grind

theorem rd24_le24 (w : BitVec 24) :
    rd24 (w.extractLsb' 0 8) (w.extractLsb' 8 8) (w.extractLsb' 16 8) = w := by
  apply BitVec.eq_of_getLsbD_eq
  intro i hi
  rw [rd24, BitVec.getLsbD_append, BitVec.getLsbD_append]
  simp only [BitVec.getLsbD_extractLsb']
  grind

theorem rd32_le32 (w : BitVec 32) :
    rd32 (w.extractLsb' 0 8) (w.extractLsb' 8 8) (w.extractLsb' 16 8) (w.extractLsb' 24 8) = w := by
  apply BitVec.eq_of_getLsbD_eq
  intro i hi
  rw [rd32, BitVec.getLsbD_append, BitVec.getLsbD_append, BitVec.getLsbD_append]
  simp only [BitVec.getLsbD_extractLsb']
  grind

/-! ## Codes: a code that a table lists is read as its name, another as it stands (log 25) -/

theorem codedRead_codedByte {α : Type} {code : α → Nat} {of : Nat → Option α} (hc : ∀ a, of (code a) = some a)
    (hb : ∀ a, byteOk (code a) = true) {x : Coded α} (hx : codedOk of x = true) :
    codedRead of (codedByte code x) = x := by
  cases x with
  | listed a => simp [codedRead, codedByte, toNat_byteOf (hb a), hc]
  | unlisted b => simp only [codedOk, Option.isNone_iff_eq_none] at hx; simp [codedRead, codedByte, hx]

theorem read_hold {x : Coded HoldState} (h : codedOk holdOf x = true) :
    codedRead holdOf (codedByte holdCode x) = x :=
  codedRead_codedByte (by intro a; cases a <;> rfl) (by intro a; cases a <;> rfl) h

theorem read_power {x : Coded PowerState} (h : codedOk powerOf x = true) :
    codedRead powerOf (codedByte powerCode x) = x :=
  codedRead_codedByte (by intro a; cases a <;> rfl) (by intro a; cases a <;> rfl) h

theorem read_halt {x : Coded HaltCode} (h : codedOk haltOf x = true) : codedRead haltOf (codedByte haltNo x) = x :=
  codedRead_codedByte (by intro a; cases a <;> rfl) (by intro a; cases a <;> rfl) h

theorem read_dial {x : Coded DialItem} (h : codedOk dialOf x = true) :
    codedRead dialOf (codedByte dialCode x) = x := by
  have dial_code : ∀ a, dialOf (dialCode a) = some a := by
    intro a
    cases a with
    | digit n => simp [dialOf, dialCode]
    | flash => rfl
  have dial_byte : ∀ a, byteOk (dialCode a) = true := by
    intro a
    cases a with
    | digit n => exact decide_eq_true (Nat.lt_trans n.isLt (by decide))
    | flash => rfl
  exact codedRead_codedByte dial_code dial_byte h

theorem read_refusal {c : RefuseCause} (h : c.ok = true) :
    (refusalOf (byteOf (refusalCode c)).toNat).getD (.unlisted (byteOf (refusalCode c))) = c := by
  cases c with
  | unlisted b =>
    simp only [RefuseCause.ok, Option.isNone_iff_eq_none] at h
    simp [refusalCode, byteOf_toNat, h]
  | _ => rfl

theorem read_answer {a : Answer} (h : a.ok = true) :
    answerRead (byteOf (answerCode a).1) (byteOf (answerCode a).2) = a := by
  cases a with
  | grant => rfl
  | refuse c => simp only [answerRead, answerCode]; exact congrArg Answer.refuse (read_refusal h)
  | unlisted a c =>
    simp only [Answer.ok, Bool.and_eq_true, decide_eq_true_eq] at h
    simp only [answerRead, answerCode, byteOf_toNat]
    split
    · exact absurd ‹_› h.1
    · exact absurd ‹_› h.2
    · rfl

theorem read_clear {c : ClearCause} (h : c.ok = true) :
    (clearOf (byteOf (clearCode c)).toNat).getD (.unlisted (byteOf (clearCode c))) = c := by
  cases c with
  | unlisted b =>
    simp only [ClearCause.ok, Option.isNone_iff_eq_none] at h
    simp [clearCode, byteOf_toNat, h]
  | _ => rfl

theorem read_stream {c : StreamType} (h : c.ok = true) :
    (streamOf (byteOf (streamCode c)).toNat).getD (.unlisted (byteOf (streamCode c))) = c := by
  cases c with
  | unlisted b =>
    simp only [StreamType.ok, Option.isNone_iff_eq_none] at h
    simp [streamCode, byteOf_toNat, h]
  | _ => rfl

theorem read_recordState {c : RecordState} (h : c.ok = true) :
    (recordOf (byteOf (recordCode c)).toNat).getD (.unlisted (byteOf (recordCode c))) = c := by
  cases c with
  | unlisted b =>
    simp only [RecordState.ok, Option.isNone_iff_eq_none] at h
    simp [recordCode, byteOf_toNat, h]
  | _ => rfl

theorem requestOf_requestCode (k : RequestKind) : requestOf (byteOf (requestCode k)).toNat = some k := by
  cases k <;> rfl

/-! ## Records, tracks, fixed parts and speech -/

theorem recordBytes_length (r : FaultRecord) : (recordBytes r).length = 13 := rfl

theorem recordRead_recordBytes {r : FaultRecord} (h : r.ok = true) : recordRead (recordBytes r) = some r := by
  simp only [FaultRecord.ok, Bool.and_eq_true] at h
  obtain ⟨⟨⟨⟨⟨⟨origin, trigger⟩, severity⟩, start⟩, count⟩, sent⟩, state⟩ := h
  simp [recordRead, recordBytes, le16, le32, toNat_byteOf, origin, trigger, severity, start, count, sent, rd16_le16,
    rd32_le32, read_recordState state]

theorem tracksRead_flatMap (ts : List TrackMsg) : tracksRead ts.length (ts.flatMap trackBytes) = some ts := by
  induction ts with
  | nil => rfl
  | cons t ts ih =>
    simp [tracksRead, List.flatMap_cons, trackBytes, le32, le24, ih, rd32_le32, rd24_le24]

theorem flatMap_trackBytes_length (ts : List TrackMsg) : (ts.flatMap trackBytes).length = 8 * ts.length := by
  induction ts with
  | nil => rfl
  | cons t ts ih => simp [List.flatMap_cons, ih, trackBytes, le32, le24]; omega

theorem tracksBytes_length (ts : List TrackMsg) : (tracksBytes ts).length = 1 + 8 * ts.length := by
  rw [tracksBytes, List.length_cons, flatMap_trackBytes_length, Nat.add_comm]

theorem toNat_trackCount {ts : List TrackMsg} (h : tracksOk ts = true) : (byteOf ts.length).toNat = ts.length := by
  simp only [tracksOk, decide_eq_true_eq] at h
  exact toNat_byteOf (by simp only [byteOk, decide_eq_true_eq]; omega)

theorem countedTracks_tracksBytes {ts : List TrackMsg} (h : tracksOk ts = true) :
    countedTracks (tracksBytes ts) = some ts := by
  have count := toNat_trackCount h
  simp only [tracksOk, decide_eq_true_eq] at h
  simp [countedTracks, tracksBytes, count, h, tracksRead_flatMap]

theorem bits_flagsByte (f : BeaconFixed) :
    (flagsByte f).getLsbD 0 = f.modem ∧ (flagsByte f).getLsbD 1 = f.eligible ∧
      (flagsByte f).extractLsb' 2 2 = f.cls := by
  unfold flagsByte
  refine ⟨?_, ?_, ?_⟩
  · rw [BitVec.getLsbD_append]; simp
  · rw [BitVec.getLsbD_append, BitVec.getLsbD_append]; simp
  · apply BitVec.eq_of_getLsbD_eq
    intro i hi
    rw [BitVec.getLsbD_extractLsb', BitVec.getLsbD_append, BitVec.getLsbD_append, BitVec.getLsbD_append]
    interval_cases i <;> simp

theorem fixedRead_fixedBytes {f : BeaconFixed} (h : codedOk powerOf f.power = true) :
    fixedRead (f.tiebreak.extractLsb' 0 8) (f.tiebreak.extractLsb' 8 8) (codedByte powerCode f.power) (flagsByte f)
      (f.holdTime.extractLsb' 0 8) (f.holdTime.extractLsb' 8 8) (f.holdTime.extractLsb' 16 8)
      (f.holdTime.extractLsb' 24 8) = f := by
  obtain ⟨modem, eligible, cls⟩ := bits_flagsByte f
  simp only [fixedRead, rd16_le16, rd32_le32, read_power h, modem, eligible, cls]

/-- The holder flags, bit for bit (R4). -/
theorem bits_holderFlags (call priv degraded broadband : Bool) (joiners profile : BitVec 2) (f : Byte)
    (hf : f = profile ++ BitVec.ofBool broadband ++ BitVec.ofBool degraded ++ BitVec.ofBool priv ++ joiners ++
      BitVec.ofBool call) :
    f.getLsbD 0 = call ∧ f.extractLsb' 1 2 = joiners ∧ f.getLsbD 3 = priv ∧ f.getLsbD 4 = degraded ∧
      f.getLsbD 5 = broadband ∧ f.extractLsb' 6 2 = profile := by
  have bit : ∀ i, f.getLsbD i =
      if i < 1 then (BitVec.ofBool call).getLsbD i else if i - 1 < 2 then joiners.getLsbD (i - 1)
      else if i - 1 - 2 < 1 then (BitVec.ofBool priv).getLsbD (i - 1 - 2)
      else if i - 1 - 2 - 1 < 1 then (BitVec.ofBool degraded).getLsbD (i - 1 - 2 - 1)
      else if i - 1 - 2 - 1 - 1 < 1 then (BitVec.ofBool broadband).getLsbD (i - 1 - 2 - 1 - 1)
      else profile.getLsbD (i - 1 - 2 - 1 - 1 - 1) := by
    intro i
    subst hf
    rw [BitVec.getLsbD_append, BitVec.getLsbD_append, BitVec.getLsbD_append, BitVec.getLsbD_append,
      BitVec.getLsbD_append]
  refine ⟨?_, ?_, ?_, ?_, ?_, ?_⟩
  · rw [bit]; simp
  · apply BitVec.eq_of_getLsbD_eq
    intro i hi
    rw [BitVec.getLsbD_extractLsb', bit]
    interval_cases i <;> simp
  · rw [bit]; simp
  · rw [bit]; simp
  · rw [bit]; simp
  · apply BitVec.eq_of_getLsbD_eq
    intro i hi
    rw [BitVec.getLsbD_extractLsb', bit]
    interval_cases i <;> simp

/-- The line status, bit for bit (R4). -/
theorem bits_lineStatus (dead leaky foreign : Bool) (l : Byte)
    (hl : l = 0#5 ++ BitVec.ofBool foreign ++ BitVec.ofBool leaky ++ BitVec.ofBool dead) :
    l.getLsbD 0 = dead ∧ l.getLsbD 1 = leaky ∧ l.getLsbD 2 = foreign := by
  subst hl
  refine ⟨?_, ?_, ?_⟩
  · rw [BitVec.getLsbD_append]; simp
  · rw [BitVec.getLsbD_append, BitVec.getLsbD_append]; simp
  · rw [BitVec.getLsbD_append, BitVec.getLsbD_append, BitVec.getLsbD_append]; simp

theorem holderRead_holderBytes {b : HolderBlock} {f l : Byte} (h : holderBytes b = [f, l]) : holderRead f l = b := by
  simp only [holderBytes, List.cons.injEq, and_true] at h
  obtain ⟨hf, hl⟩ := h
  obtain ⟨call, joiners, priv, degraded, broadband, profile⟩ := bits_holderFlags _ _ _ _ _ _ f hf.symm
  obtain ⟨dead, leaky, foreign⟩ := bits_lineStatus _ _ _ l hl.symm
  simp only [holderRead, call, joiners, priv, degraded, broadband, profile, dead, leaky, foreign]

theorem speechRead_speechBytes (x : Speech) : speechRead (speechBytes x) = x := by
  induction x with
  | nil => rfl
  | cons a x ih =>
    have ih' : speechRead (x.flatMap le16) = x := ih
    simp [speechBytes, speechRead, le16, List.flatMap_cons, rd16_le16, ih']

theorem speechBytes_length (x : Speech) : (speechBytes x).length = 2 * x.length := by
  induction x with
  | nil => rfl
  | cons a x ih =>
    have ih' : (x.flatMap le16).length = 2 * x.length := ih
    simp [speechBytes, List.flatMap_cons, le16, ih']; omega

theorem gaspByte_held (held : Bool) (p : BitVec 2) : (gaspByte held p).getLsbD 0 = held := by
  rw [gaspByte, BitVec.getLsbD_append]; simp

theorem gaspByte_profile (held : Bool) (p : BitVec 2) : (gaspByte held p).extractLsb' 1 2 = p := by
  apply BitVec.eq_of_getLsbD_eq
  intro i hi
  rw [BitVec.getLsbD_extractLsb', gaspByte, BitVec.getLsbD_append, BitVec.getLsbD_append]
  interval_cases i <;> simp

/-! ## Payloads -/

theorem toNat_holdByte_eq_four {x : Coded HoldState} (h : codedOk holdOf x = true) :
    ((codedByte holdCode x).toNat = 4) = (x = .listed .holding) := by
  cases x with
  | listed a => cases a <;> simp [codedByte, holdCode, byteOf]
  | unlisted b =>
    simp only [codedOk] at h
    have : b.toNat ≠ 4 := by intro e; rw [e] at h; cases h
    simp [codedByte, this]

/-- A well-formed payload fits a frame, has a legal length, and is read back as it was sent (R3, R153). -/
def ReadsBack (hold : Coded HoldState) (p : Payload) : Prop :=
  (payloadBytes p).length ≤ 1536 ∧
    lengthLegal (kindCode p) (codedByte holdCode hold) (payloadBytes p) = true ∧
    payloadRead (kindCode p) (codedByte holdCode hold) (payloadBytes p) = some p

theorem beacon_readsBack {hold : Coded HoldState} {m : BeaconMsg} (hh : codedOk holdOf hold = true)
    (h : payloadOk hold (.beacon m) = true) : ReadsBack hold (.beacon m) := by
  simp only [payloadOk, Bool.and_eq_true, decide_eq_true_eq] at h
  obtain ⟨⟨holder, tracks⟩, power⟩ := h
  have count := toNat_trackCount tracks
  have few : m.tracks.length ≤ 2 := of_decide_eq_true tracks
  have four := toNat_holdByte_eq_four hh
  have fixed := fixedRead_fixedBytes power
  have read := countedTracks_tracksBytes tracks
  have size := flatMap_trackBytes_length m.tracks
  obtain ⟨fixedPart, block, ts⟩ := m
  dsimp only at *
  cases block with
  | none =>
    have other : hold ≠ .listed .holding := by simpa using holder
    rw [eq_false other] at four
    refine ⟨?_, ?_, ?_⟩
    · simp only [payloadBytes, fixedBytes, le16, le32, List.length_append, List.length_cons, List.length_nil,
        tracksBytes_length]
      omega
    · simp [lengthLegal, kindCode, payloadBytes, four, fixedBytes, le16, le32, tracksBytes, count, few,
        -List.length_flatMap, size]
      omega
    · simp [payloadRead, kindCode, payloadBytes, fixedBytes, le16, le32, four, read, fixed]
  | some b =>
    have holding : hold = .listed .holding := by simpa using holder
    rw [eq_true holding] at four
    obtain ⟨f, l, bytes⟩ : ∃ f l, holderBytes b = [f, l] := ⟨_, _, rfl⟩
    have block := holderRead_holderBytes bytes
    refine ⟨?_, ?_, ?_⟩
    · simp only [payloadBytes, fixedBytes, bytes, le16, le32, List.length_append, List.length_cons, List.length_nil,
        tracksBytes_length]
      omega
    · simp [lengthLegal, kindCode, payloadBytes, four, fixedBytes, le16, le32, tracksBytes, bytes, count, few,
        -List.length_flatMap, size]
      omega
    · simp [payloadRead, kindCode, payloadBytes, fixedBytes, le16, le32, four, bytes, read, fixed, block]

theorem yield_readsBack {hold : Coded HoldState} {m : YieldMsg} (h : payloadOk hold (.yield m) = true) :
    ReadsBack hold (.yield m) := by
  have tracks : tracksOk m.tracks = true := h
  have count := toNat_trackCount tracks
  have few : m.tracks.length ≤ 2 := of_decide_eq_true tracks
  have size := flatMap_trackBytes_length m.tracks
  refine ⟨?_, ?_, ?_⟩
  · simp only [payloadBytes, List.length_cons, tracksBytes_length]
    omega
  · simp [lengthLegal, kindCode, payloadBytes, tracksBytes, count, few, -List.length_flatMap, size]
    omega
  · simp [payloadRead, kindCode, payloadBytes, countedTracks_tracksBytes tracks]

theorem lastgasp_readsBack {hold : Coded HoldState} {m : GaspMsg} (h : payloadOk hold (.lastgasp m) = true) :
    ReadsBack hold (.lastgasp m) := by
  simp only [payloadOk, Bool.and_eq_true] at h
  obtain ⟨record, tracks⟩ := h
  have count := toNat_trackCount tracks
  have few : m.tracks.length ≤ 2 := of_decide_eq_true tracks
  have size := flatMap_trackBytes_length m.tracks
  refine ⟨?_, ?_, ?_⟩
  · simp only [payloadBytes, List.length_append, recordBytes_length, List.length_cons, List.length_nil,
      tracksBytes_length]
    omega
  · have at14 : (recordBytes m.record ++ [gaspByte m.held m.profile] ++ tracksBytes m.tracks)[14]? =
        some (byteOf m.tracks.length) := rfl
    simp only [lengthLegal, kindCode, payloadBytes, at14, List.length_append, recordBytes_length, List.length_cons,
      List.length_nil, tracksBytes_length, count, few, decide_true, Bool.true_and, decide_eq_true_eq]
    omega
  · have front : (recordBytes m.record ++ [gaspByte m.held m.profile] ++ tracksBytes m.tracks).take 13 =
        recordBytes m.record := rfl
    have back : (recordBytes m.record ++ [gaspByte m.held m.profile] ++ tracksBytes m.tracks).drop 13 =
        gaspByte m.held m.profile :: tracksBytes m.tracks := rfl
    simp only [payloadRead, kindCode, payloadBytes, front, back, recordRead_recordBytes record, Option.bind_some,
      countedTracks_tracksBytes tracks, Option.map_some, gaspByte_held, gaspByte_profile]

theorem halt_readsBack {hold : Coded HoldState} {m : HaltMsg} (h : payloadOk hold (.halt m) = true) :
    ReadsBack hold (.halt m) := by
  simp only [payloadOk, Bool.and_eq_true] at h
  obtain ⟨power, code⟩ := h
  refine ⟨by simp [payloadBytes, fixedBytes, le16, le32],
    by simp [lengthLegal, kindCode, payloadBytes, fixedBytes, le16, le32], ?_⟩
  simp [payloadRead, kindCode, payloadBytes, fixedBytes, le16, le32, fixedRead_fixedBytes power, read_halt code]

theorem request_readsBack {hold : Coded HoldState} {k : RequestKind} {m : RequestMsg}
    (h : payloadOk hold (.request k m) = true) : ReadsBack hold (.request k m) := by
  simp only [payloadOk, RequestMsg.ok, Bool.and_eq_true] at h
  obtain ⟨⟨⟨⟨port, cls⟩, target⟩, ref⟩, tag⟩ := h
  refine ⟨by simp [payloadBytes], by simp [lengthLegal, kindCode, payloadBytes], ?_⟩
  simp [payloadRead, kindCode, payloadBytes, requestOf_requestCode, toNat_byteOf, port, cls, target, ref, tag]

theorem reply_readsBack {hold : Coded HoldState} {m : ReplyMsg} (h : payloadOk hold (.reply m) = true) :
    ReadsBack hold (.reply m) := by
  simp only [payloadOk, Bool.and_eq_true] at h
  obtain ⟨⟨⟨⟨answer, tag⟩, station⟩, port⟩, ref⟩ := h
  refine ⟨by simp [payloadBytes], by simp [lengthLegal, kindCode, payloadBytes], ?_⟩
  simp [payloadRead, kindCode, payloadBytes, toNat_byteOf, tag, station, port, ref, read_answer answer]

theorem clear_readsBack {hold : Coded HoldState} {m : ClearMsg} (h : payloadOk hold (.clear m) = true) :
    ReadsBack hold (.clear m) := by
  simp only [payloadOk, Bool.and_eq_true] at h
  obtain ⟨⟨ref, port⟩, cause⟩ := h
  refine ⟨by simp [payloadBytes], by simp [lengthLegal, kindCode, payloadBytes], ?_⟩
  simp only [payloadRead, kindCode, payloadBytes, toNat_byteOf ref, toNat_byteOf port, read_clear cause]

theorem dial_readsBack {hold : Coded HoldState} {m : DialMsg} (h : payloadOk hold (.dial m) = true) :
    ReadsBack hold (.dial m) := by
  simp only [payloadOk, Bool.and_eq_true] at h
  obtain ⟨⟨ref, port⟩, item⟩ := h
  refine ⟨by simp [payloadBytes], by simp [lengthLegal, kindCode, payloadBytes], ?_⟩
  simp only [payloadRead, kindCode, payloadBytes, toNat_byteOf ref, toNat_byteOf port, read_dial item]

theorem voice_readsBack {hold : Coded HoldState} {m : VoiceMsg} (h : payloadOk hold (.voice m) = true) :
    ReadsBack hold (.voice m) := by
  simp only [payloadOk, Bool.and_eq_true] at h
  obtain ⟨⟨⟨⟨stream, ref⟩, src⟩, dst⟩, samples⟩ := h
  have eighty : m.samples.length = 80 := of_decide_eq_true samples
  refine ⟨?_, ?_, ?_⟩
  · simp [payloadBytes, speechBytes_length, eighty]
  · simp [lengthLegal, kindCode, payloadBytes, speechBytes_length, eighty]
  · simp only [payloadRead, kindCode, payloadBytes, List.cons_append, List.nil_append, toNat_byteOf ref,
      toNat_byteOf src, toNat_byteOf dst, read_stream stream, speechRead_speechBytes]

theorem payload_readsBack {hold : Coded HoldState} {p : Payload} (hh : codedOk holdOf hold = true)
    (h : payloadOk hold p = true) : ReadsBack hold p := by
  cases p with
  | beacon m => exact beacon_readsBack hh h
  | claim t =>
    exact ⟨by simp [payloadBytes, le16], by simp [lengthLegal, kindCode, payloadBytes, le16],
      by simp [payloadRead, kindCode, payloadBytes, le16, rd16_le16]⟩
  | yield m => exact yield_readsBack h
  | lastgasp m => exact lastgasp_readsBack h
  | halt m => exact halt_readsBack h
  | request k m => exact request_readsBack h
  | reply m => exact reply_readsBack h
  | clear m => exact clear_readsBack h
  | dial m => exact dial_readsBack h
  | voice m => exact voice_readsBack h
  | report r =>
    have read := recordRead_recordBytes (show r.ok = true from h)
    exact ⟨by simp [payloadBytes, recordBytes_length],
      by simp [lengthLegal, kindCode, payloadBytes, recordBytes_length],
      by simp [payloadRead, kindCode, payloadBytes, read]⟩
  | receipt t c =>
    simp only [payloadOk, Bool.and_eq_true] at h
    exact ⟨by simp [payloadBytes], by simp [lengthLegal, kindCode, payloadBytes],
      by simp [payloadRead, kindCode, payloadBytes, toNat_byteOf, h]⟩
  | data f =>
    simp only [payloadOk, linkOk, Bool.and_eq_true, decide_eq_true_eq] at h
    exact ⟨h.2, by simp [lengthLegal, kindCode, payloadBytes, h], rfl⟩

/-! ## Whole frames -/

theorem kindCode_range (p : Payload) : 1 ≤ kindCode p ∧ kindCode p ≤ 13 := by cases p <;> simp [kindCode]

theorem toNat_kindByte (p : Payload) : (byteOf (kindCode p)).toNat = kindCode p := by cases p <;> rfl

/-- The bytes of a frame before its check. -/
def bodyBytes (h : Header) (p : Payload) : List Byte :=
  headerBytes (kindCode p) h.src h.dst h.hold (payloadBytes p).length ++ payloadBytes p

theorem frameBytes_eq (h : Header) (p : Payload) :
    frameBytes h.src h.dst h.hold p = bodyBytes h p ++ le16 (crc (bodyBytes h p)) := rfl

theorem dropCheck_frameBytes (h : Header) (p : Payload) :
    (frameBytes h.src h.dst h.hold p).dropLast.dropLast = bodyBytes h p := by
  rw [frameBytes_eq, show ∀ w : BitVec 16, le16 w = [w.extractLsb' 0 8] ++ [w.extractLsb' 8 8] from fun _ => rfl,
    ← List.append_assoc, List.dropLast_concat, List.dropLast_concat]

theorem le16_injective {x y : BitVec 16} (h : le16 x = le16 y) : x = y := by
  simp only [le16, List.cons.injEq, and_true] at h
  rw [← rd16_le16 x, ← rd16_le16 y, h.1, h.2]

/-- The receive path's reading of 8 bytes or more (R6, R7). -/
theorem receiveBytes_cons (kind src dst hold l0 l1 : Byte) {rest : List Byte} (h : 2 ≤ rest.length) :
    receiveBytes (kind :: src :: dst :: hold :: l0 :: l1 :: rest) =
      if fiveChecks kind src dst hold l0 l1 rest then
        match payloadRead kind.toNat hold (rest.take (rd16 l0 l1).toNat) with
        | some p => .checked ⟨src.toNat, dst.toNat, codedRead holdOf hold⟩ p
        | none => .nameless ⟨src.toNat, dst.toNat, codedRead holdOf hold⟩
      else .damaged := by
  rw [receiveBytes, if_neg (by simp only [List.length_cons]; omega)] <;> rfl

/-- Of the five checks, a well-formed frame that ends with `x` can fail that of `x` alone (R7). -/
theorem fiveChecks_body {h : Header} {p : Payload} (ok : frameOk h p = true) (x : BitVec 16) :
    fiveChecks (byteOf (kindCode p)) (byteOf h.src) (byteOf h.dst) (codedByte holdCode h.hold)
      ((BitVec.ofNat 16 (payloadBytes p).length).extractLsb' 0 8)
      ((BitVec.ofNat 16 (payloadBytes p).length).extractLsb' 8 8) (payloadBytes p ++ le16 x) =
        decide (x = crc (bodyBytes h p)) := by
  simp only [frameOk, Header.ok, Bool.and_eq_true, decide_eq_true_eq] at ok
  obtain ⟨⟨⟨⟨srcLow, srcHigh⟩, dstHigh⟩, hold⟩, payload⟩ := ok
  obtain ⟨size, legal, -⟩ := payload_readsBack hold payload
  obtain ⟨kindLow, kindHigh⟩ := kindCode_range p
  have src : (byteOf h.src).toNat = h.src := toNat_byteOf (by simp only [byteOk, decide_eq_true_eq]; omega)
  have dst : (byteOf h.dst).toNat = h.dst := toNat_byteOf (by simp only [byteOk, decide_eq_true_eq]; omega)
  have len : (BitVec.ofNat 16 (payloadBytes p).length).toNat = (payloadBytes p).length := by
    rw [BitVec.toNat_ofNat]; exact Nat.mod_eq_of_lt (by omega)
  have two : (le16 x).length = 2 := rfl
  have body : [byteOf (kindCode p), byteOf h.src, byteOf h.dst, codedByte holdCode h.hold,
      (BitVec.ofNat 16 (payloadBytes p).length).extractLsb' 0 8,
      (BitVec.ofNat 16 (payloadBytes p).length).extractLsb' 8 8] ++ payloadBytes p = bodyBytes h p := rfl
  have check : le16 x = le16 (crc (bodyBytes h p)) ↔ x = crc (bodyBytes h p) := ⟨le16_injective, congrArg le16⟩
  rw [← body] at check ⊢
  simpa [fiveChecks, rd16_le16, len, toNat_kindByte, src, dst, kindLow, kindHigh, srcLow, srcHigh, dstHigh, size, legal,
    two] using check

/-- A well-formed frame that ends with the check `x`: checked with its contents if `x` is its check, else damaged. -/
theorem receiveBytes_body {h : Header} {p : Payload} (ok : frameOk h p = true) (x : BitVec 16) :
    receiveBytes (bodyBytes h p ++ le16 x) = if x = crc (bodyBytes h p) then .checked h p else .damaged := by
  have checks := fiveChecks_body ok x
  have laid : bodyBytes h p ++ le16 x = byteOf (kindCode p) :: byteOf h.src :: byteOf h.dst ::
      codedByte holdCode h.hold :: (BitVec.ofNat 16 (payloadBytes p).length).extractLsb' 0 8 ::
      (BitVec.ofNat 16 (payloadBytes p).length).extractLsb' 8 8 :: (payloadBytes p ++ le16 x) := rfl
  simp only [frameOk, Header.ok, Bool.and_eq_true, decide_eq_true_eq] at ok
  obtain ⟨⟨⟨⟨srcLow, srcHigh⟩, dstHigh⟩, hold⟩, payload⟩ := ok
  obtain ⟨size, -, read⟩ := payload_readsBack hold payload
  have src : (byteOf h.src).toNat = h.src := toNat_byteOf (by simp only [byteOk, decide_eq_true_eq]; omega)
  have dst : (byteOf h.dst).toNat = h.dst := toNat_byteOf (by simp only [byteOk, decide_eq_true_eq]; omega)
  have len : (BitVec.ofNat 16 (payloadBytes p).length).toNat = (payloadBytes p).length := by
    rw [BitVec.toNat_ofNat]; exact Nat.mod_eq_of_lt (by omega)
  rw [laid, receiveBytes_cons _ _ _ _ _ _ (by simp [le16]), checks, rd16_le16, len, List.take_left, toNat_kindByte,
    read, src, dst, read_hold hold]
  by_cases same : x = crc (bodyBytes h p) <;> simp [same]

theorem receiveBytes_short {bytes : List Byte} (h : bytes.length < 8) : receiveBytes bytes = .fragment := by
  unfold receiveBytes
  exact if_pos h

/-- Settles O6. -/
theorem frameChecks : Obligations.FrameChecks := by
  refine ⟨by decide +kernel, fun _ => receiveBytes_short, ?_⟩
  intro h p x ok other
  rw [dropCheck_frameBytes] at other ⊢
  rw [receiveBytes_body ok, if_neg other]

/-- Settles O7. -/
theorem frameRoundTrip : Obligations.FrameRoundTrip := by
  intro h p ok
  rw [frameBytes_eq, receiveBytes_body ok, if_pos rfl]

/-- Settles O8. -/
theorem airtimeRoundsUp : Obligations.AirtimeRoundsUp := by
  refine ⟨fun p => ?_, rfl, rfl, rfl, rfl, rfl, rfl⟩
  unfold airtime
  omega

end Sys2Proof.Machine
end

section
/-! PROOFS. The end of a command in two parts: the rules that can move the hold state and the notices, and the rest;
what each part does at a station where it has nothing to do, and which fields the rest can change at all (log 9,
log 10). -/

namespace Sys2Proof.Machine

open Sys2Proof

/-! ## The two parts of `finish` -/

/-- Eligibility, the degraded holder, the known holder, and the notices. -/
def settleFirst (s : State) : State := settleNotices (settleHolder (settleDegraded (settleEligible s)))

/-- The rules from the data head to the idle timer. -/
def settleMiddle (s : State) : State := settleIdle (settleConds (settleDataHead s))

/-- The rules from the reports to the lamp. -/
def settleLater (s : State) : State :=
  settleLamp (settleLoss (startOutpulse (startTransfer (mailboxOffer (settleReports s)))))

/-- The rules after the notices. -/
def settleRest (s : State) : State := clearNotices (settleTones (settleLater (settleMiddle s)))

theorem finish_eq (s : State) : finish s = settleRest (settleFirst s) := rfl

/-- The rules of the first part have nothing to do, and no block takes notice of what was dropped. -/
structure FirstSettled (s : State) : Prop where
  eligible : s.eligibleNow = s.hold.eligible
  degraded : (s.holding && s.hold.degraded && s.call.record.isNone) = false
  holder : s.computeHolder = s.hold.known
  notices : ∀ b ∈ s.wire.dropped, droppedNotice (clearNotices s) b = clearNotices s

/-- The rules of the second part but the idle timer's have nothing to do. -/
structure OthersSettled (s : State) : Prop where
  head : headSettled s = true
  conds : condsSettled s = true
  reports : reportsSettled s = true
  offer : offerSettled s = true
  transfer : transferSettled s = true
  outpulse : outpulseSettled s = true
  loss : lossSettled s = true
  lamp : s.lampWanted = s.fault.lamp
  tones : s.fittedPorts.all (toneSettled s) = true

/-- The rules of the second part have nothing to do. -/
structure RestSettled (s : State) : Prop extends OthersSettled s where
  idle : idleSettled s = true

end Sys2Proof.Machine

namespace Sys2Proof

open Sys2Proof.Machine

theorem Calm.active {s : State} (h : Calm s) : s.active = true := h.1

theorem Calm.running {s : State} (h : Calm s) : s.phase = .running := by
  have := h.1
  simp only [State.active, Bool.and_eq_true, decide_eq_true_eq] at this
  exact this.1

theorem Calm.noWindow {s : State} (h : Calm s) : s.power.window = none := by
  have := h.1
  simp only [State.active, Bool.and_eq_true, Option.isNone_iff_eq_none] at this
  exact this.2

theorem Calm.dropped {s : State} (h : Calm s) : s.wire.dropped = [] := by
  obtain ⟨_, _, _, _, dropped, _⟩ := h
  exact dropped

theorem Calm.first {s : State} (h : Calm s) : FirstSettled s := by
  obtain ⟨_, eligible, degraded, holder, dropped, _⟩ := h
  exact ⟨eligible, degraded, holder, by simp [dropped]⟩

theorem Calm.rest {s : State} (h : Calm s) : RestSettled s := by
  obtain ⟨_, _, _, _, _, head, conds, idle, reports, offer, transfer, outpulse, loss, lamp, tones⟩ := h
  exact ⟨⟨head, conds, reports, offer, transfer, outpulse, loss, lamp, tones⟩, idle⟩

end Sys2Proof

namespace Sys2Proof.Machine

open Sys2Proof

theorem calm_of {s : State} (active : s.active = true) (f : FirstSettled s) (dropped : s.wire.dropped = [])
    (r : RestSettled s) : Calm s :=
  ⟨active, f.eligible, f.degraded, f.holder, dropped, r.head, r.conds, r.idle, r.reports, r.offer, r.transfer,
    r.outpulse, r.loss, r.lamp, r.tones⟩

theorem foldl_of_fixed {α β : Type} {f : α → β → α} {a : α} : ∀ {l : List β}, (∀ b ∈ l, f a b = a) → l.foldl f a = a
  | [], _ => rfl
  | b :: l, h => by
    rw [List.foldl_cons, h b (by simp)]
    exact foldl_of_fixed fun c hc => h c (by simp [hc])

theorem settleNotices_inert {s : State} (h : ∀ b ∈ s.wire.dropped, droppedNotice (clearNotices s) b = clearNotices s) :
    settleNotices s = clearNotices s := foldl_of_fixed h

theorem settleFirst_of {s : State} (h : FirstSettled s) : settleFirst s = clearNotices s := by
  rw [settleFirst, settleEligible_of h.eligible, settleDegraded_of h.degraded, settleHolder_of h.holder,
    settleNotices_inert h.notices]

theorem settleRest_of {s : State} (h : RestSettled s) : settleRest s = clearNotices s := by
  simp only [settleRest, settleLater, settleMiddle, settleDataHead_of h.head, settleConds_of h.conds,
    settleIdle_of h.idle, settleReports_of h.reports, mailboxOffer_of h.offer, startTransfer_of h.transfer,
    startOutpulse_of h.outpulse, settleLoss_of h.loss, settleLamp_of h.lamp, settleTones_of h.tones]

theorem RestSettled.clearNotices {s : State} (h : RestSettled s) : RestSettled (clearNotices s) :=
  ⟨⟨h.head, h.conds, h.reports, h.offer, h.transfer, h.outpulse, h.loss, h.lamp, h.tones⟩, h.idle⟩

/-- Where nothing is left to do, the end of a command hands its notices on and does nothing else. -/
theorem finish_of_settled {s : State} (f : FirstSettled s) (r : RestSettled s) : finish s = clearNotices s := by
  rw [finish_eq, settleFirst_of f, settleRest_of r.clearNotices]
  rfl

/-! ## What the settled rules read -/

theorem anyParked_congr {s t : State} (cfg : t.cfg = s.cfg) (h : ∀ n, (t.port n).state = (s.port n).state) :
    t.anyParked = s.anyParked := by
  simp only [State.anyParked, State.fittedPorts, cfg, h]

theorem anyShort_congr {s t : State} (cfg : t.cfg = s.cfg) (h : ∀ n, faultLevel t.pins n = faultLevel s.pins n) :
    t.anyShort = s.anyShort := by
  simp only [State.anyShort, State.fittedPorts, cfg, h]

theorem condsSettled_congr {s t : State} (conds : t.fault.conds = s.fault.conds)
    (tracked : t.noise.tracked = s.noise.tracked) (lost : t.hold.lost.isEmpty = s.hold.lost.isEmpty)
    (full : t.full = s.full) (low : t.pins.battLow = s.pins.battLow) (parked : t.anyParked = s.anyParked)
    (short : t.anyShort = s.anyShort) (holding : t.holding = s.holding) (h : condsSettled s = true) :
    condsSettled t = true := by
  simp only [condsSettled, State.cond, conds, tracked, lost, full, low, parked, short, holding] at h ⊢
  exact h

theorem tonesSettled_congr {s t : State} (cfg : t.cfg = s.cfg) (tones : ∀ n, (t.port n).tone = (s.port n).tone)
    (dial : t.dialTone = s.dialTone) (h : s.fittedPorts.all (toneSettled s) = true) :
    t.fittedPorts.all (toneSettled t) = true := by
  rw [List.all_eq_true] at h ⊢
  intro n hn
  have fitted : t.fittedPorts = s.fittedPorts := by rw [State.fittedPorts, State.fittedPorts, cfg]
  have at_n := h n (fitted ▸ hn)
  simp only [toneSettled, tones, dial] at at_n ⊢
  exact at_n

/-! ## What the rest can change -/

theorem settleMiddle_only (s : State) : Only [.power, .wire, .hold, .noise, .sup, .fault, .report] s (settleMiddle s) :=
  (settleIdle_only _).after (((settleConds_only _).after ((settleDataHead_only s).mono (by decide)) (by decide) :
    Only [.wire, .sup, .fault, .report] s _).mono (by decide)) (by decide)

theorem settleLater_only (s : State) : Only [.wire, .sup, .call, .fault, .report, .outs] s (settleLater s) := by
  have reports : Only [.wire, .sup, .call, .fault, .report, .outs] s (settleReports s) :=
    (settleReports_only s).mono (by decide)
  exact (settleLamp_only _).after ((settleLoss_only _).after ((startOutpulse_only _).after
    ((startTransfer_only _).after ((mailboxOffer_only _).after reports (by decide)) (by decide)) (by decide))
      (by decide)) (by decide)

theorem port_congr {s t : State} (h : t.ports = s.ports) (n : PortNo) : t.port n = s.port n :=
  congrArg (fun ps => ps.get n) h

theorem settleLater_ports (s : State) : (settleLater (settleMiddle s)).ports = s.ports :=
  ((settleLater_only _).ports).trans (settleMiddle_only s).ports

/-- One tone rule: it sets a tone that is dial or stutter dial tone, and nothing else. -/
theorem port_tonePort (m n : PortNo) (s : State) :
    (tonePort m s).port n = s.port n ∨
      (((s.port n).tone = .dial ∨ (s.port n).tone = .stutter) ∧
        (tonePort m s).port n = (s.port n).setTone s.dialTone s.now) := by
  by_cases same : n = m
  · subst same
    rw [tonePort, State.port_modPort_same]
    split
    · next h => exact .inr ⟨h.1, rfl⟩
    · exact .inl rfl
  · exact .inl (State.port_modPort_other _ _ same)

theorem dialTone_cases (s : State) : s.dialTone = .dial ∨ s.dialTone = .stutter := by
  unfold State.dialTone; split <;> simp

theorem dialTone_eq_of_fault {s t : State} (h : t.fault = s.fault) : t.dialTone = s.dialTone := by
  rw [State.dialTone, State.dialTone, State.alert, State.alert, h]

theorem settleTones_eq (s : State) : settleTones s = if s.cfg.portCount = 2 then tonePort .two (tonePort .one s) else
    tonePort .one s := by
  unfold settleTones State.eachPort State.fittedPorts
  split <;> rfl

/-- A port at the end of a command: its dial tone may change, and nothing else. -/
theorem port_settleTones (s : State) (n : PortNo) :
    (settleTones s).port n = s.port n ∨
      (((s.port n).tone = .dial ∨ (s.port n).tone = .stutter) ∧
        (settleTones s).port n = (s.port n).setTone s.dialTone s.now) := by
  rw [settleTones_eq]
  split
  · have tone : (tonePort .one s).dialTone = s.dialTone := dialTone_eq_of_fault (tonePort_only .one s).fault
    have now : (tonePort .one s).now = s.now := (tonePort_only .one s).now
    rcases port_tonePort .one n s with h1 | ⟨hd, h1⟩ <;>
      rcases port_tonePort .two n (tonePort .one s) with h2 | ⟨hd', h2⟩
    · exact .inl (h2.trans h1)
    · rw [h1] at hd' h2
      exact .inr ⟨hd', by rw [h2, tone, now]⟩
    · exact .inr ⟨hd, h2.trans h1⟩
    · exact .inr ⟨hd, by rw [h2, h1, tone, now]; rfl⟩
  · exact port_tonePort .one n s

theorem settleRest_port_cases (s : State) (n : PortNo) :
    (settleRest s).port n = s.port n ∨
      (((s.port n).tone = .dial ∨ (s.port n).tone = .stutter) ∧
        ∃ t, (t = .dial ∨ t = .stutter) ∧ (settleRest s).port n = (s.port n).setTone t s.now) := by
  have ports : (settleLater (settleMiddle s)).port n = s.port n := by
    simp only [State.port, settleLater_ports]
  have now : (settleLater (settleMiddle s)).now = s.now := (settleLater_only _).now.trans (settleMiddle_only s).now
  have last : (settleRest s).port n = (settleTones (settleLater (settleMiddle s))).port n :=
    port_congr (clearNotices_only _).ports n
  rw [last]
  rcases port_settleTones (settleLater (settleMiddle s)) n with h | ⟨hd, h⟩
  · exact .inl (h.trans ports)
  · rw [ports] at hd h
    rw [now] at h
    exact .inr ⟨hd, _, dialTone_cases _, h⟩

/-- The rest leaves a port that plays no dial tone as it is. -/
theorem settleRest_port_of_tone {s : State} {n : PortNo} (h : (s.port n).tone ≠ .dial)
    (h' : (s.port n).tone ≠ .stutter) : (settleRest s).port n = s.port n := by
  rcases settleRest_port_cases s n with e | ⟨hd, -⟩
  · exact e
  · exact absurd hd (not_or.mpr ⟨h, h'⟩)

/-- The rest leaves everything of a port but its tone. -/
theorem settleRest_port (s : State) (n : PortNo) :
    ∃ t k a, (settleRest s).port n = { s.port n with tone := t, toneStep := k, toneAt := a } := by
  rcases settleRest_port_cases s n with e | ⟨-, t, -, e⟩
  · exact ⟨_, _, _, e⟩
  · exact ⟨_, _, _, e⟩

theorem ports_tonePort_tag (m : PortNo) (s : State) :
    (tonePort m s).ports.tag = s.ports.tag ∧ (tonePort m s).ports.ringing = s.ports.ringing := by
  cases m <;> exact ⟨rfl, rfl⟩

theorem settleRest_tag (s : State) : (settleRest s).ports.tag = s.ports.tag := by
  have e : (settleTones (settleLater (settleMiddle s))).ports.tag = (settleLater (settleMiddle s)).ports.tag := by
    rw [settleTones_eq]
    split
    · rw [(ports_tonePort_tag _ _).1, (ports_tonePort_tag _ _).1]
    · exact (ports_tonePort_tag _ _).1
  have last : (settleRest s).ports = (settleTones (settleLater (settleMiddle s))).ports := (clearNotices_only _).ports
  rw [last, e, settleLater_ports]

/-! ## The idle rule where no command can send the station to WATCH -/

/-- The idle rule has no reason to enter WATCH (R168). -/
def StaysUp (s : State) : Prop := s.idleHolds = true → s.pins.battLow = false

theorem settleIdle_staysUp {s : State} (h : StaysUp s) :
    settleIdle s = s.modPower fun p => { p with idle := if s.idleHolds then some (p.idle.getD s.now) else none } := by
  unfold settleIdle
  split
  · next hi => rw [if_neg (by simp [h hi])]
  · rfl

/-- A settled station has no reason to enter WATCH. -/
theorem staysUp_of_calm {s : State} (h : Calm s) : StaysUp s := by
  intro hi
  have idle := h.rest.idle
  rw [idleSettled, hi, if_pos rfl, Bool.and_eq_true, Bool.not_eq_true'] at idle
  exact idle.1

/-- Whether the idle timer runs is read from the power state, the ports and the hold state alone. -/
theorem idleHolds_congr {s t : State} (power : t.power = s.power) (ports : t.ports = s.ports)
    (hold : t.hold.state = s.hold.state) : t.idleHolds = s.idleHolds := by
  simp only [State.idleHolds, State.live, State.holding, power, ports, hold]

theorem settleDataHead_idleHolds (s : State) : (settleConds (settleDataHead s)).idleHolds = s.idleHolds := by
  have only : Only [.wire, .sup, .fault, .report] s (settleConds (settleDataHead s)) :=
    (settleConds_only _).after ((settleDataHead_only s).mono (by decide)) (by decide)
  exact idleHolds_congr only.power only.ports (congrArg Hold.state only.hold)

/-- With no reason to enter WATCH, the middle rules leave the hold state, the noise tracker and all of the power
controller but its idle timer. -/
theorem settleMiddle_staysUp {s : State} (h : StaysUp s) :
    settleMiddle s = (settleConds (settleDataHead s)).modPower fun p =>
      { p with idle := if s.idleHolds then some (p.idle.getD s.now) else none } := by
  have only : Only [.wire, .sup, .fault, .report] s (settleConds (settleDataHead s)) :=
    (settleConds_only _).after ((settleDataHead_only s).mono (by decide)) (by decide)
  have stays : StaysUp (settleConds (settleDataHead s)) := by
    intro hi
    rw [settleDataHead_idleHolds] at hi
    rw [only.pins, h hi]
  rw [settleMiddle, settleIdle_staysUp stays, settleDataHead_idleHolds, only.now]

theorem settleRest_only {s : State} (h : StaysUp s) :
    Only [.power, .wire, .sup, .ports, .call, .fault, .report, .outs] s (settleRest s) := by
  have conds : Only [.wire, .sup, .fault, .report] s (settleConds (settleDataHead s)) :=
    (settleConds_only _).after ((settleDataHead_only s).mono (by decide)) (by decide)
  have middle : Only [.power, .wire, .sup, .ports, .call, .fault, .report, .outs] s (settleMiddle s) := by
    rw [settleMiddle_staysUp h]
    exact (State.modPower_only _ _).after (conds.mono (by decide)) (by decide)
  exact (clearNotices_only _).after ((settleTones_only _).after ((settleLater_only _).after middle (by decide))
    (by decide)) (by decide)

theorem settleRest_power {s : State} (h : StaysUp s) :
    (settleRest s).power = { s.power with idle := if s.idleHolds then some (s.power.idle.getD s.now) else none } := by
  have conds : Only [.wire, .sup, .fault, .report] s (settleConds (settleDataHead s)) :=
    (settleConds_only _).after ((settleDataHead_only s).mono (by decide)) (by decide)
  have later : Only [.wire, .sup, .ports, .call, .fault, .report, .outs] (settleMiddle s) (settleRest s) :=
    (clearNotices_only _).after ((settleTones_only _).after ((settleLater_only _).mono (by decide)) (by decide))
      (by decide)
  rw [later.power, settleMiddle_staysUp h, State.modPower_power, conds.power]

/-! ## Conditions -/

/-- What the evaluation of triggers can write: their runtime fields, the fault list and, at a holder, the report
queue. -/
def withTriggers (r : List TrigRun) (l : List FaultRecord) (q : List FaultRecord) (s : State) : State :=
  { s with fault := { s.fault with runs := r, list := l }, report := { s.report with queue := q } }

theorem withTriggers_self (s : State) : s = withTriggers s.fault.runs s.fault.list s.report.queue s := rfl

/-- `t` differs from `s` in what the evaluation of triggers can write alone, and away from HOLDING not in the report
queue. -/
def Evaluated (s t : State) : Prop :=
  ∃ r l q, t = withTriggers r l q s ∧ (s.holding = false → q = s.report.queue)

theorem Evaluated.refl (s : State) : Evaluated s s := ⟨_, _, _, withTriggers_self s, fun _ => rfl⟩

theorem Evaluated.trans {s t u : State} (h : Evaluated s t) (h' : Evaluated t u) : Evaluated s u := by
  obtain ⟨r, l, q, rfl, hq⟩ := h
  obtain ⟨r', l', q', rfl, hq'⟩ := h'
  exact ⟨r', l', q', rfl, fun hh => (hq' hh).trans (hq hh)⟩

theorem modRun_evaluated (n : Nat) (f : TrigRun → TrigRun) (s : State) : Evaluated s (modRun n f s) :=
  ⟨_, s.fault.list, s.report.queue, rfl, fun _ => rfl⟩

theorem setFaultList_evaluated (l : List FaultRecord) (s : State) : Evaluated s (setFaultList l s) :=
  ⟨s.fault.runs, l, s.report.queue, rfl, fun _ => rfl⟩

theorem makeRoom_evaluated {severity : Nat} {s t : State} (h : makeRoom severity s = some t) : Evaluated s t := by
  unfold makeRoom at h
  split at h
  · cases h; exact Evaluated.refl s
  · split at h
    · cases h; exact setFaultList_evaluated _ s
    · split at h
      · split at h
        · cases h; exact (setFaultList_evaluated _ s).trans (modRun_evaluated _ _ _)
        · cases h
      · cases h

theorem createRecord_evaluated (n : Nat) (t : TrigCfg) (s : State) : Evaluated s (createRecord n t s) := by
  unfold createRecord
  split
  · next h => exact ((makeRoom_evaluated h).trans (setFaultList_evaluated _ _)).trans (modRun_evaluated _ _ _)
  · exact Evaluated.refl s

theorem coalesce_evaluated (n : Nat) (s : State) : Evaluated s (coalesce n s) := by
  unfold coalesce
  dsimp only
  split
  · next hh =>
    unfold rewriteQueued
    split
    · split
      · exact ⟨s.fault.runs, _, _, rfl, fun away => by rw [hh] at away; cases away⟩
      · exact setFaultList_evaluated _ s
    · exact setFaultList_evaluated _ s
  · exact setFaultList_evaluated _ s

theorem evalTrigger_evaluated (s : State) (n : Nat) : Evaluated s (evalTrigger s n) := by
  have risen : ∀ t r, Evaluated s (rise n t r s) := by
    intro t r
    unfold rise
    split
    · exact createRecord_evaluated n t s
    · split
      · exact coalesce_evaluated n s
      · exact Evaluated.refl s
  unfold evalTrigger
  split
  · split
    · split
      · exact modRun_evaluated _ _ s
      · exact (risen _ _).trans (modRun_evaluated _ _ _)
    · exact Evaluated.refl s
  · exact Evaluated.refl s

theorem evalTriggers_evaluated (s : State) : Evaluated s (evalTriggers s) := by
  have fold : ∀ (l : List Nat) (t : State), Evaluated s t → Evaluated s (l.foldl evalTrigger t) := by
    intro l
    induction l with
    | nil => exact fun _ h => h
    | cons n l ih => exact fun t h => ih _ (h.trans (evalTrigger_evaluated t n))
  exact fold _ s (Evaluated.refl s)

/-- A condition set written whole: it stands as written, and beside it the triggers are evaluated. -/
theorem setConds_shape (v : BitVec 16) (s : State) :
    Evaluated (s.modFault fun m => { m with conds := v }) (setConds v s) := by
  unfold setConds
  split
  · next h => subst h; exact Evaluated.refl s
  · exact evalTriggers_evaluated _

theorem setConds_conds (v : BitVec 16) (s : State) : (setConds v s).fault.conds = v := by
  obtain ⟨r, l, q, e, -⟩ := setConds_shape v s
  rw [e]; rfl

theorem setCond_conds (c : Cond) (b : Bool) (s : State) :
    (setCond c b s).fault.conds = writeCond s.fault.conds c b := setConds_conds _ _

theorem setCond_cond_same (c : Cond) (b : Bool) (s : State) : (setCond c b s).cond c = b := by
  rw [State.cond, setCond_conds, getLsbD_writeCond_same]

theorem setCond_cond_other {c d : Cond} (b : Bool) (s : State) (h : d ≠ c) :
    (setCond c b s).cond d = s.cond d := by
  rw [State.cond, setCond_conds, getLsbD_writeCond_other _ _ h, State.cond]

/-- A condition set with the six conditions written that follow a level (R27, R59, R104, R105, R134, R135). -/
def levelConds (s : State) (v : BitVec 16) : BitVec 16 :=
  writeCond (writeCond (writeCond (writeCond (writeCond (writeCond v .noiseTracked (decide (0 < s.noise.tracked)))
    .peerLost (!s.hold.lost.isEmpty)) .mainsOff (!s.full)) .batteryLow s.pins.battLow) .portParked s.anyParked)
      .portShort s.anyShort

/-- A condition set with the three line conditions ended. -/
def endLineConds (v : BitVec 16) : BitVec 16 :=
  writeCond (writeCond (writeCond v .lineDead false) .lineLeaky false) .lineForeign false

/-- The condition set at the end of a command, written from the levels it follows. -/
def condsWanted (s : State) : BitVec 16 :=
  if s.holding then levelConds s s.fault.conds else endLineConds (levelConds s s.fault.conds)

theorem Evaluated.write {s t : State} {v : BitVec 16} (w : BitVec 16)
    (h : Evaluated (s.modFault fun m => { m with conds := v }) t) :
    Evaluated (s.modFault fun m => { m with conds := w }) (setConds w t) := by
  obtain ⟨r, l, q, rfl, hq⟩ := h
  have start : Evaluated (s.modFault fun m => { m with conds := w })
      ((withTriggers r l q (s.modFault fun m => { m with conds := v })).modFault fun m => { m with conds := w }) :=
    ⟨r, l, q, rfl, hq⟩
  exact start.trans (setConds_shape w _)

/-- Away from HOLDING the three line conditions end with it (log 49). -/
theorem Evaluated.endLine {s t : State} {v : BitVec 16}
    (h : Evaluated (s.modFault fun m => { m with conds := v }) t) :
    Evaluated (s.modFault fun m => { m with conds := if s.holding then v else endLineConds v })
      (if t.holding then t else setConds (endLineConds t.fault.conds) t) := by
  have read : t.fault.conds = v ∧ t.holding = s.holding := by obtain ⟨r, l, q, rfl, -⟩ := h; exact ⟨rfl, rfl⟩
  rw [read.1, read.2]
  cases hh : s.holding with
  | true => exact h
  | false => exact h.write _

/-- The end of a command writes the condition set from the levels it follows, and the triggers are evaluated beside
it. -/
theorem settleConds_shape (s : State) :
    Evaluated (s.modFault fun m => { m with conds := condsWanted s }) (settleConds s) := by
  have step : ∀ (c : Cond) (b : Bool) (t : State) (v : BitVec 16),
      Evaluated (s.modFault fun m => { m with conds := v }) t →
        Evaluated (s.modFault fun m => { m with conds := writeCond v c b }) (setCond c b t) := by
    intro c b t v h
    have read : t.fault.conds = v := by obtain ⟨r, l, q, rfl, -⟩ := h; rfl
    rw [setCond, read]
    exact h.write _
  have levels : Evaluated (s.modFault fun m => { m with conds := levelConds s s.fault.conds }) _ :=
    step .portShort s.anyShort _ _ (step .portParked s.anyParked _ _ (step .batteryLow s.pins.battLow _ _
      (step .mainsOff (!s.full) _ _ (step .peerLost (!s.hold.lost.isEmpty) _ _
        (step .noiseTracked (decide (0 < s.noise.tracked)) _ _ (Evaluated.refl s))))))
  exact levels.endLine

theorem settleConds_conds (s : State) : (settleConds s).fault.conds = condsWanted s := by
  obtain ⟨r, l, q, e, -⟩ := settleConds_shape s
  rw [e]; rfl

/-- What each condition reads in the set that the end of a command writes. -/
def condWanted (s : State) : Cond → Bool
  | .noiseTracked => decide (0 < s.noise.tracked)
  | .peerLost => !s.hold.lost.isEmpty
  | .mainsOff => !s.full
  | .batteryLow => s.pins.battLow
  | .portParked => s.anyParked
  | .portShort => s.anyShort
  | .lineDead => s.holding && s.cond .lineDead
  | .lineLeaky => s.holding && s.cond .lineLeaky
  | .lineForeign => s.holding && s.cond .lineForeign
  | c => s.cond c

theorem condsWanted_get (s : State) (c : Cond) : (condsWanted s).getLsbD (condNo c) = condWanted s c := by
  have other : ∀ {c d : Cond} (v : BitVec 16) (b : Bool), d ≠ c →
      (writeCond v c b).getLsbD (condNo d) = v.getLsbD (condNo d) := fun v b h => getLsbD_writeCond_other v b h
  unfold condsWanted endLineConds levelConds
  cases hh : s.holding <;> cases c <;>
    simp (disch := decide) only [condWanted, hh, other, getLsbD_writeCond_same, State.cond, Bool.true_and,
      Bool.false_and, if_true, Bool.false_eq_true, if_false]

theorem settleConds_cond (s : State) (c : Cond) : (settleConds s).cond c = condWanted s c := by
  rw [State.cond, settleConds_conds, condsWanted_get]

/-- The rules after the condition rules write no condition. -/
theorem settleLater_conds (s : State) : (settleLater s).fault.conds = s.fault.conds := by
  have reports : ∀ t, (settleReports t).fault.conds = t.fault.conds := by
    intro t
    unfold settleReports
    split
    · rfl
    · unfold sendReport
      split
      · split
        · split
          · rw [(offerControl_only _ _ _).fault]; rfl
          · rfl
        · rfl
      · rfl
  have lamp : ∀ t, (settleLamp t).fault.conds = t.fault.conds := by
    intro t; unfold settleLamp; split <;> rfl
  rw [settleLater, lamp, (settleLoss_only _).fault, (startOutpulse_only _).fault, (startTransfer_only _).fault,
    (mailboxOffer_only _).fault, reports]

/-- After the condition rules the conditions of the end of a command stand as `condWanted` says. -/
theorem settleRest_cond {s : State} (h : StaysUp s) (c : Cond) :
    (settleRest s).cond c = condWanted (settleDataHead s) c := by
  have last : (settleRest s).fault = (settleLater (settleMiddle s)).fault :=
    (clearNotices_only _).fault.trans (settleTones_only _).fault
  rw [State.cond, last, settleLater_conds, settleMiddle_staysUp h, State.modPower_fault, ← settleConds_cond, State.cond]

/-- Where the rules but the idle timer's have nothing to do and none sends the station to WATCH, the rest writes the
idle timer alone. -/
theorem settleRest_others {s : State} (h : OthersSettled s) (up : StaysUp s) :
    settleRest s = clearNotices (s.modPower fun p =>
      { p with idle := if s.idleHolds then some (p.idle.getD s.now) else none }) := by
  have o : OthersSettled (s.modPower fun p =>
      { p with idle := if s.idleHolds then some (p.idle.getD s.now) else none }) :=
    ⟨h.head, h.conds, h.reports, h.offer, h.transfer, h.outpulse, h.loss, h.lamp, h.tones⟩
  rw [settleRest, settleMiddle_staysUp up, settleDataHead_of h.head, settleConds_of h.conds, settleLater,
    settleReports_of o.reports, mailboxOffer_of o.offer, startTransfer_of o.transfer, startOutpulse_of o.outpulse,
    settleLoss_of o.loss, settleLamp_of o.lamp, settleTones_of o.tones]

/-! ## Frames joining the control queue (R11, R18) -/

/-- What a control frame handed over drops: itself or a waiting BEACON (R11). -/
def controlDrops (s : State) (b : Body) : List Body :=
  if s.halted then [b] else if s.wire.control.length < 8 then [] else if s.wire.control.any waitingBeacon then [.beacon]
  else [b]

theorem offerControl_eq (dst : Nat) {b : Body} (s : State) (hb : b ≠ .beacon) (hh : b ≠ .halt) :
    offerControl dst b s = s.modWire fun w => { w with
      control := if s.halted then w.control else controlJoined w.control (newEntry (some dst) b s.now)
      dropped := w.dropped ++ controlDrops s b } := by
  have beacon : (fun f : TxEntry => !f.inTx && decide (f.body = .beacon)) = waitingBeacon := rfl
  unfold offerControl controlDrops controlJoined
  rw [beacon, decide_eq_true hh, Bool.and_true, if_neg hb]
  simp only [Config.controlMax, noteDropped]
  cases s.halted with
  | true => rfl
  | false =>
    by_cases room : s.wire.control.length < 8
    · simp [room, State.modWire]
    · by_cases beacon : s.wire.control.any waitingBeacon = true <;> simp only [room, beacon, State.modWire] <;> rfl

theorem mem_controlDrops {s : State} {b d : Body} (h : d ∈ controlDrops s b) : d = b ∨ d = .beacon := by
  unfold controlDrops at h
  split at h
  · exact .inl (by simpa using h)
  · split at h
    · cases h
    · split at h
      · exact .inr (by simpa using h)
      · exact .inl (by simpa using h)

/-- A frame that no block hears of when it is dropped. -/
def inert : Body → Bool
  | .claim _ _ | .yield | .request _ _ => false
  | _ => true

theorem droppedNotice_inert {b : Body} (s : State) (h : inert b = true) : droppedNotice s b = s := by
  cases b <;> first | rfl | cases h

end Sys2Proof.Machine
end

section
/-! PROOFS. A heard frame (R8, R23, R27, R28, R102): what hearing writes into the roster and the ports, and that a frame
whose sender the roster holds already, as it announces itself, leaves a settled station settled. -/

namespace Sys2Proof.Machine

open Sys2Proof

/-! ## The holder candidates -/

theorem lowestId_none {cs : List (Nat × Bool)} : lowestId cs = none ↔ cs = [] := by
  cases cs with
  | nil => simp [lowestId]
  | cons c cs => simp only [lowestId]; cases lowestId cs <;> simp

/-- The lowest id is one of the candidates' and not above any of them. -/
theorem lowestId_some {cs : List (Nat × Bool)} {i : Nat} :
    lowestId cs = some i ↔ i ∈ cs.map (·.1) ∧ ∀ j ∈ cs.map (·.1), i ≤ j := by
  induction cs generalizing i with
  | nil => simp [lowestId]
  | cons c cs ih =>
    simp only [lowestId]
    cases h : lowestId cs with
    | none =>
      rw [lowestId_none] at h
      subst h
      simp only [Option.some.injEq, List.map_cons, List.map_nil, List.mem_singleton, forall_eq]
      omega
    | some j =>
      obtain ⟨member, least⟩ := ih.mp h
      simp only [Option.some.injEq, List.map_cons, List.mem_cons, forall_eq_or_imp]
      constructor
      · rintro rfl
        refine ⟨?_, by omega, fun k hk => ?_⟩
        · rcases Nat.le_total c.1 j with le | le
          · exact .inl (by omega)
          · exact .inr (by rwa [Nat.min_eq_right le])
        · have := least k hk; omega
      · rintro ⟨rfl | inTail, first, rest⟩
        · have := rest j member; omega
        · have := least i inTail; have := rest j member; omega

/-- The lowest id depends on which ids stand for election alone. -/
theorem lowestId_congr {cs ds : List (Nat × Bool)} (h : ∀ i, i ∈ cs.map (·.1) ↔ i ∈ ds.map (·.1)) :
    lowestId cs = lowestId ds := by
  apply Option.ext
  intro i
  simp only [lowestId_some, h]

theorem keeper_congr {cs ds : List (Nat × Bool)} (h : ∀ i, i ∈ cs.map (·.1) ↔ i ∈ ds.map (·.1))
    (h' : ∀ i, i ∈ (cs.filter (·.2)).map (·.1) ↔ i ∈ (ds.filter (·.2)).map (·.1)) : keeper cs = keeper ds := by
  rw [keeper, keeper, lowestId_congr h', lowestId_congr h]

/-- The candidates among roster entries (R28). -/
def rosterCandidates (l : List Peer) : List (Nat × Bool) :=
  (l.filter fun p => decide (p.hold = .listed .holding)).map fun p =>
    (p.id, match p.block with | some b => b.call | none => false)

theorem candidates_eq (s : State) : s.candidates =
    rosterCandidates s.hold.roster ++ (if s.holding then [(s.own, s.call.record.isSome)] else []) := rfl

theorem rosterCandidates_cons (p : Peer) (l : List Peer) : rosterCandidates (p :: l) =
    (if p.hold = .listed .holding then [(p.id, match p.block with | some b => b.call | none => false)] else []) ++
      rosterCandidates l := by
  unfold rosterCandidates
  by_cases h : p.hold = .listed .holding <;> simp [h]

theorem freshPeer_candidates (id : Nat) (start : Tick) (h : Coded HoldState) (l : List Peer) :
    rosterCandidates (freshPeer id start h :: l) =
      (if h = .listed .holding then [(id, false)] else []) ++ rosterCandidates l := rosterCandidates_cons _ _

/-- Which entry of a roster speaks for an id (R22). -/
def peerIn (id : Nat) (l : List Peer) : Option Peer := l.find? fun p => decide (p.id = id)

theorem peerIn_cons (id : Nat) (p : Peer) (l : List Peer) :
    peerIn id (p :: l) = if p.id = id then some p else peerIn id l := by
  by_cases h : p.id = id <;> simp [peerIn, h]

theorem mem_candidates_of_peerIn {id : Nat} {h : Coded HoldState} (hh : h = .listed .holding) :
    ∀ {l : List Peer}, (peerIn id l).map (·.hold) = some h → id ∈ (rosterCandidates l).map (·.1)
  | [], known => by cases known
  | p :: l, known => by
    rw [rosterCandidates_cons, List.map_append, List.mem_append]
    rw [peerIn_cons] at known
    split at known
    · next same =>
      have announced : p.hold = .listed .holding := by rw [← hh]; simpa using known
      exact .inl (by simp [announced, same])
    · exact .inr (mem_candidates_of_peerIn hh known)

/-- Hearing a sender as the roster holds it changes neither who stands for holder nor who is on a call. -/
theorem candidates_hearIn {id : Nat} {start : Tick} {h : Coded HoldState} : ∀ {l : List Peer},
    (peerIn id l).map (·.hold) = some h →
      (∀ i, i ∈ (rosterCandidates (hearIn id start h l)).map (·.1) ↔ i ∈ (rosterCandidates l).map (·.1)) ∧
      (∀ i, i ∈ ((rosterCandidates (hearIn id start h l)).filter (·.2)).map (·.1) ↔
        i ∈ ((rosterCandidates l).filter (·.2)).map (·.1))
  | [], known => by cases known
  | p :: l, known => by
    have inList := mem_candidates_of_peerIn (id := id) (h := h) (l := p :: l)
    unfold hearIn
    split
    · next same =>
      rw [peerIn_cons, if_pos same] at known
      have announced : p.hold = h := by simpa using known
      have unchanged : rosterCandidates (p.hears start h :: l) = rosterCandidates (p :: l) := by
        rw [rosterCandidates_cons, rosterCandidates_cons, announced]
        by_cases hh : h = .listed .holding <;> simp [Peer.hears, hh]
      rw [unchanged]
      exact ⟨fun _ => Iff.rfl, fun _ => Iff.rfl⟩
    · next other =>
      split
      · rw [freshPeer_candidates]
        by_cases hh : h = .listed .holding
        · have member := inList hh known
          refine ⟨fun i => ?_, fun i => by simp [hh]⟩
          simp only [hh, if_true, List.singleton_append, List.map_cons, List.mem_cons]
          exact ⟨fun e => e.elim (fun e => e ▸ member) fun e => e, .inr⟩
        · simp [hh]
      · rw [peerIn_cons, if_neg other] at known
        obtain ⟨ids, calls⟩ := candidates_hearIn (start := start) known
        rw [rosterCandidates_cons, rosterCandidates_cons]
        simp only [List.filter_append, List.map_append, List.mem_append, ids, calls, implies_true, and_self]

/-! ## The sender's entry -/

theorem peer_eq (id : Nat) (s : State) : s.peer id = peerIn id s.hold.roster := rfl

/-- After hearing, the sender's entry is the former one renewed, or a fresh one. -/
theorem peerIn_hearIn_same (id : Nat) (start : Tick) (h : Coded HoldState) (l : List Peer) :
    (∃ p, peerIn id l = some p ∧ peerIn id (hearIn id start h l) = some (p.hears start h)) ∨
      peerIn id (hearIn id start h l) = some (freshPeer id start h) := by
  induction l with
  | nil => exact .inr (by simp [hearIn, peerIn, freshPeer])
  | cons p l ih =>
    unfold hearIn
    split
    · next same => exact .inl ⟨p, by simp [peerIn_cons, same], by simp [peerIn_cons, Peer.hears, same]⟩
    · next other =>
      split
      · exact .inr (by simp [peerIn_cons, freshPeer])
      · simpa only [peerIn_cons, if_neg other] using ih

theorem peerIn_hearIn_other {id id' : Nat} (start : Tick) (h : Coded HoldState) (l : List Peer) (ne : id' ≠ id) :
    peerIn id' (hearIn id start h l) = peerIn id' l := by
  induction l with
  | nil => simp [hearIn, peerIn, freshPeer, ne.symm]
  | cons p l ih =>
    unfold hearIn
    split
    · next same =>
      have ne' : p.id ≠ id' := fun e => ne (e.symm.trans same)
      rw [peerIn_cons, peerIn_cons, if_neg ne', if_neg (show (p.hears start h).id ≠ id' from ne')]
    · split
      · rw [peerIn_cons, if_neg (show (freshPeer id start h).id ≠ id' from ne.symm)]
      · rw [peerIn_cons, peerIn_cons, ih]

/-- In a roster whose ids rise, the entry of a known sender is renewed in its place (R22, R23). -/
theorem peerIn_hearIn_sorted {id : Nat} {start : Tick} {h : Coded HoldState} {p : Peer} : ∀ {l : List Peer},
    (l.map (·.id)).Pairwise (· < ·) → peerIn id l = some p →
      peerIn id (hearIn id start h l) = some (p.hears start h)
  | [], _, known => by cases known
  | q :: l, sorted, known => by
    rw [List.map_cons, List.pairwise_cons] at sorted
    rw [peerIn_cons] at known
    unfold hearIn
    split
    · next same =>
      rw [if_pos same] at known
      cases known
      rw [peerIn_cons, if_pos (show (p.hears start h).id = id from same)]
    · next other =>
      rw [if_neg other] at known
      have found := List.mem_of_find?_eq_some known
      have named : p.id = id := by simpa using List.find?_some known
      have later := sorted.1 p.id (List.mem_map_of_mem found)
      rw [if_neg (by omega), peerIn_cons, if_neg other]
      exact peerIn_hearIn_sorted sorted.2 known

/-! ## The ports -/

/-- Hearing restarts a holder silence timer at most (R102). -/
theorem feedHolder_eq (src : Nat) (now : Tick) (p : Port) : ∃ x, feedHolder src now p = { p with silence := x } := by
  unfold feedHolder
  split
  · split
    · exact ⟨_, rfl⟩
    · exact ⟨_, rfl⟩
  · exact ⟨_, rfl⟩

theorem feedHolder_silence_isSome (src : Nat) (now : Tick) (p : Port) :
    (feedHolder src now p).silence.isSome = p.silence.isSome := by
  unfold feedHolder
  split
  · split
    · next h => exact h.2.symm
    · rfl
  · rfl

/-! ## A heard frame at a settled station -/

/-- The station once a frame has been heard and before its contents are taken: carrier has fallen, the receive is over,
the roster and the holder silence timers are renewed (R6, R23, R102). -/
def heardNow (h : Header) (start : Tick) (s : State) : State :=
  { s with
    outs := [], pins := { s.pins with carrier := false }, wire := { s.wire with rx := none }
    hold := { s.hold with
      roster := hearIn h.src start h.hold s.hold.roster, lost := s.hold.lost.filter fun i => decide (i ≠ h.src) }
    ports := { s.ports with one := feedHolder h.src s.now s.ports.one, two := feedHolder h.src s.now s.ports.two } }

theorem heardFrame_eq (h : Header) (start : Tick) (s : State) :
    heardFrame h.src start h.hold (dropRx (carrierOff s).quiet) = heardNow h start s := rfl

section
variable (h : Header) (start : Tick) (s : State)

@[simp] theorem heardNow_phase : (heardNow h start s).phase = s.phase := rfl
@[simp] theorem heardNow_now : (heardNow h start s).now = s.now := rfl
@[simp] theorem heardNow_straps : (heardNow h start s).straps = s.straps := rfl
@[simp] theorem heardNow_own : (heardNow h start s).own = s.own := rfl
@[simp] theorem heardNow_cfg : (heardNow h start s).cfg = s.cfg := rfl
@[simp] theorem heardNow_power : (heardNow h start s).power = s.power := rfl
@[simp] theorem heardNow_wire : (heardNow h start s).wire = { s.wire with rx := none } := rfl
@[simp] theorem heardNow_noise : (heardNow h start s).noise = s.noise := rfl
@[simp] theorem heardNow_sup : (heardNow h start s).sup = s.sup := rfl
@[simp] theorem heardNow_call : (heardNow h start s).call = s.call := rfl
@[simp] theorem heardNow_fault : (heardNow h start s).fault = s.fault := rfl
@[simp] theorem heardNow_report : (heardNow h start s).report = s.report := rfl
@[simp] theorem heardNow_outs : (heardNow h start s).outs = [] := rfl
@[simp] theorem heardNow_holdState : (heardNow h start s).hold.state = s.hold.state := rfl
@[simp] theorem heardNow_degraded : (heardNow h start s).hold.degraded = s.hold.degraded := rfl
@[simp] theorem heardNow_known : (heardNow h start s).hold.known = s.hold.known := rfl
@[simp] theorem heardNow_halted : (heardNow h start s).halted = s.halted := rfl
@[simp] theorem heardNow_holding : (heardNow h start s).holding = s.holding := rfl
@[simp] theorem heardNow_cond (c : Cond) : (heardNow h start s).cond c = s.cond c := rfl
@[simp] theorem heardNow_ringing : (heardNow h start s).ports.ringing = s.ports.ringing := rfl
@[simp] theorem heardNow_tag : (heardNow h start s).ports.tag = s.ports.tag := rfl
@[simp] theorem heardNow_fitted (n : PortNo) : (heardNow h start s).fitted n = s.fitted n := by cases n <;> rfl

theorem heardNow_port (n : PortNo) : (heardNow h start s).port n = feedHolder h.src s.now (s.port n) := by
  cases n <;> rfl

end

/-- A known sender's class is read as before, in a roster whose ids rise (R22). -/
theorem heardNow_classOf {h : Header} {start : Tick} {s : State} (ok : RosterOk s)
    (known : (s.peer h.src).isSome = true)
    (id : Nat) : (heardNow h start s).classOf id = s.classOf id := by
  obtain ⟨-, -, sorted, -⟩ := ok
  obtain ⟨p, hp⟩ := Option.isSome_iff_exists.mp known
  rw [peer_eq] at hp
  have peer : ((heardNow h start s).peer id).bind (·.part) = (s.peer id).bind (·.part) := by
    by_cases same : id = h.src
    · subst same
      have renewed : (heardNow h start s).peer h.src = some (p.hears start h.hold) := peerIn_hearIn_sorted sorted hp
      rw [renewed, peer_eq, hp]; rfl
    · have other : (heardNow h start s).peer id = s.peer id := peerIn_hearIn_other start h.hold s.hold.roster same
      rw [other]
  simp only [State.classOf, peer, heardNow_own, heardNow_cfg]

theorem Familiar.isSome {s : State} {h : Header} (fam : Familiar s h) : (s.peer h.src).isSome = true := by
  cases known : s.peer h.src with
  | none => rw [Familiar, known] at fam; cases fam.1
  | some p => rfl

/-- The reports stay settled where a link can only have come up. -/
theorem reportsSettled_mono {s t : State} (holding : t.holding = s.holding) (known : t.hold.known = s.hold.known)
    (fault : t.fault = s.fault) (report : t.report = s.report) (halted : t.halted = s.halted)
    (broadband : ∀ id, s.broadbandOf id = false → t.broadbandOf id = false) (h : reportsSettled s = true) :
    reportsSettled t = true := by
  unfold reportsSettled at h ⊢
  rw [holding, known, fault, report, halted]
  split
  · next away => simpa only [away, if_true] using h
  · next away =>
    rw [if_neg away] at h
    cases hk : s.hold.known with
    | none => rfl
    | some k =>
      rw [hk] at h
      cases hb : s.broadbandOf k with
      | false => simp [broadband k hb]
      | true =>
        simp only [hb, Bool.not_true, Bool.or_false, Bool.or_eq_true] at h ⊢
        tauto

/-- Hearing a sender of the hold state on record changes nothing about who the holder is (R28). -/
theorem computeHolder_heardNow {h : Header} (start : Tick) {s : State}
    (known : (s.peer h.src).map (·.hold) = some h.hold) :
    (heardNow h start s).computeHolder = s.computeHolder := by
  have cands := candidates_hearIn (start := start) (l := s.hold.roster) known
  have roster : (heardNow h start s).hold.roster = hearIn h.src start h.hold s.hold.roster := rfl
  rw [State.computeHolder, State.computeHolder, candidates_eq, candidates_eq, roster, heardNow_holding, heardNow_own,
    heardNow_call]
  refine keeper_congr (fun i => ?_) (fun i => ?_)
  · simp only [List.map_append, List.mem_append, cands.1 i]
  · simp only [List.filter_append, List.map_append, List.mem_append, cands.2 i]

/-- Hearing brings a link up at most. -/
theorem broadbandOf_heardNow (h : Header) (start : Tick) (s : State) (id : Nat) (down : s.broadbandOf id = false) :
    (heardNow h start s).broadbandOf id = false := by
  have roster : ∀ i, (heardNow h start s).peer i = peerIn i (hearIn h.src start h.hold s.hold.roster) := fun _ => rfl
  rw [State.broadbandOf, peer_eq] at down
  rw [State.broadbandOf, roster]
  by_cases same : id = h.src
  · subst same
    rcases peerIn_hearIn_same h.src start h.hold s.hold.roster with ⟨p, old, new⟩ | new
    · rw [old] at down
      rw [new]
      by_cases hh : h.hold = .listed .holding
      · simpa [Peer.hears, hh] using down
      · simp [Peer.hears, hh]
    · rw [new]; rfl
  · rw [peerIn_hearIn_other start h.hold s.hold.roster same]
    exact down

/-- What hearing a frame can write: the carrier pin, the receive, the roster and the silence timers. -/
def heardWith (l : List Peer) (x y : Option Tick) (s : State) : State :=
  { s with
    outs := [], pins := { s.pins with carrier := false }, wire := { s.wire with rx := none }
    hold := { s.hold with roster := l }
    ports := { s.ports with one := { s.ports.one with silence := x }, two := { s.ports.two with silence := y } } }

theorem heardNow_shape {h : Header} (start : Tick) {s : State} (found : h.src ∉ s.hold.lost) :
    ∃ x y, heardNow h start s = heardWith (hearIn h.src start h.hold s.hold.roster) x y s := by
  obtain ⟨x, one⟩ := feedHolder_eq h.src s.now s.ports.one
  obtain ⟨y, two⟩ := feedHolder_eq h.src s.now s.ports.two
  have lost : s.hold.lost.filter (fun i => decide (i ≠ h.src)) = s.hold.lost :=
    List.filter_eq_self.mpr fun i hi => decide_eq_true fun e => found (e ▸ hi)
  exact ⟨x, y, by rw [heardNow, lost, one, two, heardWith]⟩

theorem port_heardWith (l : List Peer) (x y : Option Tick) (s : State) (n : PortNo) :
    ∃ z, (heardWith l x y s).port n = { s.port n with silence := z } := by
  cases n with
  | one => exact ⟨x, rfl⟩
  | two => exact ⟨y, rfl⟩

theorem heardWith_settled {l : List Peer} {x y : Option Tick} {s : State} (r : RestSettled s)
    (reports : reportsSettled (heardWith l x y s) = true) : RestSettled (heardWith l x y s) := by
  have parked : (heardWith l x y s).anyParked = s.anyParked := anyParked_congr rfl fun n => by
    obtain ⟨z, e⟩ := port_heardWith l x y s n
    rw [e]
  have short : (heardWith l x y s).anyShort = s.anyShort := anyShort_congr rfl fun n => by cases n <;> rfl
  have tones : ∀ n, ((heardWith l x y s).port n).tone = (s.port n).tone := fun n => by
    obtain ⟨z, e⟩ := port_heardWith l x y s n
    rw [e]
  exact ⟨⟨r.head, condsSettled_congr (s := s) rfl rfl rfl rfl rfl parked short rfl r.conds, reports, r.offer,
    r.transfer,
    r.outpulse, r.loss, r.lamp, tonesSettled_congr (s := s) rfl tones rfl r.tones⟩, r.idle⟩

/-- Hearing a familiar sender leaves a settled station settled. -/
theorem calm_heardNow {s : State} {h : Header} (start : Tick) (calm : Calm s) (fam : Familiar s h) :
    Calm (heardNow h start s) := by
  have f := Calm.first calm
  have holder := (computeHolder_heardNow start fam.1).trans f.holder
  have reports : reportsSettled (heardNow h start s) = true :=
    reportsSettled_mono (s := s) rfl rfl rfl rfl rfl (broadbandOf_heardNow h start s) (Calm.rest calm).reports
  obtain ⟨x, y, shape⟩ := heardNow_shape start fam.2
  rw [shape] at holder reports ⊢
  have dropped : (heardWith (hearIn h.src start h.hold s.hold.roster) x y s).wire.dropped = [] :=
    Calm.dropped (s := s) calm
  exact calm_of (Calm.active (s := s) calm) ⟨f.eligible, f.degraded, holder, by simp [dropped]⟩ dropped
    (heardWith_settled (Calm.rest calm) reports)

/-- A frame whose start was heard, of a familiar other station, at a settled station: its contents are taken where it is
addressed to all or to this station, and the command ends (R8). -/
theorem frame_familiar {s : State} {h : Header} {start : Tick} (tie : Option (BitVec 16))
    (act : Tick → State → State) (calm : Calm s) (hear : Hearing s start) (fam : Familiar s h) (other : h.src ≠ s.own) :
    frame h tie act s =
      finish (if h.dst = 0 ∨ h.dst = s.own then act start (heardNow h start s) else heardNow h start s) := by
  have active : s.active = true := Calm.active calm
  have active' : (carrierOff s).active = true := active
  have rx : (carrierOff s).quiet.wire.rx = some ⟨start, true⟩ := hear
  have away : h.src ≠ (dropRx (carrierOff s).quiet).own := other
  have settled : settleHolder (heardFrame h.src start h.hold (dropRx (carrierOff s).quiet)) = heardNow h start s :=
    (congrArg settleHolder (heardFrame_eq h start s)).trans
      (settleHolder_of (Calm.first (calm_heardNow start calm fam)).holder)
  rw [frame, carrierEnd, active, if_pos rfl, running_active active', rx]
  simp only [if_true, dispatch]
  rw [if_neg away, settled]
  rfl

/-- The contents of a familiar frame for this station (R8). -/
theorem frame_forUs {s : State} {h : Header} {start : Tick} (tie : Option (BitVec 16))
    (act : Tick → State → State) (calm : Calm s) (hear : Hearing s start) (us : ForUs s h) (fam : Familiar s h) :
    frame h tie act s = finish (act start (heardNow h start s)) := by
  rw [frame_familiar tie act calm hear fam us.1, if_pos us.2]

end Sys2Proof.Machine
end

section
/-! PROOFS. A request that came by frame (R111 to R116): it is judged at a settled station, its REPLY is handed
over, and the command's end adds nothing. -/

namespace Sys2Proof.Machine

open Sys2Proof

/-! ## A frame handed over at a settled station -/

theorem halted_congr {s t : State} (h : t.hold.state = s.hold.state) : t.halted = s.halted := by
  rw [State.halted, State.halted, h]

theorem FirstSettled.of_inert {s : State} (eligible : s.eligibleNow = s.hold.eligible)
    (degraded : (s.holding && s.hold.degraded && s.call.record.isNone) = false)
    (holder : s.computeHolder = s.hold.known) (dropped : ∀ d ∈ s.wire.dropped, inert d = true) : FirstSettled s :=
  ⟨eligible, degraded, holder, fun d hd => droppedNotice_inert _ (dropped d hd)⟩

theorem FirstSettled.of_none {s : State} (eligible : s.eligibleNow = s.hold.eligible)
    (degraded : (s.holding && s.hold.degraded && s.call.record.isNone) = false)
    (holder : s.computeHolder = s.hold.known) (none : s.wire.dropped = []) : FirstSettled s :=
  .of_inert eligible degraded holder (by simp [none])

theorem clearNotices_of_none {s : State} (none : s.wire.dropped = []) : clearNotices s = s := by
  have e : clearNotices s = { s with wire := { s.wire with dropped := [] } } := rfl
  rw [e, ← none]

theorem offerControl_dropped_inert {dst : Nat} {b : Body} {s : State} (hb : b ≠ .beacon) (hh : b ≠ .halt)
    (hi : inert b = true) (dropped : ∀ d ∈ s.wire.dropped, inert d = true) :
    ∀ d ∈ (offerControl dst b s).wire.dropped, inert d = true := by
  intro d hd
  rw [offerControl_eq dst s hb hh] at hd
  rcases List.mem_append.mp hd with old | new
  · exact dropped d old
  · rcases mem_controlDrops new with rfl | rfl
    · exact hi
    · rfl

theorem RestSettled.offerControl {dst : Nat} {b : Body} {s : State} (h : RestSettled s) (hb : b ≠ .beacon)
    (hh : b ≠ .halt) : RestSettled (offerControl dst b s) := by
  rw [offerControl_eq dst s hb hh]
  exact ⟨⟨h.head, h.conds, h.reports, h.offer, h.transfer, h.outpulse, h.loss, h.lamp, h.tones⟩, h.idle⟩

/-- A frame no block hears of when it is dropped, handed over where nothing else is left to do: the command ends with
it. -/
theorem finish_handed {dst : Nat} {b : Body} {s : State} (f : FirstSettled s) (r : RestSettled s)
    (none : s.wire.dropped = []) (hb : b ≠ .beacon) (hh : b ≠ .halt) (hi : inert b = true) :
    finish (offerControl dst b s) = clearNotices (offerControl dst b s) := by
  have dropped := offerControl_dropped_inert (dst := dst) (s := s) hb hh hi (by simp [none])
  refine finish_of_settled ?_ (r.offerControl hb hh)
  rw [offerControl_eq dst s hb hh] at dropped ⊢
  exact .of_inert f.eligible f.degraded f.holder dropped

theorem finish_offerControl {dst : Nat} {b : Body} {s : State} (calm : Calm s) (hb : b ≠ .beacon) (hh : b ≠ .halt)
    (hi : inert b = true) : finish (offerControl dst b s) = clearNotices (offerControl dst b s) :=
  finish_handed (Calm.first calm) (Calm.rest calm) (Calm.dropped calm) hb hh hi

/-- What the state's owner sees of the control queue after a frame was handed over. -/
theorem frameHanded_offerControl {dst : Nat} {b : Body} {s t : State} (hb : b ≠ .beacon) (hh : b ≠ .halt)
    (control : t.wire.control = s.wire.control) (halted : t.halted = s.halted) (now : t.now = s.now) :
    FrameHanded dst b s (offerControl dst b t) := by
  rw [FrameHanded, offerControl_eq dst t hb hh, ← control, ← halted, ← now]
  rfl

/-- A frame handed over where nothing else is left to do joins the control queue, and the command's end changes nothing
more. -/
theorem finish_handed_read {dst : Nat} {b : Body} {s w : State} (f : FirstSettled w) (r : RestSettled w)
    (none : w.wire.dropped = []) (control : w.wire.control = s.wire.control) (halted : w.halted = s.halted)
    (now : w.now = s.now) (hb : b ≠ .beacon) (hh : b ≠ .halt) (hi : inert b = true) :
    FrameHanded dst b s (finish (offerControl dst b w)) ∧ Only [.wire] w (finish (offerControl dst b w)) := by
  rw [finish_handed f r none hb hh hi]
  exact ⟨frameHanded_offerControl (t := w) hb hh control halted now,
    (clearNotices_only _).after (offerControl_only _ _ _) (by decide)⟩

/-! ## The end of a command at a holder whose call has changed -/

/-- All of the first part but the known holder has nothing to do, at a HOLDING station that knows a holder. -/
structure HolderSettled (s : State) : Prop where
  eligible : s.eligibleNow = s.hold.eligible
  degraded : (s.hold.degraded && s.call.record.isNone) = false
  holding : s.holding = true
  known : s.hold.known.isSome = true
  dropped : ∀ d ∈ s.wire.dropped, inert d = true

/-- The known holder as computed afresh (R28). -/
def holderNoted (s : State) : State := s.modHold fun q => { q with known := s.computeHolder }

theorem computeHolder_isSome_of_holding {s : State} (h : s.holding = true) : s.computeHolder.isSome = true := by
  have some_id : lowestId s.candidates ≠ none := by
    rw [Ne, lowestId_none, candidates_eq, h]
    simp
  unfold State.computeHolder keeper
  split
  · rfl
  · exact Option.isSome_iff_ne_none.mpr some_id

theorem holding_iff {s : State} : s.holding = true ↔ s.hold.state = .holding := by
  simp [State.holding]

/-- At a HOLDING station a change of the known holder is noted and no more (R28). -/
theorem settleHolder_holding {s : State} (h : s.holding = true) (known : s.hold.known.isSome = true) :
    settleHolder s = holderNoted s := by
  unfold settleHolder
  split
  · next same => rw [holderNoted, same]; rfl
  · obtain ⟨k, hk⟩ := Option.isSome_iff_exists.mp known
    obtain ⟨j, hj⟩ := Option.isSome_iff_exists.mp (computeHolder_isSome_of_holding h)
    have state : s.hold.state = .holding := holding_iff.mp h
    simp only [hk, hj, holderTiming, holderRules, holderNoted, State.modHold, state]

theorem finish_of_holder {s : State} (h : HolderSettled s) (r : RestSettled s) :
    finish s = clearNotices (holderNoted s) := by
  have reports : reportsSettled (holderNoted s) = true := by
    have old := r.reports
    have holding : (holderNoted s).holding = true := h.holding
    rw [reportsSettled, h.holding, if_pos rfl] at old
    rw [reportsSettled, holding, if_pos rfl]
    exact old
  have rest : RestSettled (holderNoted s) :=
    ⟨⟨r.head, r.conds, reports, r.offer, r.transfer, r.outpulse, r.loss, r.lamp, r.tones⟩, r.idle⟩
  have degraded : (s.holding && s.hold.degraded && s.call.record.isNone) = false := by
    rw [h.holding, Bool.true_and, h.degraded]
  rw [finish_eq, settleFirst, settleEligible_of h.eligible, settleDegraded_of degraded,
    settleHolder_holding h.holding h.known,
    settleNotices_inert (s := holderNoted s) fun d hd => droppedNotice_inert _ (h.dropped d hd),
      settleRest_of rest.clearNotices]
  rfl

theorem Calm.holderSettled {s : State} (calm : Calm s) (h : s.holding = true) : HolderSettled s := by
  have f := Calm.first calm
  have degraded := f.degraded
  rw [h, Bool.true_and] at degraded
  exact ⟨f.eligible, degraded, h, f.holder ▸ computeHolder_isSome_of_holding h, by simp [Calm.dropped calm]⟩

theorem HolderSettled.offerControl {dst : Nat} {b : Body} {s : State} (h : HolderSettled s) (hb : b ≠ .beacon)
    (hh : b ≠ .halt) (hi : inert b = true) : HolderSettled (offerControl dst b s) := by
  have dropped := offerControl_dropped_inert (dst := dst) hb hh hi h.dropped
  rw [offerControl_eq dst s hb hh] at dropped ⊢
  exact ⟨h.eligible, h.degraded, h.holding, h.known, dropped⟩

/-- A station settled but for its line call record, whose new one has nothing left to do, that gives up a test or
not. -/
theorem RestSettled.setRecord {s : State} {r : CallRecord} (h : RestSettled s) (test : Option TestRun) (last : Nat)
    (outpulse : r.queue.isEmpty = true ∨ (r.seized && decide (r.outpulse = .idle)) = false)
    (loss : ∀ t : State, t.call.record = some r → t.pins = s.pins →
      r.loss.isSome = (r.seized && t.loopClosed && !t.pins.loopCurrent)) :
    RestSettled ((s.modFault fun m => { m with test := test }).modCall fun c =>
      { c with record := some r, lastId := last }) := by
  refine ⟨⟨h.head, h.conds, h.reports, h.offer, h.transfer, ?_, ?_, h.lamp, h.tones⟩, h.idle⟩
  · have e : outpulseSettled ((s.modFault fun m => { m with test := test }).modCall fun c =>
        { c with record := some r, lastId := last }) =
          (r.queue.isEmpty || !(r.seized && decide (r.outpulse = .idle))) := rfl
    rw [e]
    rcases outpulse with empty | busy
    · rw [empty, Bool.true_or]
    · rw [busy]; simp
  · exact decide_eq_true (loss _ rfl rfl)

/-! ## Requests that came by frame -/

/-- The command of a SEIZE or an ANSWER. -/
def requestInstr (k : RequestKind) (h : Header) (m : RequestMsg) : Instr :=
  if k = .answer then .answer h m else .seize h m

theorem requestInstr_of {c : Instr} {h : Header} {m : RequestMsg} (hc : c = .seize h m ∨ c = .answer h m) :
    ∃ k, (k = .seize ∨ k = .answer) ∧ c = requestInstr k h m ∧ (c = .answer h m ↔ k = .answer) ∧
      (c = .seize h m ↔ k = .seize) := by
  rcases hc with rfl | rfl
  · exact ⟨.seize, by simp, rfl, by simp, by simp⟩
  · exact ⟨.answer, by simp, rfl, by simp, by simp⟩

/-- A request by frame, at a station where its sender is familiar: it is judged, and the command ends. -/
theorem exec_request {s : State} {h : Header} {m : RequestMsg} {start : Tick} (k : RequestKind) (calm : Calm s)
    (hear : Hearing s start) (us : ForUs s h) (fam : Familiar s h) (hk : k = .seize ∨ k = .answer) :
    exec (requestInstr k h m) s = .next (finish (requestFrame k h.src m (heardNow h start s))) := by
  rcases hk with rfl | rfl
  · exact congrArg Host.Outcome.next (frame_forUs none _ calm hear us fam)
  · exact congrArg Host.Outcome.next (frame_forUs none _ calm hear us fam)

/-- The REPLY a verdict becomes (R112). -/
def replyOf (tag : Nat) (v : Verdict) : Body := .reply ⟨tag, v.answer, v.refStation, v.refPort, v.ref⟩

theorem requestFrame_of_judge {k : RequestKind} {st : Nat} {m : RequestMsg} {s t : State} {v : Verdict}
    (h : judge k st m.port m.cls s = (t, some v)) : requestFrame k st m s = offerControl st (replyOf m.tag v) t := by
  rw [requestFrame, h, replyOf]

theorem judge_of_holding {k : RequestKind} {st po cls : Nat} {s t : State} {v : Verdict} (holding : s.holding = true)
    (h : judgeHolding k st po cls s = (t, v)) : judge k st po cls s = (t, some v) := by
  rw [judge, holding_iff.mp holding]
  simp only [h]

/-- A request refused at a settled station: the REPLY is handed over and the call stays. -/
theorem request_refused {s : State} {h : Header} {m : RequestMsg} {start : Tick} {k : RequestKind} {v : Verdict}
    (calm : Calm s) (hear : Hearing s start) (us : ForUs s h) (fam : Familiar s h) (hk : k = .seize ∨ k = .answer)
    (judged : judge k h.src m.port m.cls (heardNow h start s) = (heardNow h start s, some v)) :
    ∃ t, exec (requestInstr k h m) s = .next t ∧ FrameHanded h.src (replyOf m.tag v) s t ∧ t.call = s.call := by
  have calm' := calm_heardNow start calm fam
  refine ⟨_, exec_request k calm hear us fam hk, ?_⟩
  rw [requestFrame_of_judge judged]
  obtain ⟨handed, only⟩ := finish_handed_read (dst := h.src) (b := replyOf m.tag v) (s := s) (Calm.first calm')
    (Calm.rest calm') (Calm.dropped calm') rfl rfl rfl nofun nofun rfl
  exact ⟨handed, only.call⟩

/-- A request granted at a holder: the REPLY is handed over, and the call is what the grant made it. -/
theorem request_granted {s w : State} {h : Header} {m : RequestMsg} {start : Tick} {k : RequestKind} {v : Verdict}
    (calm : Calm s) (hear : Hearing s start) (us : ForUs s h) (fam : Familiar s h) (hk : k = .seize ∨ k = .answer)
    (judged : judge k h.src m.port m.cls (heardNow h start s) = (w, some v)) (holder : HolderSettled w)
    (rest : RestSettled w) (same : Only [.pins, .outs, .hold, .ports, .fault, .call] (heardNow h start s) w)
    (halted : w.halted = s.halted) :
    ∃ t, exec (requestInstr k h m) s = .next t ∧ FrameHanded h.src (replyOf m.tag v) s t ∧ t.call = w.call ∧
      t.fault = w.fault := by
  refine ⟨_, exec_request k calm hear us fam hk, ?_⟩
  have wire : w.wire = (heardNow h start s).wire := same.wire
  rw [requestFrame_of_judge judged, finish_of_holder (holder.offerControl (b := replyOf m.tag v) nofun nofun rfl)
    (rest.offerControl nofun nofun)]
  have call : ∀ x, (clearNotices (holderNoted x)).call = x.call := fun x => (clearNotices_only _).call
  have fault : ∀ x, (clearNotices (holderNoted x)).fault = x.fault := fun x => (clearNotices_only _).fault
  refine ⟨frameHanded_offerControl (t := w) nofun nofun (by rw [wire]; rfl) halted same.now, ?_, ?_⟩
  · exact (call _).trans (offerControl_only _ _ _).call
  · exact (fault _).trans (offerControl_only _ _ _).fault

/-! ### What the checks of a request say -/

theorem portKnown_of_other {st po : Nat} {s : State} (other : st ≠ s.own) (hp : po = 1 ∨ po = 2) :
    s.portKnown st po = true := by
  rcases hp with rfl | rfl <;> simp [State.portKnown, portOf, other]

theorem portKnown_of_noPort {st po : Nat} {s : State} (h1 : po ≠ 1) (h2 : po ≠ 2) : s.portKnown st po = false := by
  have none : portOf po = none := by
    unfold portOf
    split
    · exact absurd rfl h1
    · exact absurd rfl h2
    · rfl
  rw [State.portKnown, none]

theorem peer_heardNow_isSome (h : Header) (start : Tick) (s : State) :
    ((heardNow h start s).peer h.src).isNone = false := by
  rcases peerIn_hearIn_same h.src start h.hold s.hold.roster with ⟨p, -, e⟩ | e
  · have known : (heardNow h start s).peer h.src = some (p.hears start h.hold) := e
    rw [known]; rfl
  · have known : (heardNow h start s).peer h.src = some (freshPeer h.src start h.hold) := e
    rw [known]; rfl

/-! ## A request where there is no record (R112 to R114) -/

theorem peer_heardNow_known (h : Header) (start : Tick) (s : State) :
    ¬(h.src ≠ (heardNow h start s).own ∧ ((heardNow h start s).peer h.src).isNone = true) := by
  rw [peer_heardNow_isSome]
  exact fun e => Bool.false_ne_true e.2

theorem request_notHolder {s : State} {h : Header} {m : RequestMsg} {start : Tick} {k : RequestKind} (calm : Calm s)
    (hear : Hearing s start) (us : ForUs s h) (fam : Familiar s h) (hk : k = .seize ∨ k = .answer) :
    ∃ t, exec (requestInstr k h m) s = .next t ∧
      (s.hold.state = .listen ∨ s.hold.state = .passive ∨ s.hold.state = .seeking ∨ s.hold.state = .claiming →
        FrameHanded h.src (.reply ⟨m.tag, .refuse .noHolder, s.own, 0, 0⟩) s t) ∧
      (s.hold.state = .yielding → FrameHanded h.src (.reply ⟨m.tag, .refuse .handover, s.own, 0, 0⟩) s t) ∧
      (s.hold.state = .halted → t.wire.control = s.wire.control) ∧ (s.holding = false → t.call = s.call) := by
  have refused : ∀ v, judge k h.src m.port m.cls (heardNow h start s) = (heardNow h start s, some v) →
      ∃ t, exec (requestInstr k h m) s = .next t ∧ FrameHanded h.src (replyOf m.tag v) s t ∧ t.call = s.call :=
    fun v => request_refused calm hear us fam hk
  have state := heardNow_holdState h start s
  cases hs : s.hold.state
  case holding =>
    refine ⟨_, exec_request k calm hear us fam hk, ?_⟩
    simp [State.holding, hs]
  case yielding =>
    obtain ⟨t, run, handed, call⟩ := refused (Machine.refused .handover s.own 0) (by rw [judge, state, hs]; rfl)
    exact ⟨t, run, by simp, fun _ => handed, by simp, fun _ => call⟩
  case halted =>
    have judged : requestFrame k h.src m (heardNow h start s) = heardNow h start s := by
      rw [requestFrame, judge, state, hs]
    refine ⟨_, exec_request k calm hear us fam hk, ?_⟩
    rw [judged, finish_of_calm (calm_heardNow start calm fam)]
    exact ⟨by simp, by simp, fun _ => rfl, fun _ => rfl⟩
  all_goals
    obtain ⟨t, run, handed, call⟩ := refused (Machine.refused .noHolder s.own 0) (by rw [judge, state, hs]; rfl)
    exact ⟨t, run, fun _ => handed, by simp, by simp, fun _ => call⟩

/-- The record that a grant without one creates: settled, SEIZING (R114, R118). -/
theorem restSettled_createCall {st po : Nat} {s : State} (h : RestSettled s) : RestSettled (createCall st po s) :=
  h.setRecord (r := freshRecord' st po s) none (nextId s.call.lastId) (.inl rfl) fun _ _ _ => rfl

theorem ringing_false {k : RequestKind} {s : State} (h : ¬(k = .answer ∧ s.ports.ringing.isSome = true)) :
    (decide (k = .answer) && s.ports.ringing.isSome) = false := by
  rw [Bool.and_eq_false_iff, decide_eq_false_iff_not, ← Bool.not_eq_true]
  tauto

/-- The checks of R114 in their order: a ringing call answered, the class, the line (log 68). -/
theorem seizeRefusal_eq (k : RequestKind) (st po cls : Nat) (s : State) : seizeRefusal k st po cls s =
    if (k = .answer ∧ s.ports.ringing.isSome = true) ∨
        (s.effective st cls ≤ s.cfg.seizeLevel.toNat ∧ s.cond .lineDead = false) then none
    else if s.cfg.seizeLevel.toNat < s.effective st cls then some (classRefusal st po cls s)
    else some (refused .lineFault s.own 0) := by
  unfold seizeRefusal
  by_cases ringing : k = .answer ∧ s.ports.ringing.isSome = true
  · rw [if_pos (Or.inl ringing), if_pos (by rw [ringing.1, ringing.2]; rfl)]
  · rw [ringing_false ringing, if_neg (by decide)]
    by_cases above : s.cfg.seizeLevel.toNat < s.effective st cls
    · have fails : ¬((k = .answer ∧ s.ports.ringing.isSome = true) ∨
          (s.effective st cls ≤ s.cfg.seizeLevel.toNat ∧ s.cond .lineDead = false)) := by
        rintro (rings | ⟨within, -⟩)
        · exact ringing rings
        · omega
      rw [if_pos above, if_neg fails, if_pos above]
    · have within : s.effective st cls ≤ s.cfg.seizeLevel.toNat := by omega
      rw [if_neg above, if_neg above]
      cases dead : s.cond .lineDead with
      | true =>
        have fails : ¬((k = .answer ∧ s.ports.ringing.isSome = true) ∨
            (s.effective st cls ≤ s.cfg.seizeLevel.toNat ∧ true = false)) := by
          rintro (rings | ⟨-, alive⟩)
          · exact ringing rings
          · cases alive
        rw [if_neg fails, if_pos rfl]
      | false => rw [if_pos (Or.inr ⟨within, rfl⟩), if_neg (by decide)]

/-- The judgement of a request at a HOLDING station without a record whose sender and port are known (R113, R114). -/
theorem judgeHolding_noRecord {k : RequestKind} {st po cls : Nat} {s : State}
    (there : ¬(st ≠ s.own ∧ (s.peer st).isNone = true))
    (port : s.portKnown st po = true) (record : s.call.record = none) (degraded : s.hold.degraded = false) :
    judgeHolding k st po cls s =
      if (k = .answer ∧ s.ports.ringing.isSome = true) ∨
          (s.effective st cls ≤ s.cfg.seizeLevel.toNat ∧ s.cond .lineDead = false) then
        (createCall st po s, granted s (nextId s.call.lastId))
      else if s.cfg.seizeLevel.toNat < s.effective st cls then (s, classRefusal st po cls s)
      else (s, refused .lineFault s.own 0) := by
  have notDegraded : ¬(k = .seize ∧ s.hold.degraded = true) := by simp [degraded]
  rw [judgeHolding, if_neg there, port, Bool.not_true, if_neg (by decide)]
  simp only [record]
  rw [if_neg notDegraded, seizeRefusal_eq]
  split_ifs <;> rfl

theorem judgeHolding_noStation {k : RequestKind} {st po cls : Nat} {s : State} (other : st ≠ s.own)
    (unknown : s.peer st = none) : judgeHolding k st po cls s = (s, ⟨.refuse .noStation, st, 0, 0⟩) := by
  rw [judgeHolding, if_pos ⟨other, by rw [unknown]; rfl⟩]
  rfl

theorem judgeHolding_noPort {k : RequestKind} {st po cls : Nat} {s : State}
    (known : st = s.own ∨ (s.peer st).isNone = false) (port : s.portKnown st po = false) :
    judgeHolding k st po cls s = (s, ⟨.refuse .noPort, st, po, 0⟩) := by
  have there : ¬(st ≠ s.own ∧ (s.peer st).isNone = true) := by
    rintro ⟨other, unknown⟩
    rcases known with own | heard
    · exact other own
    · rw [heard] at unknown; cases unknown
  rw [judgeHolding, if_neg there, port]
  rfl

theorem portKnown_of_unfitted {s : State} (one : s.cfg.portCount ≠ 2) : s.portKnown s.own 2 = false := by
  simp [State.portKnown, portOf, State.fitted, one]

/-- The reply to a failed class check names the party responsible (R111). -/
theorem replyOf_classRefusal (tag st po cls : Nat) (s : State) : replyOf tag (classRefusal st po cls s) =
    .reply ⟨tag, .refuse .cls, st, (if s.classOf st ≤ cls then po else 0), 0⟩ := by
  unfold classRefusal
  split <;> rfl

/-- Settles O27. -/
theorem seizeWithoutRecord : Obligations.SeizeWithoutRecord := by
  refine ⟨?_, ?_, ?_, ?_⟩
  · intro s h m start c calm hear us fam _ hc
    obtain ⟨k, hk, rfl, -⟩ := requestInstr_of hc
    exact request_notHolder calm hear us fam hk
  · intro s h m start c calm hear us fam roster holding record hp hc
    obtain ⟨k, hk, rfl, answer, -⟩ := requestInstr_of hc
    have calm' := calm_heardNow start calm fam
    have holder := Calm.holderSettled calm' ((heardNow_holding h start s).trans holding)
    have degraded : (heardNow h start s).hold.degraded = false := by
      have := holder.degraded
      rwa [heardNow_call, record, Option.isNone_none, Bool.and_true] at this
    have cls : (heardNow h start s).classOf h.src = s.classOf h.src := heardNow_classOf roster
      (Familiar.isSome fam) h.src
    have effective : (heardNow h start s).effective h.src m.cls = max m.cls (s.classOf h.src) := by
      rw [State.effective, cls]
    have judged := judgeHolding_noRecord (k := k) (cls := m.cls) (peer_heardNow_known h start s)
      (portKnown_of_other us.1 hp) record degraded
    rw [effective, heardNow_ringing, heardNow_cfg, heardNow_cond] at judged
    simp only [answer]
    split
    · next passes =>
      rw [if_pos passes] at judged
      have holder' : HolderSettled (createCall h.src m.port (heardNow h start s)) :=
        ⟨holder.eligible, by rw [show (createCall h.src m.port (heardNow h start s)).call.record.isNone =
          false from rfl,
          Bool.and_false], holder.holding, holder.known, holder.dropped⟩
      obtain ⟨t, run, handed, call, fault⟩ := request_granted calm hear us fam hk
        (judge_of_holding holder.holding judged) holder' (restSettled_createCall (Calm.rest calm'))
        ((createCall_only _ _ _).mono (by decide)) rfl
      refine ⟨t, run, ?_, ?_, ?_, ?_, handed⟩
      · rw [call]; rfl
      · rw [call]; rfl
      · rw [State.loopClosed, call]; rfl
      · rw [fault]; rfl
    · next fails =>
      rw [if_neg fails] at judged
      split
      · next above =>
        rw [if_pos above] at judged
        obtain ⟨t, run, handed, call⟩ := request_refused calm hear us fam hk (judge_of_holding holder.holding judged)
        rw [replyOf_classRefusal, cls] at handed
        exact ⟨t, run, call, handed⟩
      · next within =>
        rw [if_neg within] at judged
        obtain ⟨t, run, handed, call⟩ := request_refused calm hear us fam hk (judge_of_holding holder.holding judged)
        exact ⟨t, run, call, handed⟩
  · intro s h m start c calm hear us fam _ holding h1 h2 hc
    obtain ⟨k, hk, rfl, -⟩ := requestInstr_of hc
    obtain ⟨t, run, handed, call⟩ := request_refused calm hear us fam hk (judge_of_holding
      ((heardNow_holding h start s).trans holding)
      (judgeHolding_noPort (cls := m.cls) (.inr (peer_heardNow_isSome h start s)) (portKnown_of_noPort h1 h2)))
    exact ⟨t, run, call, handed⟩
  · intro s k st po cls
    refine ⟨judgeHolding_noStation, fun known bad => judgeHolding_noPort ?_ ?_⟩
    · rcases known with own | heard
      · exact .inl own
      · exact .inr (Option.isNone_eq_false_iff.mpr (Option.isSome_iff_ne_none.mpr heard))
    · rcases bad with ⟨h1, h2⟩ | ⟨rfl, rfl, one⟩
      · exact portKnown_of_noPort h1 h2
      · exact portKnown_of_unfitted one

/-! ## A request where there is a record (R113, R115, R116) -/

theorem loopClosed_congr {s t : State} {r q : CallRecord} (hr : s.call.record = some r) (hq : t.call.record = some q)
    (outpulse : q.outpulse = r.outpulse) : t.loopClosed = s.loopClosed := by
  rw [State.loopClosed, State.loopClosed, hr, hq]
  simp only [outpulse]

theorem modRecord_eq {f : CallRecord → CallRecord} {s : State} {r : CallRecord} (hr : s.call.record = some r) :
    modRecord f s = (s.modFault fun m => { m with test := s.fault.test }).modCall fun c =>
      { c with record := some (f r), lastId := s.call.lastId } := by
  have e : modRecord f s = s.modCall fun c => { c with record := s.call.record.map f } := rfl
  rw [e, hr]
  rfl

theorem modRecord_record {f : CallRecord → CallRecord} {s : State} {r : CallRecord} (hr : s.call.record = some r) :
    (modRecord f s).call.record = some (f r) := by
  rw [modRecord_eq hr]; rfl

/-- A change of the record that leaves its exchange loop as it is leaves a settled station settled. -/
theorem RestSettled.modRecord {s : State} {r : CallRecord} {f : CallRecord → CallRecord} (h : RestSettled s)
    (hr : s.call.record = some r) (seized : (f r).seized = r.seized) (loss : (f r).loss = r.loss)
    (queue : (f r).queue = r.queue) (outpulse : (f r).outpulse = r.outpulse) : RestSettled (modRecord f s) := by
  have oldOutpulse := h.outpulse
  have oldLoss := h.loss
  rw [outpulseSettled, hr] at oldOutpulse
  rw [lossSettled, hr] at oldLoss
  simp only [Bool.or_eq_true, Bool.not_eq_true'] at oldOutpulse
  simp only [decide_eq_true_eq] at oldLoss
  rw [modRecord_eq hr]
  refine h.setRecord _ _ ?_ fun t ht pins => ?_
  · rw [queue, seized, outpulse]; exact oldOutpulse
  · rw [loss, seized, loopClosed_congr hr ht outpulse, pins]; exact oldLoss

theorem HolderSettled.modRecord {s : State} {r : CallRecord} {f : CallRecord → CallRecord} (h : HolderSettled s)
    (hr : s.call.record = some r) : HolderSettled (modRecord f s) := by
  rw [modRecord_eq hr]
  exact ⟨h.eligible, Bool.and_false _, h.holding, h.known, h.dropped⟩

/-- The judgement of a request at a HOLDING station with a record whose sender and port are known (R113, R115). -/
theorem judgeHolding_record {k : RequestKind} {st po cls : Nat} {s : State} {r : CallRecord}
    (there : ¬(st ≠ s.own ∧ (s.peer st).isNone = true)) (port : s.portKnown st po = true)
    (record : s.call.record = some r) :
    judgeHolding k st po cls s =
      if r.has st po then (regrant st po s, granted s r.id)
      else if k = .seize ∧ s.hold.degraded = true then (s, refused .degraded s.own 0)
      else if r.priv then (s, refused .priv r.first.1 r.first.2)
      else if s.cfg.joinLevel.toNat < s.effective st cls then (s, classRefusal st po cls s)
      else if 3 ≤ r.parties.length then (s, refused .full s.own 0)
      else (joinCall st po s, granted s r.id) := by
  rw [judgeHolding, if_neg there, port, Bool.not_true, if_neg (by decide)]
  simp only [record, joinRefusal]
  split_ifs <;> rfl

/-- Settles O28. -/
theorem seizeJoinsRecord : Obligations.SeizeJoinsRecord := by
  intro s h m start c r calm hear us fam roster holding record hp hc
  obtain ⟨k, hk, rfl, -, seize⟩ := requestInstr_of hc
  have calm' := calm_heardNow start calm fam
  have rest := Calm.rest calm'
  have holder := Calm.holderSettled calm' ((heardNow_holding h start s).trans holding)
  have cls : (heardNow h start s).classOf h.src = s.classOf h.src := heardNow_classOf roster (Familiar.isSome fam) h.src
  have effective : (heardNow h start s).effective h.src m.cls = max m.cls (s.classOf h.src) := by
    rw [State.effective, cls]
  have judged := judgeHolding_record (k := k) (cls := m.cls) (peer_heardNow_known h start s)
    (portKnown_of_other us.1 hp) (show (heardNow h start s).call.record = some r from record)
  rw [effective, heardNow_degraded, heardNow_cfg] at judged
  have refusal : ∀ v, judgeHolding k h.src m.port m.cls (heardNow h start s) = (heardNow h start s, v) →
      ∃ t, exec (requestInstr k h m) s = .next t ∧ FrameHanded h.src (replyOf m.tag v) s t ∧ t.call = s.call :=
    fun v hv => request_refused calm hear us fam hk (judge_of_holding holder.holding hv)
  have grant : ∀ f : CallRecord → CallRecord,
      judgeHolding k h.src m.port m.cls (heardNow h start s) =
        (modRecord f (heardNow h start s), granted (heardNow h start s) r.id) →
      (f r).seized = r.seized → (f r).loss = r.loss → (f r).queue = r.queue → (f r).outpulse = r.outpulse →
      ∃ t, exec (requestInstr k h m) s = .next t ∧
        FrameHanded h.src (.reply ⟨m.tag, .grant, s.own, 0, r.id⟩) s t ∧ t.call.record = some (f r) := by
    intro f hv seized loss queue outpulse
    obtain ⟨t, run, handed, call, -⟩ := request_granted calm hear us fam hk (judge_of_holding holder.holding hv)
      (holder.modRecord record) (rest.modRecord record seized loss queue outpulse)
      ((modRecord_only _ _).mono (by decide)) rfl
    exact ⟨t, run, handed, by rw [call]; exact modRecord_record record⟩
  simp only [seize]
  generalize portRef : (if s.classOf h.src ≤ m.cls then m.port else 0) = x
  split_ifs at judged ⊢
  · obtain ⟨t, run, handed, call⟩ := grant _ judged rfl rfl rfl rfl
    simp only [isParty, Bool.and_eq_true, decide_eq_true_eq] at call
    exact ⟨t, run, handed, call⟩
  · exact refusal _ judged
  · exact refusal _ judged
  · obtain ⟨t, run, handed, call⟩ := refusal _ judged
    rw [replyOf_classRefusal, cls, portRef] at handed
    exact ⟨t, run, handed, call⟩
  · exact refusal _ judged
  · obtain ⟨t, run, handed, call⟩ := grant _ judged rfl rfl rfl rfl
    exact ⟨t, run, handed, call⟩

end Sys2Proof.Machine
end

section
/-! PROOFS. What the port operations do to one port, and when a command's end leaves the ports as the command made
them: a port operation neither parks a port nor changes whether it is idle, and sets no dial tone (R93, R98 to R103,
R168). -/

namespace Sys2Proof.Machine

open Sys2Proof

/-! ## The operations at a port -/

section
variable (n : PortNo) (s : State)

@[simp] theorem port_clearPort_same (c : Option PortCause) (r : Option (Nat × Nat)) :
    (clearPort n c r s).port n = Port.clear s.now c r (s.port n) :=
  (port_congr (dropBinding_only _ _).ports n).trans (State.port_modPort_same _ _ _)

theorem port_clearPort_other (c : Option PortCause) (r : Option (Nat × Nat)) {m : PortNo} (h : m ≠ n) :
    (clearPort n c r s).port m = s.port m :=
  (port_congr (dropBinding_only _ _).ports m).trans (State.port_modPort_other _ _ h)

@[simp] theorem port_idlePort_same : (idlePort n s).port n = Port.toIdle s.now (s.port n) :=
  State.port_modPort_same _ _ _

theorem port_idlePort_other {m : PortNo} (h : m ≠ n) : (idlePort n s).port m = s.port m :=
  State.port_modPort_other _ _ h

theorem port_connectPort_same (c : CallRef) :
    ∃ timed, (connectPort n c s).port n = Port.connect s.now c timed (s.port n) :=
  ⟨_, State.port_modPort_same _ _ _⟩

theorem port_connectPort_other (c : CallRef) {m : PortNo} (h : m ≠ n) : (connectPort n c s).port m = s.port m :=
  State.port_modPort_other _ _ h

end

/-- An operation done at each port of a list: a port of the list has it done, another is as it was, where doing it twice
is doing it once. -/
theorem port_foldl {op : State → PortNo → State} {g : Port → Port} {now : Tick}
    (same : ∀ s n, s.now = now → (op s n).port n = g (s.port n))
    (other : ∀ s n m, m ≠ n → (op s n).port m = s.port m) (clock : ∀ s n, (op s n).now = s.now)
    (twice : ∀ p, g (g p) = g p) (m : PortNo) : ∀ (l : List PortNo) (s : State), s.now = now →
      (l.foldl op s).port m = if m ∈ l then g (s.port m) else s.port m
  | [], _, _ => by simp
  | n :: l, s, hs => by
    have rest := port_foldl same other clock twice m l (op s n) ((clock s n).trans hs)
    rw [List.foldl_cons, rest]
    by_cases e : m = n
    · subst e
      simp [same s m hs, twice]
    · simp [other s n m e, e]

/-! ## What a port holds in its state (R89 to R103) -/

theorem portOk_offHook {p : Port} (h : portOk p = true) :
    p.offHook = !(decide (p.state = .idle) || decide (p.state = .ringing)) := by
  simp only [portOk, Bool.and_eq_true, decide_eq_true_eq] at h
  obtain ⟨⟨⟨-, hook⟩, -⟩, -⟩ := h
  exact hook

theorem portOk_callRef {p : Port} (h : portOk p = true) (away : p.state ≠ .connected) : p.callRef = none := by
  simp only [portOk, Bool.and_eq_true, Bool.or_eq_true, decide_eq_true_eq, Option.isNone_iff_eq_none] at h
  obtain ⟨⟨⟨⟨⟨ref | at_call, -⟩, -⟩, -⟩, -⟩, -⟩ := h
  · exact ref
  · exact absurd at_call away

theorem portOk_outReq {p : Port} {q : OutReq} (h : portOk p = true) (hq : p.outReq = some q) :
    (p.state = .offering ∧ q.kind = .offer) ∨ (p.state = .waiting ∧ (q.kind = .seize ∨ q.kind = .answer)) := by
  simp only [portOk, Bool.and_eq_true, hq] at h
  obtain ⟨-, request⟩ := h
  split at request
  · next offer => exact .inl ⟨of_decide_eq_true request, offer⟩
  · simp only [Bool.and_eq_true, decide_eq_true_eq] at request
    exact .inr request

theorem portOk_outReq_none {p : Port} (h : portOk p = true) (h1 : p.state ≠ .offering) (h2 : p.state ≠ .waiting) :
    p.outReq = none := by
  cases hq : p.outReq with
  | none => rfl
  | some q =>
    rcases portOk_outReq h hq with ⟨offering, -⟩ | ⟨waiting, -⟩
    · exact absurd offering h1
    · exact absurd waiting h2

theorem portOk_ringing {p : Port} {st po ref : Nat} (h : portOk p = true)
    (hp : p.pending = some (.offerFrom st po ref)) : p.state = .ringing := by
  simp only [portOk, Bool.and_eq_true, hp, decide_eq_true_eq] at h
  obtain ⟨⟨-, ringing⟩, -⟩ := h
  exact ringing

/-- On-hook, a port of an honest state has no call and no request out: it is idle for the idle timer (R168). -/
theorem portIdle_of_ok {p : Port} (h : portOk p = true) : portIdle p = !p.offHook := by
  have hook := portOk_offHook h
  cases off : p.offHook with
  | true => simp [portIdle, off]
  | false =>
    rw [off] at hook
    have rest : p.state = .idle ∨ p.state = .ringing := by
      simpa only [Bool.false_eq, Bool.not_eq_false', Bool.or_eq_true, decide_eq_true_eq] using hook
    have ref : p.callRef = none := portOk_callRef h (by rcases rest with e | e <;> simp [e])
    have request : p.outReq = none :=
      portOk_outReq_none h (by rcases rest with e | e <;> simp [e]) (by rcases rest with e | e <;> simp [e])
    simp [portIdle, off, ref, request]

/-! ## Operations that leave the level rules settled -/

/-- From `p` to `q` a port is neither parked nor released from parking, is idle as before, and plays no dial tone
that it did not play. -/
structure PortKept (p q : Port) : Prop where
  parked : q.state = .parked ↔ p.state = .parked
  idle : portIdle q = portIdle p
  tone : q.tone = p.tone ∨ (q.tone ≠ .dial ∧ q.tone ≠ .stutter)

theorem PortKept.refl (p : Port) : PortKept p p := ⟨Iff.rfl, rfl, .inl rfl⟩

theorem PortKept.trans {p q r : Port} (h : PortKept p q) (h' : PortKept q r) : PortKept p r :=
  ⟨h'.parked.trans h.parked, h'.idle.trans h.idle, by
    rcases h'.tone with same | silent
    · rw [same]; exact h.tone
    · exact .inr silent⟩

/-- A port that has dropped all it held, on its hook as before. -/
theorem portKept_of_dropped {p q : Port} (ok : portOk p = true) (away : p.state ≠ .parked) (away' : q.state ≠ .parked)
    (hook : q.offHook = p.offHook) (ref : q.callRef = none) (request : q.outReq = none) (dial : q.tone ≠ .dial)
    (stutter : q.tone ≠ .stutter) : PortKept p q :=
  ⟨by simp [away, away'], by rw [portIdle_of_ok ok, portIdle, hook, ref, request]; simp, .inr ⟨dial, stutter⟩⟩

theorem portKept_clear {p : Port} (now : Tick) (c : Option PortCause) (r : Option (Nat × Nat)) (ok : portOk p = true)
    (away : p.state ≠ .parked) : PortKept p (p.clear now c r) :=
  portKept_of_dropped ok away nofun rfl rfl rfl nofun nofun

theorem portKept_toIdle {p : Port} (now : Tick) (ok : portOk p = true) (away : p.state ≠ .parked) :
    PortKept p (p.toIdle now) :=
  portKept_of_dropped ok away nofun rfl rfl rfl nofun nofun

theorem portKept_ring {p : Port} (now : Tick) (why : Pending) (ok : portOk p = true) (away : p.state ≠ .parked) :
    PortKept p (p.ring now why) :=
  portKept_of_dropped ok away nofun rfl rfl rfl nofun nofun

theorem portKept_connect {p : Port} (now : Tick) (c : CallRef) (timed : Bool) (ok : portOk p = true)
    (hs : p.state = .offering) : PortKept p (p.connect now c timed) := by
  have off : p.offHook = true := by rw [portOk_offHook ok, hs]; rfl
  refine ⟨by simp [Port.connect, Port.setTone, hs], ?_, .inr ⟨nofun, nofun⟩⟩
  rw [portIdle_of_ok ok, off]
  simp [portIdle, Port.connect, Port.setTone]

/-- Ports and calls written whole. -/
def withPorts (ps : Ports) (c : Call) (s : State) : State := { s with ports := ps, call := c }

theorem Only.portsCall {s t : State} (only : Only [.ports, .call] s t) : t = withPorts t.ports t.call s := by
  cases t
  cases s
  simp only [withPorts, State.mk.injEq]
  exact ⟨only.phase, only.now, only.taps, only.straps, only.interface, only.cfg, only.pins, only.power, only.wire,
    only.hold, only.noise, only.sup, trivial, trivial, only.fault, only.report, only.svc, only.draws, only.outs,
      only.pending⟩

theorem withPorts_settled {ps : Ports} {c : Call} {s : State} (h : RestSettled s)
    (kept : ∀ n, PortKept (s.port n) (ps.get n)) (record : c.record = s.call.record) :
    RestSettled (withPorts ps c s) := by
  have parked : (withPorts ps c s).anyParked = s.anyParked := by
    refine (Bool.eq_iff_iff.mpr ?_)
    simp only [State.anyParked, List.any_eq_true, decide_eq_true_eq]
    exact exists_congr fun n => and_congr Iff.rfl (kept n).parked
  have idle : (withPorts ps c s).idleHolds = s.idleHolds := by
    have one : portIdle ps.one = portIdle s.ports.one := (kept .one).idle
    have two : portIdle ps.two = portIdle s.ports.two := (kept .two).idle
    have read : (withPorts ps c s).idleHolds = (decide (s.power.state = .battery) && s.live && portIdle ps.one &&
      portIdle ps.two && !(s.holding || decide (s.hold.state = .claiming) || decide (s.hold.state = .yielding))) := rfl
    rw [read, one, two]
    rfl
  have settled : idleSettled (withPorts ps c s) = true := by
    have old := h.idle
    rw [idleSettled, ← idle] at old
    exact old
  have loop : (withPorts ps c s).loopClosed = s.loopClosed := by
    rw [State.loopClosed, State.loopClosed, ← record]; rfl
  have outpulse : outpulseSettled (withPorts ps c s) = true := by
    have old := h.outpulse
    rw [outpulseSettled, ← record] at old
    exact old
  have loss : lossSettled (withPorts ps c s) = true := by
    have old := h.loss
    rw [lossSettled, ← record, ← loop] at old
    exact old
  have tones : (withPorts ps c s).fittedPorts.all (toneSettled (withPorts ps c s)) = true := by
    rw [List.all_eq_true]
    intro n hn
    have old := List.all_eq_true.mp h.tones n hn
    show (!(decide ((ps.get n).tone = .dial) || decide ((ps.get n).tone = .stutter)) ||
      decide ((ps.get n).tone = s.dialTone)) = true
    rcases (kept n).tone with same | ⟨dial, stutter⟩
    · rw [same]; exact old
    · simp [dial, stutter]
  exact ⟨⟨h.head, condsSettled_congr (s := s) rfl rfl rfl rfl rfl parked rfl rfl h.conds, h.reports, h.offer,
    h.transfer, outpulse, loss, h.lamp, tones⟩, settled⟩

/-- Ports kept leave a settled station settled. -/
theorem RestSettled.keepPorts {s t : State} (h : RestSettled s) (only : Only [.ports, .call] s t)
    (kept : ∀ n, PortKept (s.port n) (t.port n)) (record : t.call.record = s.call.record) : RestSettled t := by
  rw [Only.portsCall only]
  exact withPorts_settled h kept record

theorem FirstSettled.keepPorts {s t : State} (h : FirstSettled s) (only : Only [.ports, .call] s t)
    (dropped : s.wire.dropped = []) (record : t.call.record.isSome = s.call.record.isSome) : FirstSettled t := by
  rw [Only.portsCall only]
  have old := h.degraded
  have holder := h.holder
  rw [State.computeHolder, candidates_eq, ← record] at holder
  rw [← Option.not_isSome, ← record, Option.not_isSome] at old
  exact ⟨h.eligible, old, holder, fun b hb => by
    have none : (withPorts t.ports t.call s).wire.dropped = [] := dropped
    rw [none] at hb
    cases hb⟩

end Sys2Proof.Machine
end

section
/-! PROOFS. The intercom's frames (R98, R100, R127 to R130) at a settled station whose ports hold what their states
allow: OFFER, ACCEPT and END. -/

namespace Sys2Proof.Machine

open Sys2Proof

/-! ## The ports once a frame has been heard -/

theorem portOk_feedHolder {src : Nat} {now : Tick} {p : Port} (h : portOk p = true) :
    portOk (feedHolder src now p) = true := by
  have timer := feedHolder_silence_isSome src now p
  obtain ⟨x, e⟩ := feedHolder_eq src now p
  rw [e] at timer ⊢
  have timer' : x.isNone = p.silence.isNone := by
    rw [← Option.not_isSome, ← Option.not_isSome]; exact congrArg _ timer
  have same : portOk { p with silence := x } = portOk p := by
    unfold portOk
    simp only [timer']
  rw [same]; exact h

theorem portsOk_port {s : State} (ok : PortsOk s) (n : PortNo) : portOk (s.port n) = true := by
  obtain ⟨one, two, -⟩ := ok
  cases n with
  | one => exact one
  | two => exact two

theorem heardNow_portFields (h : Header) (start : Tick) (s : State) (n : PortNo) :
    ∃ x, (heardNow h start s).port n = { s.port n with silence := x } := by
  rw [heardNow_port]
  exact feedHolder_eq _ _ _

theorem heardNow_portState (h : Header) (start : Tick) (s : State) (n : PortNo) :
    ((heardNow h start s).port n).state = (s.port n).state := by
  obtain ⟨x, e⟩ := heardNow_portFields h start s n
  rw [e]

theorem heardNow_portPending (h : Header) (start : Tick) (s : State) (n : PortNo) :
    ((heardNow h start s).port n).pending = (s.port n).pending := by
  obtain ⟨x, e⟩ := heardNow_portFields h start s n
  rw [e]

theorem heardNow_portOutReq (h : Header) (start : Tick) (s : State) (n : PortNo) :
    ((heardNow h start s).port n).outReq = (s.port n).outReq := by
  obtain ⟨x, e⟩ := heardNow_portFields h start s n
  rw [e]

theorem heardNow_portCallRef (h : Header) (start : Tick) (s : State) (n : PortNo) :
    ((heardNow h start s).port n).callRef = (s.port n).callRef := by
  obtain ⟨x, e⟩ := heardNow_portFields h start s n
  rw [e]

theorem portsOk_heardNow {s : State} (h : Header) (start : Tick) (ok : PortsOk s) :
    PortsOk (heardNow h start s) := by
  refine ⟨portOk_feedHolder ok.1, portOk_feedHolder ok.2.1, ?_⟩
  have same : ∀ b, bindingOk (heardNow h start s) b = bindingOk s b := fun b => by
    simp only [bindingOk, heardNow_portState, heardNow_portPending]
  rw [heardNow_call, List.all_eq_true]
  intro b hb
  rw [same]
  exact List.all_eq_true.mp ok.2.2 b hb

/-- The holder silence timer restarts at a port of an outside call through the sender alone (R102). -/
theorem feedHolder_cases (src : Nat) (now : Tick) (p : Port) :
    feedHolder src now p = p ∨ ∃ k, p.callRef = some (.outside src k) := by
  unfold feedHolder
  split
  · next holder id ref =>
    split
    · next same => exact .inr ⟨id, by rw [ref, same.1]⟩
    · exact .inl rfl
  · exact .inl rfl

/-! ## An OFFER (R98, R128) -/

theorem portOf_portNo (n : PortNo) : portOf (portNo n) = some n := by cases n <;> rfl

theorem portNo_of_portOf {k : Nat} {n : PortNo} (h : portOf k = some n) : k = portNo n := by
  unfold portOf at h
  split at h
  · cases h; rfl
  · cases h; rfl
  · cases h

theorem portOf_none {k : Nat} (h : k = 0 ∨ 3 ≤ k) : portOf k = none := by
  unfold portOf
  split
  · omega
  · omega
  · rfl

theorem ring_twice (now : Tick) (why : Pending) (p : Port) : (p.ring now why).ring now why = p.ring now why := rfl

/-- Ports rung for one reason (R98). -/
def ringAll (why : Pending) (l : List PortNo) (s : State) : State :=
  l.foldl (fun t n => t.modPort n (Port.ring t.now why)) s

theorem ringAll_only (why : Pending) (l : List PortNo) (s : State) : Only [.ports] s (ringAll why l s) :=
  Only.foldl (fun _ _ => State.modPort_only _ _ _) l s

theorem port_ringAll (why : Pending) (l : List PortNo) (s : State) (n : PortNo) :
    (ringAll why l s).port n = if n ∈ l then (s.port n).ring s.now why else s.port n :=
  port_foldl (g := Port.ring s.now why) (fun t n ht => by rw [State.port_modPort_same, ht])
    (fun t n m ne => State.port_modPort_other _ _ ne) (fun t n => (State.modPort_only _ _ _).now)
    (ring_twice s.now why) n l s rfl

/-- The ports that take an OFFER ring for it, the others are as they were (R98, R128). -/
theorem port_takeOffer (st po : Nat) (tag : Option Nat) (l : List PortNo) (s : State) (n : PortNo) :
    (takeOffer st po tag l s).port n =
      if n ∈ l then (s.port n).ring s.now (.offerFrom st po (nextRef s.call.lastRef (s.call.bindings.map (·.ref))))
      else s.port n :=
  port_ringAll _ l s n

theorem call_takeOffer (st po : Nat) (tag : Option Nat) (l : List PortNo) (s : State) :
    (takeOffer st po tag l s).call =
      let ref := nextRef s.call.lastRef (s.call.bindings.map (·.ref))
      { s.call with bindings := s.call.bindings ++ [⟨ref, st, po, tag, l, false⟩], lastRef := ref } := by
  have ringing := (ringAll_only (.offerFrom st po (nextRef s.call.lastRef (s.call.bindings.map (·.ref)))) l s).call
  have taken : (takeOffer st po tag l s).call =
      (fun c : Call => { c with
        bindings := c.bindings ++
          [⟨nextRef s.call.lastRef (s.call.bindings.map (·.ref)), st, po, tag, l, false⟩]
        lastRef := nextRef s.call.lastRef (s.call.bindings.map (·.ref)) })
      (ringAll (.offerFrom st po (nextRef s.call.lastRef (s.call.bindings.map (·.ref)))) l s).call := rfl
  rw [taken, ringing]

theorem canRing_iff {n : PortNo} {s : State} : s.canRing n = true ↔
    s.fitted n = true ∧ (s.port n).state = .idle ∧ faultLevel s.pins n = false ∧ s.halted = false := by
  simp [State.canRing, and_assoc]

/-- An OFFER that ports which can ring take leaves a settled station settled. -/
theorem restSettled_takeOffer {st po : Nat} {tag : Option Nat} {l : List PortNo} {s : State} (rest : RestSettled s)
    (ok : PortsOk s) (idle : ∀ n ∈ l, (s.port n).state = .idle) : RestSettled (takeOffer st po tag l s) := by
  refine rest.keepPorts (takeOffer_only _ _ _ _ _) (fun n => ?_) (by rw [call_takeOffer])
  rw [port_takeOffer]
  split
  · next hn => exact portKept_ring _ _ (portsOk_port ok n) (by rw [idle n hn]; nofun)
  · exact PortKept.refl _

theorem firstSettled_takeOffer {st po : Nat} {tag : Option Nat} {l : List PortNo} {s : State} (calm : Calm s) :
    FirstSettled (takeOffer st po tag l s) :=
  (Calm.first calm).keepPorts (takeOffer_only _ _ _ _ _) (Calm.dropped calm) (by rw [call_takeOffer])

/-- How an OFFER is judged (R128). -/
theorem judgeOffer_noPort {st po target : Nat} {tag : Option Nat} {s : State} (away : target ≠ 0)
    (unfitted : ∀ n, portOf target = some n → s.fitted n = false) :
    judgeOffer st po target tag s = (s, refused .noPort s.own target) := by
  have none : ((portOf target).any fun n => s.fitted n) = false := by
    cases hp : portOf target with
    | none => rfl
    | some n => exact unfitted n hp
  rw [judgeOffer, if_pos ⟨away, by rw [none]; rfl⟩]

theorem judgeOffer_judged {st po target : Nat} {tag : Option Nat} {s : State}
    (known : target = 0 ∨ ∃ n, portOf target = some n ∧ s.fitted n = true) :
    judgeOffer st po target tag s =
      if ((offerTargets target s).filter fun n => s.canRing n) = [] then (s, refused .portBusy s.own target)
      else (takeOffer st po tag ((offerTargets target s).filter fun n => s.canRing n) s,
        granted s (nextRef s.call.lastRef (s.call.bindings.map (·.ref)))) := by
  have there : ¬(target ≠ 0 ∧ (!((portOf target).any fun n => s.fitted n)) = true) := by
    rintro ⟨away, unfitted⟩
    rcases known with all | ⟨n, hn, fitted⟩
    · exact away all
    · simp [hn, fitted] at unfitted
  rw [judgeOffer, if_neg there]
  cases (offerTargets target s).filter fun n => s.canRing n with
  | nil => rfl
  | cons n l => rfl

theorem offerFrame_of_judge {st : Nat} {m : RequestMsg} {s t : State} {v : Verdict} (awake : s.halted = false)
    (h : judgeOffer st m.port m.target (some m.tag) s = (t, v)) :
    offerFrame st m s = offerControl st (replyOf m.tag v) t := by
  rw [offerFrame, awake, if_neg (by decide), h]
  rfl

section
variable {s : State} {h : Header} {m : RequestMsg} {start : Tick}

theorem exec_offer (calm : Calm s) (hear : Hearing s start) (us : ForUs s h) (fam : Familiar s h) :
    exec (.offer h m) s = .next (finish (offerFrame h.src m (heardNow h start s))) :=
  congrArg Host.Outcome.next (frame_forUs none _ calm hear us fam)

/-- An OFFER refused: the REPLY is handed over and the calls stay. -/
theorem offer_refused {v : Verdict} (calm : Calm s) (hear : Hearing s start) (us : ForUs s h) (fam : Familiar s h)
    (awake : s.halted = false)
    (judged : judgeOffer h.src m.port m.target (some m.tag) (heardNow h start s) = (heardNow h start s, v)) :
    ∃ t, exec (.offer h m) s = .next t ∧ FrameHanded h.src (replyOf m.tag v) s t ∧ t.call = s.call := by
  have calm' := calm_heardNow start calm fam
  refine ⟨_, exec_offer calm hear us fam, ?_⟩
  rw [offerFrame_of_judge ((heardNow_halted h start s).trans awake) judged]
  obtain ⟨handed, only⟩ := finish_handed_read (dst := h.src) (b := replyOf m.tag v) (s := s) (Calm.first calm')
    (Calm.rest calm') (Calm.dropped calm') rfl rfl rfl nofun nofun rfl
  exact ⟨handed, only.call⟩

/-- An OFFER that ports take: they ring, the entry is made, and the REPLY grants it. -/
theorem offer_taken {l : List PortNo} (calm : Calm s) (hear : Hearing s start) (us : ForUs s h) (fam : Familiar s h)
    (ok : PortsOk s) (awake : s.halted = false) (idle : ∀ n ∈ l, (s.port n).state = .idle)
    (judged : judgeOffer h.src m.port m.target (some m.tag) (heardNow h start s) =
      (takeOffer h.src m.port (some m.tag) l (heardNow h start s),
        granted (heardNow h start s) (nextRef s.call.lastRef (s.call.bindings.map (·.ref))))) :
    ∃ t, exec (.offer h m) s = .next t ∧
      FrameHanded h.src (.reply ⟨m.tag, .grant, s.own, 0, nextRef s.call.lastRef (s.call.bindings.map (·.ref))⟩) s t ∧
      t.call = (takeOffer h.src m.port (some m.tag) l (heardNow h start s)).call ∧
      ∀ n, t.port n = (takeOffer h.src m.port (some m.tag) l (heardNow h start s)).port n := by
  have calm' := calm_heardNow start calm fam
  have idle' : ∀ n ∈ l, ((heardNow h start s).port n).state = .idle := fun n hn => by
    rw [heardNow_portState, idle n hn]
  have only := takeOffer_only h.src m.port (some m.tag) l (heardNow h start s)
  have wire : (takeOffer h.src m.port (some m.tag) l (heardNow h start s)).wire = (heardNow h start s).wire :=
    only.wire
  refine ⟨_, exec_offer calm hear us fam, ?_⟩
  rw [offerFrame_of_judge ((heardNow_halted h start s).trans awake) judged]
  obtain ⟨handed, last⟩ := finish_handed_read (dst := h.src)
    (b := replyOf m.tag (granted (heardNow h start s) (nextRef s.call.lastRef (s.call.bindings.map (·.ref))))) (s := s)
    (firstSettled_takeOffer calm')
    (restSettled_takeOffer (Calm.rest calm') (portsOk_heardNow h start ok) idle')
    (by rw [wire]; exact Calm.dropped calm') (by rw [wire]; rfl) (halted_congr (by rw [only.hold]; rfl)) only.now
    nofun nofun rfl
  exact ⟨handed, last.call, port_congr last.ports⟩

theorem fitted_of_mem {s : State} {n : PortNo} (hn : n ∈ s.fittedPorts) : s.fitted n = true := by
  unfold State.fittedPorts at hn
  cases n with
  | one => rfl
  | two =>
    split at hn
    · next two => exact decide_eq_true two
    · simp at hn

/-- An OFFER for one port (R128). -/
theorem offer_onePort {n : PortNo} (calm : Calm s) (hear : Hearing s start) (us : ForUs s h) (fam : Familiar s h)
    (ok : PortsOk s) (awake : s.halted = false) (target : m.target = portNo n) :
    ∃ t, exec (.offer h m) s = .next t ∧
      let ref := nextRef s.call.lastRef (s.call.bindings.map (·.ref))
      if s.fitted n = false then
        FrameHanded h.src (.reply ⟨m.tag, .refuse .noPort, s.own, m.target, 0⟩) s t ∧ t.call = s.call
      else if (s.port n).state = .idle ∧ faultLevel s.pins n = false then
        (t.port n).state = .ringing ∧ (t.port n).pending = some (.offerFrom h.src m.port ref) ∧
          (t.port n).ringOn = true ∧ (t.port n).offerAt = some s.now ∧
          t.call.bindings = s.call.bindings ++ [⟨ref, h.src, m.port, some m.tag, [n], false⟩] ∧
          t.call.lastRef = ref ∧ FrameHanded h.src (.reply ⟨m.tag, .grant, s.own, 0, ref⟩) s t
      else
        FrameHanded h.src (.reply ⟨m.tag, .refuse .portBusy, s.own, m.target, 0⟩) s t ∧ t.call = s.call := by
  have port : portOf m.target = some n := by rw [target, portOf_portNo]
  have targets : offerTargets m.target (heardNow h start s) = [n] := by rw [offerTargets, port]
  have rings : (heardNow h start s).canRing n = true ↔
      s.fitted n = true ∧ (s.port n).state = .idle ∧ faultLevel s.pins n = false := by
    have pins : faultLevel (heardNow h start s).pins n = faultLevel s.pins n := by cases n <;> rfl
    rw [canRing_iff, heardNow_fitted, heardNow_portState, pins, heardNow_halted]
    simp only [awake, and_true]
  cases fitted : s.fitted n with
  | false =>
    obtain ⟨t, run, handed, call⟩ := offer_refused (m := m) calm hear us fam awake (judgeOffer_noPort
      (by rw [target]; cases n <;> decide)
      (fun k hk => by rw [port] at hk; cases hk; rw [heardNow_fitted, fitted]))
    exact ⟨t, run, by simpa using ⟨handed, call⟩⟩
  | true =>
    rw [fitted] at rings
    have judged := judgeOffer_judged (st := h.src) (po := m.port) (tag := some m.tag) (target := m.target)
      (s := heardNow h start s) (.inr ⟨n, port, by rw [heardNow_fitted, fitted]⟩)
    rw [targets] at judged
    by_cases free : (s.port n).state = .idle ∧ faultLevel s.pins n = false
    · have can : (heardNow h start s).canRing n = true := rings.mpr ⟨rfl, free⟩
      simp only [List.filter_cons, can, if_true, List.filter_nil, List.cons_ne_nil, if_false] at judged
      obtain ⟨t, run, handed, call, ports⟩ := offer_taken calm hear us fam ok awake
        (fun k hk => by rw [List.mem_singleton.mp hk]; exact free.1) judged
      refine ⟨t, run, ?_⟩
      have rung := (ports n).trans (port_takeOffer _ _ _ _ _ n)
      rw [if_pos (List.mem_singleton.mpr rfl)] at rung
      rw [call_takeOffer] at call
      simp only [Bool.true_eq_false, if_false, if_pos free]
      refine ⟨?_, ?_, ?_, ?_, ?_, ?_, handed⟩
      · rw [rung]; rfl
      · rw [rung]; rfl
      · rw [rung]; rfl
      · rw [rung]; rfl
      · rw [call]; rfl
      · rw [call]; rfl
    · have cannot : (heardNow h start s).canRing n = false := by
        rw [← Bool.not_eq_true, rings]
        exact fun e => free e.2
      simp only [List.filter_cons, cannot, Bool.false_eq_true, if_false, List.filter_nil, if_true] at judged
      obtain ⟨t, run, handed, call⟩ := offer_refused calm hear us fam awake judged
      refine ⟨t, run, ?_⟩
      simp only [Bool.true_eq_false, if_false, if_neg free]
      exact ⟨handed, call⟩

/-- An OFFER for every port, and for a port no station has (R128). -/
theorem offer_allPorts (calm : Calm s) (hear : Hearing s start) (us : ForUs s h) (fam : Familiar s h)
    (ok : PortsOk s) (awake : s.halted = false) :
    ∃ t, exec (.offer h m) s = .next t ∧
      let ref := nextRef s.call.lastRef (s.call.bindings.map (·.ref))
      let takers := s.fittedPorts.filter fun n => decide ((s.port n).state = .idle) && !faultLevel s.pins n
      (m.target = 0 → takers = [] → t.call = s.call ∧
        FrameHanded h.src (.reply ⟨m.tag, .refuse .portBusy, s.own, 0, 0⟩) s t) ∧
      (m.target = 0 → takers ≠ [] →
        (∀ n ∈ takers, (t.port n).state = .ringing ∧ (t.port n).pending = some (.offerFrom h.src m.port ref) ∧
          (t.port n).ringOn = true ∧ (t.port n).offerAt = some s.now) ∧
        (∀ n, n ∉ takers → t.port n = s.port n ∨ ∃ k, (s.port n).callRef = some (.outside h.src k)) ∧
        t.call.bindings = s.call.bindings ++ [⟨ref, h.src, m.port, some m.tag, takers, false⟩] ∧
        t.call.lastRef = ref ∧ FrameHanded h.src (.reply ⟨m.tag, .grant, s.own, 0, ref⟩) s t) ∧
      (3 ≤ m.target → t.call = s.call ∧
        FrameHanded h.src (.reply ⟨m.tag, .refuse .noPort, s.own, m.target, 0⟩) s t) := by
  dsimp only
  have free : ∀ n ∈ s.fittedPorts, (heardNow h start s).canRing n =
      (decide ((s.port n).state = .idle) && !faultLevel s.pins n) := by
    intro n hn
    have pins : faultLevel (heardNow h start s).pins n = faultLevel s.pins n := by cases n <;> rfl
    rw [Bool.eq_iff_iff, canRing_iff, heardNow_fitted, heardNow_portState, pins, heardNow_halted]
    simp [fitted_of_mem hn, awake]
  have filtered : (s.fittedPorts.filter fun n => (heardNow h start s).canRing n) =
      s.fittedPorts.filter fun n => decide ((s.port n).state = .idle) && !faultLevel s.pins n :=
    List.filter_congr free
  generalize htakers : (s.fittedPorts.filter fun n => decide ((s.port n).state = .idle) && !faultLevel s.pins n) =
    takers at filtered ⊢
  have idle : ∀ n ∈ takers, (s.port n).state = .idle := by
    intro n hn
    rw [← htakers, List.mem_filter, Bool.and_eq_true] at hn
    exact of_decide_eq_true hn.2.1
  by_cases all : m.target = 0
  · have judged := judgeOffer_judged (st := h.src) (po := m.port) (tag := some m.tag) (target := m.target)
      (s := heardNow h start s) (.inl all)
    have targets : offerTargets m.target (heardNow h start s) = s.fittedPorts := by
      rw [offerTargets, portOf_none (.inl all)]; rfl
    rw [targets, filtered] at judged
    by_cases none : takers = []
    · rw [if_pos none] at judged
      obtain ⟨t, run, handed, call⟩ := offer_refused calm hear us fam awake judged
      rw [all] at handed
      exact ⟨t, run, fun _ _ => ⟨call, handed⟩, fun _ some => absurd none some, fun high => by omega⟩
    · rw [if_neg none] at judged
      obtain ⟨t, run, handed, call, ports⟩ := offer_taken calm hear us fam ok awake idle judged
      rw [call_takeOffer] at call
      refine ⟨t, run, fun _ empty => absurd empty none, fun _ _ => ⟨fun n hn => ?_, fun n hn => ?_, ?_, ?_, handed⟩,
        fun high => by omega⟩
      · rw [ports, port_takeOffer, if_pos hn]
        exact ⟨rfl, rfl, rfl, rfl⟩
      · rw [ports, port_takeOffer, if_neg hn, heardNow_port]
        exact feedHolder_cases _ _ _
      · rw [call]; rfl
      · rw [call]; rfl
  · by_cases high : 3 ≤ m.target
    · obtain ⟨t, run, handed, call⟩ := offer_refused (m := m) calm hear us fam awake (judgeOffer_noPort all
        fun n hn => by rw [portOf_none (.inr high)] at hn; cases hn)
      exact ⟨t, run, fun zero => absurd zero all, fun zero => absurd zero all, fun _ => ⟨call, handed⟩⟩
    · exact ⟨_, exec_offer calm hear us fam, fun zero => absurd zero all, fun zero => absurd zero all,
        fun above => absurd above high⟩

end

/-! ## An ACCEPT (R100, R129) -/

/-- A command that leaves the ports kept at a settled station ends with that. -/
theorem finish_keepPorts {s t : State} (calm : Calm s) (only : Only [.ports, .call] s t)
    (kept : ∀ n, PortKept (s.port n) (t.port n)) (record : t.call.record = s.call.record) :
    finish t = clearNotices t :=
  finish_of_settled ((Calm.first calm).keepPorts only (Calm.dropped calm) (by rw [record]))
    ((Calm.rest calm).keepPorts only kept record)

theorem port_useTag (s : State) (n : PortNo) : (useTag s).port n = s.port n := by cases n <;> rfl

theorem eachPort_fixed {f : PortNo → State → State} {s : State} (h : ∀ n, f n s = s) : s.eachPort f = s :=
  foldl_of_fixed fun n _ => h n

/-- No port waits for an END that was dropped (R96). -/
theorem requestDropped_endCall {tag : Nat} {n : PortNo} {s : State} (ok : portOk (s.port n) = true) :
    requestDropped .endCall tag n s = s := by
  unfold requestDropped
  split
  · next q hq =>
    have kind : q.kind ≠ .endCall := by
      rcases portOk_outReq ok hq with ⟨-, offer⟩ | ⟨-, seize | answer⟩
      · rw [offer]; nofun
      · rw [seize]; nofun
      · rw [answer]; nofun
    rw [if_neg fun e => kind e.2]
  · rfl

/-- An END handed over leaves the first part settled: no port waits for it, should it be dropped. -/
theorem FirstSettled.sendEnd {s : State} {dst : Nat} {m : RequestMsg} (h : FirstSettled s)
    (none : s.wire.dropped = []) (ok : ∀ n, portOk (s.port n) = true) :
    FirstSettled (offerControl dst (.request .endCall m) s) := by
  rw [offerControl_eq (b := .request .endCall m) dst s nofun nofun]
  refine ⟨h.eligible, h.degraded, h.holder, fun b hb => ?_⟩
  have dropped : b ∈ s.wire.dropped ++ controlDrops s (.request .endCall m) := hb
  rw [none, List.nil_append] at dropped
  rcases mem_controlDrops dropped with rfl | rfl
  · exact eachPort_fixed fun n => requestDropped_endCall (ok n)
  · rfl

/-- An END sent from a settled station (R96, R129): it takes the next tag, and the ports stay. -/
theorem finish_sendEnd {s w : State} {dst : Nat} {m : RequestMsg} (calm : Calm w) (ok : PortsOk w)
    (control : w.wire.control = s.wire.control) (halted : w.halted = s.halted) (now : w.now = s.now) :
    RequestHanded .endCall dst { m with tag := w.ports.tag } s (finish (sendRequest .endCall dst m w)) ∧
      (finish (sendRequest .endCall dst m w)).ports.tag = nextTag w.ports.tag ∧
      ∀ n, (finish (sendRequest .endCall dst m w)).port n = w.port n := by
  have only := (useTag_only w).mono (ps := [.ports, .call]) (by decide)
  have first := (Calm.first calm).keepPorts only (Calm.dropped calm) rfl
  have rest := (Calm.rest calm).keepPorts only (fun n => by rw [port_useTag]; exact PortKept.refl _) rfl
  have ended : finish (sendRequest .endCall dst m w) = clearNotices (sendRequest .endCall dst m w) :=
    finish_of_settled (first.sendEnd (Calm.dropped (s := w) calm) fun n => by rw [port_useTag]; exact portsOk_port ok n)
      (rest.offerControl nofun nofun)
  rw [ended]
  have ports : (clearNotices (sendRequest .endCall dst m w)).ports = (useTag w).ports :=
    (clearNotices_only _).ports.trans (offerControl_only _ _ _).ports
  refine ⟨frameHanded_offerControl (t := useTag w) nofun nofun control halted now, ?_, fun n => ?_⟩
  · rw [ports]; rfl
  · rw [port_congr ports, port_useTag]

theorem mayAccept_heardNow (h : Header) (start : Tick) (s : State) (st ref : Nat) (n : PortNo) :
    mayAccept st ref ((heardNow h start s).port n) = mayAccept st ref (s.port n) := by
  obtain ⟨x, e⟩ := heardNow_portFields h start s n
  rw [e]
  rfl

section
variable {s : State} {h : Header} {m : RequestMsg} {start : Tick}

theorem exec_accept (calm : Calm s) (hear : Hearing s start) (us : ForUs s h) (fam : Familiar s h) :
    exec (.accept h m) s = .next (finish (acceptFrame h.src m (heardNow h start s))) :=
  congrArg Host.Outcome.next (frame_forUs none _ calm hear us fam)

/-- An ACCEPT that comes too late is answered with an END (R129). -/
theorem accept_late (calm : Calm s) (hear : Hearing s start) (us : ForUs s h) (fam : Familiar s h) (ok : PortsOk s)
    (awake : s.halted = false)
    (late : ∀ n, portOf m.target = some n → mayAccept h.src m.ref (s.port n) = false) :
    ∃ t, exec (.accept h m) s = .next t ∧
      RequestHanded .endCall h.src
        ⟨m.target, ((portOf m.target).map s.classNo).getD 0, m.port, m.ref, s.ports.tag⟩ s t ∧
      t.ports.tag = nextTag s.ports.tag ∧ ∀ n, t.port n = (heardNow h start s).port n := by
  refine ⟨_, exec_accept calm hear us fam, ?_⟩
  have class_no : (heardNow h start s).classNo = s.classNo := by
    funext n; cases n <;> rfl
  have sent : acceptFrame h.src m (heardNow h start s) = sendRequest .endCall h.src
      ⟨m.target, ((portOf m.target).map s.classNo).getD 0, m.port, m.ref, 0⟩ (heardNow h start s) := by
    rw [acceptFrame, heardNow_halted, awake, if_neg (by decide), class_no]
    cases hp : portOf m.target with
    | none => rfl
    | some n =>
      have missed : mayAccept h.src m.ref ((heardNow h start s).port n) = false := by
        rw [mayAccept_heardNow, late n hp]
      simp only [missed, Bool.false_eq_true, if_false]
  rw [sent]
  exact finish_sendEnd (s := s) (calm_heardNow start calm fam) (portsOk_heardNow h start ok) rfl rfl rfl

/-- An ACCEPT that an OFFERING port takes connects it (R100, R129). -/
theorem accept_taken {n : PortNo} (calm : Calm s) (hear : Hearing s start) (us : ForUs s h) (fam : Familiar s h)
    (ok : PortsOk s) (awake : s.halted = false) (target : m.target = portNo n)
    (takes : mayAccept h.src m.ref (s.port n) = true) :
    ∃ t, exec (.accept h m) s = .next t ∧ t.wire.control = s.wire.control ∧
      t.port n = Port.connect s.now (.intercom h.src m.port m.ref h.src) true ((heardNow h start s).port n) := by
  have offering : ((heardNow h start s).port n).state = .offering := by
    rw [heardNow_portState]
    simp only [mayAccept, Bool.and_eq_true, decide_eq_true_eq] at takes
    exact takes.1
  have connected : acceptFrame h.src m (heardNow h start s) =
      connectPort n (.intercom h.src m.port m.ref h.src) (heardNow h start s) := by
    rw [acceptFrame, heardNow_halted, awake, if_neg (by decide), target, portOf_portNo]
    simp only [mayAccept_heardNow, takes, if_true]
  have outside : decide (h.src ≠ (heardNow h start s).own) = true := decide_eq_true us.1
  have port : (connectPort n (.intercom h.src m.port m.ref h.src) (heardNow h start s)).port n =
      Port.connect s.now (.intercom h.src m.port m.ref h.src) true ((heardNow h start s).port n) := by
    rw [← outside]
    exact State.port_modPort_same _ _ _
  have only := connectPort_only n (.intercom h.src m.port m.ref h.src) (heardNow h start s)
  refine ⟨_, exec_accept calm hear us fam, ?_⟩
  rw [connected, finish_keepPorts (calm_heardNow start calm fam) (only.mono (by decide)) (fun k => ?_)
    (by rw [only.call])]
  · refine ⟨?_, (port_congr (clearNotices_only _).ports n).trans port⟩
    have control : (connectPort n (.intercom h.src m.port m.ref h.src) (heardNow h start s)).wire.control =
      (heardNow h start s).wire.control := congrArg Wire.control only.wire
    exact control
  · by_cases same : k = n
    · subst same
      rw [port]
      exact portKept_connect _ _ _ (portsOk_port (portsOk_heardNow h start ok) k) offering
    · rw [port_connectPort_other _ _ _ same]
      exact PortKept.refl _

end

/-! ## An END (R98, R100, R102, R130) -/

theorem foldl_read {α β γ : Type} {f : α → β → α} {P : α → γ} (h : ∀ a b, P (f a b) = P a) : ∀ (l : List β) (a : α),
    P (l.foldl f a) = P a
  | [], _ => rfl
  | b :: l, a => (foldl_read h l (f a b)).trans (h a b)

/-- A port of an entry that ends (R130). -/
def endLocal (connected : Bool) (s : State) (n : PortNo) : State :=
  if connected then clearPort n none none s else idlePort n s

/-- A port of an entry that ends: CLEARED, or IDLE (R130). -/
def Port.ended (connected : Bool) (now : Tick) (p : Port) : Port :=
  if connected then p.clear now none none else p.toIdle now

theorem endBinding_eq (b : Binding) (s : State) : endBinding b s =
    (b.locals.foldl (endLocal b.connected) s).modCall fun c =>
      { c with bindings := c.bindings.filter fun x => decide (x.ref ≠ b.ref) } := rfl

theorem port_endLocal_same (connected : Bool) (s : State) (n : PortNo) :
    (endLocal connected s n).port n = Port.ended connected s.now (s.port n) := by
  cases connected with
  | true => exact port_clearPort_same n s none none
  | false => exact port_idlePort_same n s

theorem port_endLocal_other (connected : Bool) (s : State) {n m : PortNo} (ne : m ≠ n) :
    (endLocal connected s n).port m = s.port m := by
  cases connected with
  | true => exact port_clearPort_other n s none none ne
  | false => exact port_idlePort_other n s ne

theorem endLocal_only (connected : Bool) (s : State) (n : PortNo) : Only [.ports, .call] s
    (endLocal connected s n) := by
  cases connected with
  | true => exact (clearPort_only _ _ _ _).mono (by decide)
  | false => exact (idlePort_only _ _).mono (by decide)

theorem ended_twice (connected : Bool) (now : Tick) (p : Port) :
    Port.ended connected now (Port.ended connected now p) = Port.ended connected now p := by
  cases connected <;> rfl

theorem port_endBinding (b : Binding) (s : State) (n : PortNo) : (endBinding b s).port n =
    if n ∈ b.locals then Port.ended b.connected s.now (s.port n) else s.port n :=
  port_foldl (g := Port.ended b.connected s.now) (fun t m ht => by rw [port_endLocal_same, ht])
    (fun t _ _ ne => port_endLocal_other b.connected t ne) (fun t m => (endLocal_only _ t m).now)
    (ended_twice b.connected s.now) n b.locals s rfl

theorem endLocal_record (connected : Bool) (s : State) (n : PortNo) :
    (endLocal connected s n).call.record = s.call.record := by
  cases connected <;> rfl

theorem endBinding_record (b : Binding) (s : State) : (endBinding b s).call.record = s.call.record :=
  foldl_read (P := fun t : State => t.call.record) (endLocal_record b.connected) b.locals s

theorem mem_endBinding {b x : Binding} {s : State} (hx : x ∈ (endBinding b s).call.bindings) : x.ref ≠ b.ref := by
  rw [endBinding_eq, State.modCall_call, List.mem_filter] at hx
  exact of_decide_eq_true hx.2

/-- The ports of an entry of the list are in the states the entry names, so its end keeps them. -/
theorem portKept_ended {b : Binding} {s : State} (ok : PortsOk s) (hb : b ∈ s.call.bindings) {n : PortNo}
    (hn : n ∈ b.locals) : PortKept (s.port n) (Port.ended b.connected s.now (s.port n)) := by
  have agrees := List.all_eq_true.mp (List.all_eq_true.mp ok.2.2 b hb) n hn
  have okPort := portsOk_port ok n
  cases hc : b.connected with
  | true =>
    rw [hc, if_pos rfl, decide_eq_true_eq] at agrees
    exact portKept_clear _ _ _ okPort (by rw [agrees]; nofun)
  | false =>
    rw [hc, if_neg (by decide), decide_eq_true_eq] at agrees
    exact portKept_toIdle _ okPort (by rw [portOk_ringing okPort agrees]; nofun)

theorem endMatches_eq (st : Nat) (m : RequestMsg) : endMatches st m = fun b => decide
    (b.station = st ∧ b.port = m.port ∧
    (if m.ref = 0 then b.tag = some m.tag else b.ref = m.ref)) := by
  funext b
  unfold endMatches
  by_cases zero : m.ref = 0
  · simp [zero, Bool.and_assoc]
  · simp [zero, Bool.and_assoc]

section
variable {s : State} {h : Header} {m : RequestMsg} {start : Tick}

theorem exec_endCall (calm : Calm s) (hear : Hearing s start) (us : ForUs s h) (fam : Familiar s h) :
    exec (.endCall h m) s = .next (finish (endFrame h.src m (heardNow h start s))) :=
  congrArg Host.Outcome.next (frame_forUs none _ calm hear us fam)

/-- An END that fits an entry of the list ends it (R130). -/
theorem end_binding {b : Binding} (calm : Calm s) (fam : Familiar s h) (ok : PortsOk s)
    (found : s.call.bindings.find? (endMatches h.src m) = some b) :
    finish (endFrame h.src m (heardNow h start s)) = clearNotices (endBinding b (heardNow h start s)) := by
  have ended : endFrame h.src m (heardNow h start s) = endBinding b (heardNow h start s) := by
    rw [endFrame, heardNow_call, found]
  rw [ended]
  refine finish_keepPorts (calm_heardNow start calm fam) (endBinding_only _ _) (fun n => ?_) (endBinding_record _ _)
  rw [port_endBinding]
  split
  · next hn => exact portKept_ended (portsOk_heardNow h start ok) (List.mem_of_find?_eq_some found) hn
  · exact PortKept.refl _

/-- An END that names a port's own offer or call clears the port (R102, R130). -/
theorem end_port {n : PortNo} (calm : Calm s) (fam : Familiar s h) (ok : PortsOk s)
    (none : s.call.bindings.find? (endMatches h.src m) = none) (target : portOf m.target = some n)
    (holds : holdsBinding h.src m.ref (s.port n) = true) :
    finish (endFrame h.src m (heardNow h start s)) = clearNotices
      (clearPort n Option.none Option.none (heardNow h start s)) := by
  have holds' : holdsBinding h.src m.ref ((heardNow h start s).port n) = true := by
    obtain ⟨x, e⟩ := heardNow_portFields h start s n
    rw [e]; exact holds
  have ended : endFrame h.src m (heardNow h start s) = clearPort n Option.none Option.none (heardNow h start s) := by
    rw [endFrame, heardNow_call, none, target]
    simp only [holds', if_true]
  rw [ended]
  refine finish_keepPorts (calm_heardNow start calm fam) (clearPort_only _ _ _ _) (fun k => ?_) rfl
  by_cases same : k = n
  · subst same
    rw [port_clearPort_same]
    refine portKept_clear _ _ _ (portsOk_port (portsOk_heardNow h start ok) k) fun parked => ?_
    rw [heardNow_portState] at parked
    simp [holdsBinding, parked] at holds
  · rw [port_clearPort_other _ _ _ _ same]
    exact PortKept.refl _

/-- An END that fits nothing changes nothing (R130). -/
theorem end_nothing (calm : Calm s) (fam : Familiar s h)
    (none : s.call.bindings.find? (endMatches h.src m) = none)
    (idle : ∀ n, portOf m.target = some n → holdsBinding h.src m.ref (s.port n) = false) :
    finish (endFrame h.src m (heardNow h start s)) = heardNow h start s := by
  have ended : endFrame h.src m (heardNow h start s) = heardNow h start s := by
    rw [endFrame, heardNow_call, none]
    cases target : portOf m.target with
    | none => rfl
    | some n =>
      have holds : holdsBinding h.src m.ref ((heardNow h start s).port n) = false := by
        obtain ⟨x, e⟩ := heardNow_portFields h start s n
        rw [e]; exact idle n target
      simp only [holds, Bool.false_eq_true, if_false]
  rw [ended, finish_of_calm (calm_heardNow start calm fam)]

end

theorem mayAccept_of {p : Port} {st po ref : Nat} {x : Option Nat} (hs : p.state = .offering)
    (hp : p.pending = some (.offered st po x))
    (hx : x = some ref ∨ (x = none ∧ ∃ q, p.outReq = some q ∧ q.held = false)) : mayAccept st ref p = true := by
  rcases hx with rfl | ⟨rfl, q, hq, held⟩
  · simp [mayAccept, hs, hp]
  · simp [mayAccept, hs, hp, hq, held]

theorem mayAccept_late {p : Port} {src ref : Nat}
    (late : p.state ≠ .offering ∨ ∃ st po x, p.pending = some (.offered st po x) ∧
      (st ≠ src ∨ (∃ r, x = some r ∧ r ≠ ref) ∨ x = none ∧ ∀ q, p.outReq = some q → q.held = true)) :
    mayAccept src ref p = false := by
  rcases late with away | ⟨st, po, x, hp, other | ⟨r, rfl, ne⟩ | ⟨rfl, held⟩⟩
  · simp [mayAccept, away]
  · cases x <;> simp [mayAccept, hp, other]
  · simp [mayAccept, hp, ne]
  · cases hq : p.outReq with
    | none => simp [mayAccept, hp, hq]
    | some q => simp [mayAccept, hp, hq, held q hq]

theorem accept_onePort {s : State} {h : Header} {m : RequestMsg} {n : PortNo} {start : Tick} (calm : Calm s)
    (hear : Hearing s start) (us : ForUs s h) (fam : Familiar s h) (ok : PortsOk s) (awake : s.halted = false)
    (target : m.target = portNo n) :
    ∃ t, exec (.accept h m) s = .next t ∧
      (∀ po x, (s.port n).state = .offering → (s.port n).pending = some (.offered h.src po x) →
        x = some m.ref ∨ (x = none ∧ ∃ q, (s.port n).outReq = some q ∧ q.held = false) →
        (t.port n).state = .connected ∧ (t.port n).callRef = some (.intercom h.src m.port m.ref h.src) ∧
          (t.port n).pending = none ∧ (t.port n).outReq = none ∧ (t.port n).seq = 0 ∧
          (t.port n).silence = some s.now ∧ (t.port n).ringBack = none ∧ (t.port n).tone = .silent ∧
          t.wire.control = s.wire.control) ∧
      ((s.port n).state ≠ .offering ∨
          (∃ st po x, (s.port n).pending = some (.offered st po x) ∧
            (st ≠ h.src ∨ (∃ ref, x = some ref ∧ ref ≠ m.ref) ∨
              x = none ∧ ∀ q, (s.port n).outReq = some q → q.held = true)) →
        RequestHanded .endCall h.src ⟨m.target, (s.portCfg n).cls.toNat, m.port, m.ref, s.ports.tag⟩ s t ∧
        t.ports.tag = nextTag s.ports.tag ∧ (t.port n).state = (s.port n).state ∧
        (t.port n).pending = (s.port n).pending ∧ (t.port n).outReq = (s.port n).outReq) := by
  have port : portOf m.target = some n := by rw [target, portOf_portNo]
  cases takes : mayAccept h.src m.ref (s.port n) with
  | true =>
    obtain ⟨t, run, control, connected⟩ := accept_taken calm hear us fam ok awake target takes
    refine ⟨t, run, fun _ _ _ _ _ => ?_, fun late => ?_⟩
    · rw [connected]
      exact ⟨rfl, rfl, rfl, rfl, rfl, rfl, rfl, rfl, control⟩
    · rw [mayAccept_late late] at takes; cases takes
  | false =>
    obtain ⟨t, run, handed, tag, ports⟩ := accept_late calm hear us fam ok awake fun k hk => by
      rw [port] at hk; cases hk; exact takes
    rw [port] at handed
    refine ⟨t, run, fun _ _ hs hp hx => ?_, fun _ => ⟨handed, tag, ?_, ?_, ?_⟩⟩
    · rw [mayAccept_of hs hp hx] at takes; cases takes
    · rw [ports, heardNow_portState]
    · rw [ports, heardNow_portPending]
    · rw [ports, heardNow_portOutReq]

theorem endCall_taken {s : State} {h : Header} {m : RequestMsg} {start : Tick} (calm : Calm s)
    (hear : Hearing s start) (us : ForUs s h) (fam : Familiar s h) (ok : PortsOk s) :
    ∃ t, exec (.endCall h m) s = .next t ∧
      (∀ b, s.call.bindings.find? (endMatches h.src m) = some b →
        (∀ x ∈ t.call.bindings, x.ref ≠ b.ref) ∧ ∀ n ∈ b.locals,
          (t.port n).state = (if b.connected then .cleared else .idle) ∧ (t.port n).callRef = none ∧
            (t.port n).pending = none ∧ (t.port n).ringOn = false ∧
            (t.port n).tone = (if b.connected then .busy else .silent) ∧
            (t.port n).lastCause = (if b.connected then none else (s.port n).lastCause)) ∧
      (∀ n po, s.call.bindings = [] → m.target = portNo n → (s.port n).state = .connected →
        (s.port n).callRef = some (.intercom h.src po m.ref h.src) →
        (t.port n).state = .cleared ∧ (t.port n).callRef = none ∧ (t.port n).tone = .busy ∧
          (t.port n).lastCause = none) ∧
      (∀ n po, s.call.bindings = [] → m.target = portNo n → (s.port n).state = .offering →
        (s.port n).pending = some (.offered h.src po (some m.ref)) →
        (t.port n).state = .cleared ∧ (t.port n).pending = none ∧ (t.port n).ringBack = none ∧
          (t.port n).tone = .busy ∧ (t.port n).lastCause = none) ∧
      ((∀ b ∈ s.call.bindings, b.station ≠ h.src) → (∀ n, m.target = portNo n → (s.port n).state ≠ .offering ∧
          (s.port n).state ≠ .connected) →
        t.call = s.call ∧ ∀ n, (t.port n).state = (s.port n).state ∧ (t.port n).pending = (s.port n).pending) := by
  refine ⟨_, exec_endCall calm hear us fam, ?_⟩
  cases found : s.call.bindings.find? (endMatches h.src m) with
  | some b =>
    rw [end_binding calm fam ok found]
    have listed := List.mem_of_find?_eq_some found
    refine ⟨fun b' hb' => ?_, fun n po empty => ?_, fun n po empty => ?_, fun others => ?_⟩
    · cases hb'
      refine ⟨fun x hx => mem_endBinding hx, fun n hn => ?_⟩
      have port : (clearNotices (endBinding b (heardNow h start s))).port n =
          Port.ended b.connected s.now ((heardNow h start s).port n) := by
        rw [port_congr (clearNotices_only _).ports, port_endBinding, if_pos hn, heardNow_now]
      obtain ⟨x, heard⟩ := heardNow_portFields h start s n
      rw [port, heard]
      cases b.connected <;> exact ⟨rfl, rfl, rfl, rfl, rfl, rfl⟩
    · rw [empty] at listed; cases listed
    · rw [empty] at listed; cases listed
    · have fits := List.find?_some found
      simp only [endMatches, Bool.and_eq_true, decide_eq_true_eq] at fits
      exact absurd fits.1.1 (others b listed)
  | none =>
    have cleared : ∀ n, m.target = portNo n → holdsBinding h.src m.ref (s.port n) = true →
        (finish (endFrame h.src m (heardNow h start s))).port n =
          Port.clear s.now none none ((heardNow h start s).port n) := fun n target holds => by
      rw [end_port calm fam ok found (by rw [target, portOf_portNo]) holds]
      exact port_clearPort_same n (heardNow h start s) none none
    refine ⟨fun b hb => (nomatch hb), fun n po _ target hs ref => ?_, fun n po _ target hs hp => ?_, fun _ away => ?_⟩
    · rw [cleared n target (by simp [holdsBinding, hs, ref])]
      exact ⟨rfl, rfl, rfl, rfl⟩
    · rw [cleared n target (by simp [holdsBinding, hs, hp])]
      exact ⟨rfl, rfl, rfl, rfl, rfl⟩
    · rw [end_nothing calm fam found fun n hn => ?_]
      · exact ⟨rfl, fun n => ⟨heardNow_portState h start s n, heardNow_portPending h start s n⟩⟩
      · obtain ⟨offering, connected⟩ := away n (portNo_of_portOf hn)
        simp [holdsBinding, offering, connected]

/-- Settles O29. -/
theorem intercomFrames : Obligations.IntercomFrames := by
  refine ⟨?_, ?_, ?_, ?_, ?_⟩
  · intro s h m n start calm hear us fam ok awake target
    exact offer_onePort calm hear us fam ok awake target
  · intro s h m start calm hear us fam ok awake
    exact offer_allPorts calm hear us fam ok awake
  · intro s h m n start calm hear us fam ok awake target
    exact accept_onePort calm hear us fam ok awake target
  · intro s h m start calm hear us fam ok awake target
    have none : portOf m.target = Option.none := portOf_none target
    obtain ⟨t, run, handed, tag, ports⟩ := accept_late calm hear us fam ok awake fun k hk => by
      rw [none] at hk; cases hk
    rw [none] at handed
    exact ⟨t, run, handed, tag, fun n => by rw [ports, heardNow_portState]⟩
  · intro s h m start calm hear us fam ok
    have taken := endCall_taken (m := m) calm hear us fam ok
    rw [endMatches_eq] at taken
    exact taken

end Sys2Proof.Machine
end

section
/-! PROOFS. Frames that reach a port or the line call (R8, R96, R100 to R102, R107, R108, R120 to R125): REPLY, CLEAR,
DIAL and VOICE at a settled station. -/

namespace Sys2Proof.Machine

open Sys2Proof

/-! ## What the end of a command leaves of a port -/

/-- A port that plays no dial tone is left as the command made it, whatever the rest of the command's end does. -/
theorem port_finish {s : State} {n : PortNo} (f : FirstSettled s) (dial : (s.port n).tone ≠ .dial)
    (stutter : (s.port n).tone ≠ .stutter) : (finish s).port n = s.port n := by
  rw [finish_eq, settleFirst_of f]
  exact settleRest_port_of_tone (s := clearNotices s) dial stutter

section
variable {s : State} {h : Header} {start : Tick}

/-! ## REPLY and CLEAR (R8, R96, R102) -/

theorem exec_reply (m : ReplyMsg) (calm : Calm s) (hear : Hearing s start) (us : ForUs s h) (fam : Familiar s h) :
    exec (.reply h m) s = .next (finish (replyFrame h.src m (heardNow h start s))) :=
  congrArg Host.Outcome.next (frame_forUs none _ calm hear us fam)

theorem exec_clear (m : ClearMsg) (calm : Calm s) (hear : Hearing s start) (us : ForUs s h) (fam : Familiar s h) :
    exec (.clear h m) s = .next (finish
      (match portOf m.port with
        | some n => takeClear n m.ref m.cause (heardNow h start s)
        | none => heardNow h start s)) :=
  congrArg Host.Outcome.next (frame_forUs none _ calm hear us fam)

/-- A REPLY goes to the one port whose request carries its tag (R8). -/
theorem replyFrame_at {src : Nat} {m : ReplyMsg} {n : PortNo} {q : OutReq} (hq : (s.port n).outReq = some q)
    (held : q.held = false) (tag : q.tag = m.tag)
    (other : ∀ k, (s.port (otherPort n)).outReq = some k → k.held = true ∨ k.tag ≠ m.tag) :
    replyFrame src m s = takeAnswer n q.kind src ⟨m.answer, m.refStation, m.refPort, m.ref⟩ s := by
  have waits : waitsFor m.tag (s.port n) = true := by simp [waitsFor, hq, held, tag]
  have idle : waitsFor m.tag (s.port (otherPort n)) = false := by
    cases ho : (s.port (otherPort n)).outReq with
    | none => simp [waitsFor, ho]
    | some k => rcases other k ho with e | e <;> simp [waitsFor, ho, e]
  cases n with
  | one => rw [replyFrame, if_pos waits, replyAt, hq]
  | two =>
    have idle' : waitsFor m.tag (s.port .one) = false := idle
    rw [replyFrame, if_neg (by rw [idle']; decide), if_pos waits, replyAt, hq]

theorem firstSettled_clearPort {n : PortNo} {c : Option PortCause} {r : Option (Nat × Nat)} (calm : Calm s) :
    FirstSettled (clearPort n c r s) :=
  (Calm.first calm).keepPorts (clearPort_only _ _ _ _) (Calm.dropped calm) rfl

theorem firstSettled_modPort {n : PortNo} {f : Port → Port} (calm : Calm s) : FirstSettled (s.modPort n f) :=
  (Calm.first calm).keepPorts ((State.modPort_only _ _ _).mono (by decide)) (Calm.dropped calm) rfl

/-- A port cleared at a settled station stays so through the command's end. -/
theorem port_finish_clearPort (n : PortNo) (c : Option PortCause) (r : Option (Nat × Nat)) (calm : Calm s) :
    (finish (clearPort n c r s)).port n = Port.clear s.now c r (s.port n) := by
  have cleared := port_clearPort_same n s c r
  rw [port_finish (firstSettled_clearPort calm) (by rw [cleared]; nofun) (by rw [cleared]; nofun), cleared]

/-- A port connected at a settled station stays so through the command's end. -/
theorem port_finish_connectPort {n : PortNo} {holder id : Nat} (calm : Calm s) (other : holder ≠ s.own) :
    (finish (connectPort n (.outside holder id) s)).port n =
      Port.connect s.now (.outside holder id) true (s.port n) := by
  have timed : decide (holder ≠ s.own) = true := decide_eq_true other
  have connected : (connectPort n (.outside holder id) s).port n =
      Port.connect s.now (.outside holder id) true (s.port n) := by
    rw [← timed]; exact State.port_modPort_same _ _ _
  have first : FirstSettled (connectPort n (.outside holder id) s) := firstSettled_modPort calm
  rw [port_finish first (by rw [connected]; nofun) (by rw [connected]; nofun), connected]

/-- An offer granted: ring-back begins, and the offer's binding reference is the one of the GRANT (R96, R100). -/
def Port.offerGranted (ref : Nat) (now : Tick) (p : Port) : Port :=
  ({ p with
    outReq := none
    pending := match p.pending with
      | some (.offered st po _) => some (.offered st po (some ref))
      | q => q
    ringBack := some now }).setTone .ringBack now

theorem takeAnswer_grantedOffer (n : PortNo) (holder : Nat) (st po ref : Nat) (s : State) :
    takeAnswer n .offer holder ⟨.grant, st, po, ref⟩ s = s.modPort n (Port.offerGranted ref s.now) := rfl

theorem reply_taken {m : ReplyMsg} {n : PortNo} {q : OutReq} (calm : Calm s) (hear : Hearing s start) (us : ForUs s h)
    (fam : Familiar s h) (hq : (s.port n).outReq = some q) (held : q.held = false) (tag : q.tag = m.tag)
    (other : ∀ k, (s.port (otherPort n)).outReq = some k → k.held = true ∨ k.tag ≠ m.tag) :
    ∃ t, exec (.reply h m) s = .next t ∧
      (∀ x y, m.answer = .unlisted x y →
        (t.port n).outReq = some q ∧ (t.port n).state = (s.port n).state ∧ (t.port n).pending = (s.port n).pending) ∧
      (∀ c, m.answer = .refuse c → (t.port n).outReq = none ∧ (t.port n).state = .cleared ∧
        (t.port n).tone = .busy ∧ (t.port n).lastCause = some (.refused c) ∧
          (t.port n).lastRef = some (m.refStation, m.refPort)) ∧
      (m.answer = .grant → q.kind = .offer → (t.port n).outReq = none ∧ (t.port n).state = (s.port n).state ∧
        (t.port n).tone = .ringBack ∧ (t.port n).ringBack = some s.now ∧
          (∀ st po x, (s.port n).pending = some (.offered st po x) →
            (t.port n).pending = some (.offered st po (some m.ref)))) ∧
      (m.answer = .grant → q.kind ≠ .offer → (t.port n).outReq = none ∧ (t.port n).state = .connected ∧
        (t.port n).callRef = some (.outside h.src m.ref) ∧ (t.port n).seq = 0 ∧ (t.port n).silence = some s.now ∧
          (t.port n).tone = .silent) := by
  have calm' := calm_heardNow start calm fam
  have taken := replyFrame_at (s := heardNow h start s) (src := h.src) (m := m) (n := n) (q := q)
    (by rw [heardNow_portOutReq, hq]) held tag (fun k hk => other k (by rwa [heardNow_portOutReq] at hk))
  refine ⟨_, exec_reply m calm hear us fam, ?_⟩
  rw [taken]
  cases answer : m.answer with
  | unlisted x y =>
    have nothing : takeAnswer n q.kind h.src ⟨.unlisted x y, m.refStation, m.refPort, m.ref⟩ (heardNow h start s) =
        heardNow h start s := rfl
    rw [nothing, finish_of_calm calm']
    refine ⟨fun _ _ _ => ⟨?_, heardNow_portState h start s n, heardNow_portPending h start s n⟩, nofun, nofun, nofun⟩
    rw [heardNow_portOutReq, hq]
  | refuse c =>
    have refused : takeAnswer n q.kind h.src ⟨.refuse c, m.refStation, m.refPort, m.ref⟩ (heardNow h start s) =
        clearPort n (some (.refused c)) (some (m.refStation, m.refPort)) (heardNow h start s) := rfl
    rw [refused, port_finish_clearPort _ _ _ calm']
    refine ⟨nofun, fun c' hc => ?_, nofun, nofun⟩
    cases hc
    exact ⟨rfl, rfl, rfl, rfl, rfl⟩
  | grant =>
    by_cases offer : q.kind = .offer
    · rw [offer, takeAnswer_grantedOffer]
      have first : FirstSettled ((heardNow h start s).modPort n (Port.offerGranted m.ref (heardNow h start s).now)) :=
        firstSettled_modPort calm'
      have rings := State.port_modPort_same n (Port.offerGranted m.ref (heardNow h start s).now) (heardNow h start s)
      rw [port_finish first (by rw [rings]; nofun) (by rw [rings]; nofun), rings]
      refine ⟨nofun, nofun, fun _ _ => ⟨rfl, heardNow_portState h start s n, rfl, rfl, fun st po x hp => ?_⟩,
        fun _ away => absurd rfl away⟩
      rw [← heardNow_portPending h start] at hp
      simp only [Port.offerGranted, Port.setTone, hp]
    · have connected : takeAnswer n q.kind h.src ⟨.grant, m.refStation, m.refPort, m.ref⟩ (heardNow h start s) =
          connectPort n (.outside h.src m.ref) (heardNow h start s) := if_neg offer
      rw [connected, port_finish_connectPort calm' us.1]
      exact ⟨nofun, nofun, fun _ is_offer => absurd is_offer offer, fun _ _ => ⟨rfl, rfl, rfl, rfl, rfl, rfl⟩⟩

theorem clear_taken {m : ClearMsg} {n : PortNo} {holder id : Nat} (calm : Calm s) (hear : Hearing s start)
    (us : ForUs s h) (fam : Familiar s h) (hport : m.port = portNo n)
    (ref : (s.port n).callRef = some (.outside holder id)) :
    ∃ t, exec (.clear h m) s = .next t ∧
      if m.ref = id then
        (t.port n).state = .cleared ∧ (t.port n).callRef = none ∧ (t.port n).tone = .busy ∧
          (t.port n).lastCause = some (.cleared m.cause) ∧ (t.port n).playout = ⟨[], none, [], 0⟩
      else (t.port n).state = (s.port n).state ∧ (t.port n).callRef = (s.port n).callRef := by
  have calm' := calm_heardNow start calm fam
  refine ⟨_, exec_clear m calm hear us fam, ?_⟩
  rw [hport, portOf_portNo]
  have taken : takeClear n m.ref m.cause (heardNow h start s) =
      if id = m.ref then clearPort n (some (.cleared m.cause)) none (heardNow h start s) else heardNow h start s := by
    rw [takeClear, heardNow_portCallRef, ref]
  simp only [taken]
  by_cases same : m.ref = id
  · rw [if_pos same, if_pos same.symm, port_finish_clearPort _ _ _ calm']
    exact ⟨rfl, rfl, rfl, rfl, rfl⟩
  · rw [if_neg same, if_neg (Ne.symm same), finish_of_calm calm']
    exact ⟨heardNow_portState h start s n, heardNow_portCallRef h start s n⟩

end

/-- Settles O30. -/
theorem replyAndClear : Obligations.ReplyAndClear := by
  refine ⟨?_, ?_⟩
  · intro s h m n q start calm hear us fam hq held tag other
    exact reply_taken calm hear us fam hq held tag other
  · intro s h m n holder id start calm hear us fam port ref
    exact clear_taken calm hear us fam port ref

end Sys2Proof.Machine
end

section
/-! PROOFS. The end of a command that changed the exchange loop or the upstream transfer (R81, R119, R124), and the
frames that do so: DIAL, VOICE, stale frames (R120 to R125) and DATA (R8, R80, R81, R84, R85). -/

namespace Sys2Proof.Machine

open Sys2Proof

theorem answers_of {c : Instr} {s t : State} {P : State → Prop} (run : exec c s = .next t) (h : P t) : Answers c s P :=
  ⟨t, run, h⟩

/-! ## Where all is settled but the transfer and the exchange loop -/

/-- All the rules after the notices have nothing to do, but those of the upstream transfer and of the exchange loop. -/
structure CoreSettled (s : State) : Prop where
  head : headSettled s = true
  conds : condsSettled s = true
  idle : idleSettled s = true
  reports : reportsSettled s = true
  offer : offerSettled s = true
  lamp : s.lampWanted = s.fault.lamp
  tones : s.fittedPorts.all (toneSettled s) = true

theorem RestSettled.core {s : State} (h : RestSettled s) : CoreSettled s :=
  ⟨h.head, h.conds, h.idle, h.reports, h.offer, h.lamp, h.tones⟩

theorem lampWanted_congr {s t : State} (hold : t.hold = s.hold) (fault : t.fault = s.fault) :
    t.lampWanted = s.lampWanted := by
  have halted : t.halted = s.halted := halted_congr (by rw [hold])
  rw [State.lampWanted, State.lampWanted, halted, fault]

/-- The transfer and the exchange loop do what is left to do (R81, R119, R124). -/
def settleLoop (s : State) : State := settleLoss (startOutpulse (startTransfer s))

theorem settleLoop_only (s : State) : Only [.sup, .call, .outs] s (settleLoop s) :=
  (settleLoss_only _).after ((startOutpulse_only _).after ((startTransfer_only _).mono (by decide)) (by decide))
    (by decide)

theorem settleRest_core {s : State} (h : CoreSettled s) : settleRest s = clearNotices (settleLoop s) := by
  have only := settleLoop_only s
  have lamp : (settleLoop s).lampWanted = (settleLoop s).fault.lamp := by
    rw [lampWanted_congr only.hold only.fault, only.fault, h.lamp]
  have tones := tonesSettled_congr (s := s) (t := settleLoop s) only.cfg (fun n => by rw [port_congr only.ports])
    (dialTone_eq_of_fault only.fault) h.tones
  have later : settleLater s = settleLoop s := by
    rw [settleLater, settleReports_of h.reports, mailboxOffer_of h.offer]
    exact settleLamp_of lamp
  rw [settleRest, settleMiddle, settleDataHead_of h.head, settleConds_of h.conds, settleIdle_of h.idle, later,
    settleTones_of tones]

theorem CoreSettled.clearNotices {s : State} (h : CoreSettled s) : CoreSettled (clearNotices s) :=
  ⟨h.head, h.conds, h.idle, h.reports, h.offer, h.lamp, h.tones⟩

theorem finish_core {s : State} (f : FirstSettled s) (h : CoreSettled s) :
    finish s = clearNotices (settleLoop (clearNotices s)) := by
  rw [finish_eq, settleFirst_of f, settleRest_core h.clearNotices]

/-- A change of the line call alone leaves those rules settled. -/
theorem CoreSettled.setCall {s t : State} (h : CoreSettled s) (only : Only [.call] s t) : CoreSettled t := by
  have shape : t = withPorts s.ports t.call s := by
    have e := Only.portsCall (only.mono (ps := [.ports, .call]) (by decide))
    rwa [only.ports] at e
  rw [shape]
  exact ⟨h.head, h.conds, h.idle, h.reports, h.offer, h.lamp, h.tones⟩

/-! ## The exchange loop (R119, R123, R124) -/

/-- The record once the oldest item begins to be sent, if it does (R124). -/
def CallRecord.started (now : Tick) (r : CallRecord) : CallRecord :=
  match r.queue with
  | i :: rest => if r.seized && decide (r.outpulse = .idle) then
      { r with queue := rest, outpulse := firstBreak now i } else r
  | [] => r

theorem startOutpulse_record {s : State} {r : CallRecord} (hr : s.call.record = some r) :
    (startOutpulse s).call.record = some (r.started s.now) := by
  unfold startOutpulse CallRecord.started
  simp only [hr]
  cases hq : r.queue with
  | nil => exact hr
  | cons i rest =>
    dsimp only
    split
    · rw [modRecord_record hr]
    · exact hr

/-- The loss timer's part of a command's end at a record (R119). -/
theorem settleLoss_record {s : State} {r : CallRecord} (hr : s.call.record = some r) :
    (settleLoss s).call.record = some { r with loss := lossNow s r } := modRecord_record hr

/-- The record once a command has ended, at a station settled but for its line call. -/
theorem finish_record {s : State} {r : CallRecord} (f : FirstSettled s) (h : CoreSettled s)
    (transfer : transferSettled s = true) (hr : s.call.record = some r) :
    ∃ l, (finish s).call.record = some { r.started s.now with loss := l } := by
  have same : startTransfer (clearNotices s) = clearNotices s := startTransfer_of (s := clearNotices s) transfer
  have call : (finish s).call = (settleLoop (clearNotices s)).call := by
    rw [finish_core f h]
    exact (clearNotices_only _).call
  rw [call, settleLoop, same]
  exact ⟨_, settleLoss_record (startOutpulse_record hr)⟩

/-- A record taken over by the station whose exchange loop was settled holds nothing to send while it could send. -/
theorem queue_nil_of_settled {s : State} {r : CallRecord} (h : outpulseSettled s = true) (hr : s.call.record = some r)
    (free : (r.seized && decide (r.outpulse = .idle)) = true) : r.queue = [] := by
  rw [outpulseSettled, hr] at h
  simpa [free] using h

/-- The record with one more item to send, if there is room (R123). -/
def CallRecord.withItem (i : DialItem) (r : CallRecord) : CallRecord :=
  if r.queue.length < 32 then { r with queue := r.queue ++ [i] } else r

/-- A digit or flash of a party, at a settled station (R123, R124). -/
theorem takenForExchange_of {i : DialItem} {s t : State} {r : CallRecord} {l : Option Tick}
    (settled : outpulseSettled s = true) (hr : s.call.record = some r)
    (ht : t.call.record = some { (r.withItem i).started s.now with loss := l }) : TakenForExchange i r s t := by
  unfold TakenForExchange
  rw [ht]
  cases free : r.seized && decide (r.outpulse = .idle) with
  | true =>
    have queue := queue_nil_of_settled settled hr free
    have joined : r.withItem i = { r with queue := [i] } := by simp [CallRecord.withItem, queue]
    have begun : (r.withItem i).started s.now = { r with queue := [], outpulse := firstBreak s.now i } := by
      rw [joined]; exact if_pos free
    rw [begun]
    cases i <;> rfl
  | false =>
    have begun : (r.withItem i).started s.now = r.withItem i := by
      have fields : (r.withItem i).seized = r.seized ∧ (r.withItem i).outpulse = r.outpulse := by
        unfold CallRecord.withItem; split <;> exact ⟨rfl, rfl⟩
      unfold CallRecord.started
      split
      · rw [fields.1, fields.2, free, if_neg (by decide)]
      · rfl
    rw [begun, if_neg (by decide)]
    unfold CallRecord.withItem
    split <;> rfl

/-! ## DIAL and stale frames (R11, R121, R123) -/

/-- A change of the line call that leaves the record there or not there leaves the first part settled. -/
theorem FirstSettled.setCall {s t : State} (h : FirstSettled s) (only : Only [.call] s t)
    (none : s.wire.dropped = []) (record : t.call.record.isSome = s.call.record.isSome) : FirstSettled t :=
  h.keepPorts (only.mono (by decide)) none record

theorem recordFor_iff {st po ref : Nat} {s : State} :
    recordFor st po ref s = true ↔ ∃ r, s.call.record = some r ∧ r.id = ref ∧ r.has st po = true := by
  unfold recordFor
  cases s.call.record with
  | none => simp
  | some r => simp

theorem takeDial_taken {st po ref : Nat} {i : DialItem} {s : State} (known : recordFor st po ref s = true) :
    takeDial st po ref i s = modRecord (CallRecord.withItem i) s := by
  rw [takeDial, if_pos known]
  rfl

/-- A party's digit or flash, taken at a settled station (R123, R124). -/
theorem finish_takeDial {st po ref : Nat} {i : DialItem} {s : State} {r : CallRecord} (calm : Calm s)
    (hr : s.call.record = some r) (known : recordFor st po ref s = true) :
    TakenForExchange i r s (finish (takeDial st po ref i s)) := by
  rw [takeDial_taken known]
  have only := modRecord_only (CallRecord.withItem i) s
  have record := modRecord_record (f := CallRecord.withItem i) hr
  obtain ⟨l, ended⟩ := finish_record
    ((Calm.first calm).setCall only (Calm.dropped calm) (by rw [record, hr]; rfl))
    ((Calm.rest calm).core.setCall only) (by
      have sup := only.sup
      have old := (Calm.rest calm).transfer
      rwa [transferSettled, ← sup, ← only.pins] at old) record
  rw [only.now] at ended
  exact takenForExchange_of (Calm.rest calm).outpulse hr ended

theorem staleKnown_iff {st po ref : Nat} {s : State} : staleKnown st po ref s = true ↔
    ∃ x, s.call.stale = some ⟨st, po, ref, x⟩ ∧ 0 ≤ elapsed s.now x ∧ elapsed s.now x ≤ 40000 := by
  unfold staleKnown
  cases hm : s.call.stale with
  | none => simp
  | some m =>
    simp only [within, Config.silenceTime, Bool.and_eq_true, decide_eq_true_eq, Option.some.injEq]
    constructor
    · rintro ⟨⟨⟨rfl, rfl⟩, rfl⟩, low, high⟩
      exact ⟨m.time, rfl, low, of_decide_eq_true high⟩
    · rintro ⟨x, rfl, low, high⟩
      exact ⟨⟨⟨rfl, rfl⟩, rfl⟩, low, decide_eq_true high⟩

/-- The cause a stale frame is answered with (R121). -/
theorem staleCause_eq (ref : Nat) (s : State) : staleCause ref s =
    if s.holding = true ∧ s.call.record.any (fun r => decide (r.id = ref)) = true then .partyLimit else .restart := by
  unfold staleCause
  cases s.call.record with
  | none => simp
  | some r => simp

/-- What a stale frame leads to, within the second after its like and otherwise (R11, R121). -/
structure StaleAnswered (st po ref : Nat) (s t : State) : Prop where
  record : t.call.record = s.call.record
  again : staleKnown st po ref s = true → t.wire.control = s.wire.control ∧ t.call.stale = s.call.stale
  first : staleKnown st po ref s = false →
    FrameHanded st (.clear ⟨ref, po, staleCause ref s⟩) s t ∧ t.call.stale = some ⟨st, po, ref, s.now⟩

/-- A stale frame from another station, at a settled one that is not HALTED (R121). -/
theorem finish_staleFrame {st po ref : Nat} {s : State} (calm : Calm s) (awake : s.halted = false)
    (other : st ≠ s.own) : StaleAnswered st po ref s (finish (staleFrame st po ref s)) := by
  cases known : staleKnown st po ref s with
  | true =>
    have same : staleFrame st po ref s = s := by rw [staleFrame, known, Bool.or_true, if_pos rfl]
    rw [same, finish_of_calm calm]
    exact ⟨rfl, fun _ => ⟨rfl, rfl⟩, by simp [known]⟩
  | false =>
    have noted : Only [.call] s (s.modCall fun c => { c with stale := some ⟨st, po, ref, s.now⟩ }) :=
      State.modCall_only _ _
    have answered : staleFrame st po ref s = offerControl st (.clear ⟨ref, po, staleCause ref s⟩)
        (s.modCall fun c => { c with stale := some ⟨st, po, ref, s.now⟩ }) := by
      rw [staleFrame, awake, known, Bool.or_false, if_neg (by decide)]
      exact if_neg other
    rw [answered]
    obtain ⟨handed, only⟩ := finish_handed_read (s := s) (dst := st) (b := .clear ⟨ref, po, staleCause ref s⟩)
      ((Calm.first calm).setCall noted (Calm.dropped calm) rfl)
      ((Calm.rest calm).keepPorts (noted.mono (by decide)) (fun n => PortKept.refl _) rfl)
      (Calm.dropped (s := s) calm) rfl rfl rfl nofun nofun rfl
    refine ⟨by rw [only.call]; rfl, by simp [known], fun _ => ⟨handed, by rw [only.call]; rfl⟩⟩

section
variable {s : State} {h : Header} {start : Tick}

theorem exec_dial (m : DialMsg) (calm : Calm s) (hear : Hearing s start) (us : ForUs s h) (fam : Familiar s h) :
    exec (.dial h m) s = .next (finish (dialFrame h.src m (heardNow h start s))) :=
  congrArg Host.Outcome.next (frame_forUs none _ calm hear us fam)

theorem exec_voice (m : VoiceMsg) (calm : Calm s) (hear : Hearing s start) (us : ForUs s h) (fam : Familiar s h) :
    exec (.voice h m) s = .next (finish (voiceFrame h.src m (heardNow h start s))) :=
  congrArg Host.Outcome.next (frame_forUs none _ calm hear us fam)

theorem dialFrame_stale {st po ref : Nat} {i : Coded DialItem} {s : State} (unknown : recordFor st po ref s = false) :
    dialFrame st ⟨ref, po, i⟩ s = staleFrame st po ref s := by
  cases i with
  | listed v => exact if_neg (by rw [unknown]; decide)
  | unlisted b => exact if_neg (by rw [unknown]; decide)

theorem voiceFrame_stale {st po ref d : Nat} {q : Byte} {x : Speech} {s : State}
    (unknown : recordFor st po ref s = false) :
    voiceFrame st ⟨.toHolder, ref, po, d, q, x⟩ s = staleFrame st po ref s := if_neg (by rw [unknown]; decide)

end

/-- Settles O31. -/
theorem dialAndStaleFrames : Obligations.DialAndStaleFrames := by
  refine ⟨?_, ?_⟩
  · intro s h m r start calm hear us fam record hid party
    have calm' := calm_heardNow start calm fam
    have known : recordFor h.src m.port m.ref (heardNow h start s) = true := recordFor_iff.mpr ⟨r, record, hid, party⟩
    refine ⟨_, exec_dial m calm hear us fam, fun b hb => ?_, fun i hi => ?_⟩
    · have nothing : dialFrame h.src m (heardNow h start s) = heardNow h start s := by
        rw [dialFrame, hb]
        exact if_pos known
      rw [nothing, finish_of_calm calm']
      rfl
    · have taken : dialFrame h.src m (heardNow h start s) =
          takeDial h.src m.port m.ref i (heardNow h start s) := by rw [dialFrame, hi]
      have exchange := finish_takeDial (i := i) calm' record known
      rw [taken]
      unfold TakenForExchange at exchange ⊢
      rwa [heardNow_now] at exchange
  · intro s h po ref start c calm hear us fam awake unknown hc
    have calm' := calm_heardNow start calm fam
    have unknown' : recordFor h.src po ref (heardNow h start s) = false := unknown
    have run : exec c s = .next (finish (staleFrame h.src po ref (heardNow h start s))) := by
      rcases hc with ⟨i, rfl⟩ | ⟨d, q, x, rfl⟩
      · rw [exec_dial _ calm hear us fam, dialFrame_stale unknown']
      · rw [exec_voice _ calm hear us fam, voiceFrame_stale unknown']
    obtain ⟨record, again, first⟩ := finish_staleFrame (st := h.src) (po := po) (ref := ref) calm' awake us.1
    have same : staleKnown h.src po ref (heardNow h start s) = staleKnown h.src po ref s := rfl
    rw [same] at again first
    refine ⟨_, run, record, fun x hx hlow hhigh => again (staleKnown_iff.mpr ⟨x, hx, hlow, hhigh⟩), fun fresh => ?_⟩
    have notKnown : staleKnown h.src po ref s = false := by
      rw [← Bool.not_eq_true, staleKnown_iff]
      rintro ⟨x, hx, -, hhigh⟩
      rcases fresh with none | ⟨y, hy, differs⟩
      · rw [hx] at none; cases none
      · rw [hx] at hy
        cases hy
        rcases differs with e | e | e | late
        · exact e rfl
        · exact e rfl
        · exact e rfl
        · exact absurd late (not_lt.mpr hhigh)
    have answered := first notKnown
    rw [staleCause_eq] at answered
    exact answered

/-! ## The playout buffer (R108) -/

theorem draw_fresh {b : Playout} (last : b.last = none) (frames : b.frames = []) :
    b.draw = (List.replicate 80 0#16, b) := by
  rw [Playout.draw, last, frames]
  rfl

theorem draw_first {b : Playout} {q : Byte} {x : Speech} {rest : List (Byte × Speech)} (last : b.last = none)
    (frames : b.frames = (q, x) :: rest) : b.draw = (x, ⟨rest, some q, x, 0⟩) := by
  rw [Playout.draw, last, frames]

theorem draw_due {b : Playout} {l q : Byte} {x : Speech} (last : b.last = some l)
    (due : b.frames.find? (fun f => decide (f.1 = l + 1)) = some (q, x)) :
    b.draw = (x, ⟨b.frames.filter (fun f => decide (f.1 ≠ l + 1)), some (l + 1), x, 0⟩) := by
  rw [Playout.draw, last]
  simp only [due]

theorem draw_missing {b : Playout} {l : Byte} (last : b.last = some l)
    (missing : b.frames.find? (fun f => decide (f.1 = l + 1)) = none) :
    b.draw = if b.conceal = 0 then (b.samples.map halve, { b with last := some (l + 1), conceal := 1 })
      else (silence, { b with last := some (l + 1) }) := by
  rw [Playout.draw, last]
  simp only [missing]

/-- A frame takes its place in sequence: after those not later, before the first that is later (R108). -/
theorem insertSeq_split (q : Byte) (x : Speech) : ∀ frames : List (Byte × Speech), ∃ l1 l2,
    frames = l1 ++ l2 ∧ (∀ f ∈ l1, 0 ≤ (q - f.1).toInt) ∧ (∀ f, l2.head? = some f → (q - f.1).toInt < 0) ∧
      insertSeq q x frames = l1 ++ (q, x) :: l2
  | [] => ⟨[], [], rfl, by simp, by simp, rfl⟩
  | (r, y) :: rest => by
    by_cases later : seqDiff q r < 0
    · refine ⟨[], (r, y) :: rest, rfl, by simp, fun f hf => ?_, if_pos later⟩
      cases hf
      exact later
    · obtain ⟨l1, l2, split, before, after, joined⟩ := insertSeq_split q x rest
      refine ⟨(r, y) :: l1, l2, by rw [split]; rfl, fun f hf => ?_, after, ?_⟩
      · rcases List.mem_cons.mp hf with rfl | tail
        · exact not_lt.mp later
        · exact before f tail
      · rw [insertSeq, if_neg later, joined]
        rfl

/-- The buffer discards a frame that was played or that it holds (R108). -/
theorem insert_known {b : Playout} {q : Byte} {x : Speech}
    (known : (∃ l, b.last = some l ∧ (q - l).toInt ≤ 0) ∨ ∃ f ∈ b.frames, f.1 = q) : b.insert q x = b := by
  unfold Playout.insert
  refine if_pos ?_
  rw [Bool.or_eq_true]
  rcases known with ⟨l, last, played⟩ | ⟨f, held, same⟩
  · left
    rw [last]
    exact decide_eq_true played
  · right
    exact List.any_eq_true.mpr ⟨f, held, decide_eq_true same⟩

/-- The buffer with its frames in sequence: four are one too many, and the earliest counts as played (R108, log 23). -/
def Playout.placed (b : Playout) : List (Byte × Speech) → Playout
  | [] => b
  | (r, y) :: rest =>
    if 3 ≤ rest.length then { b with frames := rest, last := some r, samples := y } else
      { b with frames := (r, y) :: rest }

/-- A new frame enters the buffer in sequence (R108). -/
theorem insert_new {b : Playout} {q : Byte} {x : Speech} (fresh : ∀ l, b.last = some l → 0 < (q - l).toInt)
    (unheld : ∀ f ∈ b.frames, f.1 ≠ q) : b.insert q x = b.placed (insertSeq q x b.frames) := by
  have notHeld : b.frames.any (fun f => decide (f.1 = q)) = false := by
    rw [List.any_eq_false]
    exact fun f hf => by simpa using unheld f hf
  have isNew : ((match b.last with | some l => decide (seqDiff q l ≤ 0) | none => false) ||
      b.frames.any (fun f => decide (f.1 = q))) = false := by
    rw [notHeld, Bool.or_false]
    cases last : b.last with
    | none => rfl
    | some l => exact decide_eq_false (not_le.mpr (fresh l last))
  unfold Playout.insert
  refine (if_neg (fun late => Bool.false_ne_true (isNew.symm.trans late))).trans ?_
  cases insertSeq q x b.frames <;> rfl

theorem playout_rules (b : Playout) :
    (b.last = none → b.frames = [] → b.draw = (List.replicate 80 0#16, b)) ∧
    (∀ q x rest, b.last = none → b.frames = (q, x) :: rest → b.draw = (x, ⟨rest, some q, x, 0⟩)) ∧
    (∀ l q x, b.last = some l → b.frames.find? (fun f => f.1 == l + 1) = some (q, x) →
      b.draw.1 = x ∧ b.draw.2.last = some (l + 1) ∧ b.draw.2.conceal = 0 ∧ b.draw.2.samples = x ∧
        b.draw.2.frames = b.frames.filter fun f => decide (f.1 ≠ l + 1)) ∧
    (∀ l, b.last = some l → b.frames.find? (fun f => f.1 == l + 1) = none →
      b.draw.1 = (if b.conceal = 0 then b.samples.map fun x => BitVec.ofInt 16 (x.toInt.tdiv 2)
        else List.replicate 80 0#16) ∧ b.draw.2.last = some (l + 1) ∧ b.draw.2.frames = b.frames ∧
        (b.conceal = 0 → b.draw.2.conceal = 1)) ∧
    (∀ q x, (∃ l, b.last = some l ∧ (q - l).toInt ≤ 0) ∨ (∃ f ∈ b.frames, f.1 = q) → b.insert q x = b) ∧
    (∀ q x, (∀ l, b.last = some l → 0 < (q - l).toInt) → (∀ f ∈ b.frames, f.1 ≠ q) →
      ∃ l1 l2, b.frames = l1 ++ l2 ∧ (∀ f ∈ l1, 0 ≤ (q - f.1).toInt) ∧
        (∀ f, l2.head? = some f → (q - f.1).toInt < 0) ∧
        (b.frames.length < 3 → b.insert q x = { b with frames := l1 ++ (q, x) :: l2 }) ∧
        (b.frames.length = 3 → ∀ r y rest, l1 ++ (q, x) :: l2 = (r, y) :: rest →
          b.insert q x = { b with frames := rest, last := some r, samples := y })) := by
  refine ⟨draw_fresh, fun q x rest => draw_first, fun l q x last due => ?_, fun l last missing => ?_,
    fun q x => insert_known, fun q x fresh unheld => ?_⟩
  · simp only [beq_eq_decide] at due
    rw [draw_due last due]
    exact ⟨rfl, rfl, rfl, rfl, rfl⟩
  · simp only [beq_eq_decide] at missing
    rw [draw_missing last missing]
    by_cases first : b.conceal = 0
    · rw [if_pos first, if_pos first]
      exact ⟨rfl, rfl, rfl, fun _ => rfl⟩
    · rw [if_neg first, if_neg first]
      exact ⟨rfl, rfl, rfl, fun zero => absurd zero first⟩
  · obtain ⟨l1, l2, split, before, after, joined⟩ := insertSeq_split q x b.frames
    have count : (l1 ++ (q, x) :: l2).length = b.frames.length + 1 := by rw [split]; simp; omega
    refine ⟨l1, l2, split, before, after, fun room => ?_, fun full r y rest first => ?_⟩
    · rw [insert_new fresh unheld, joined]
      cases placed : l1 ++ (q, x) :: l2 with
      | nil => simp at placed
      | cons f rest =>
        rw [placed, List.length_cons] at count
        exact if_neg (by omega)
    · rw [insert_new fresh unheld, joined, first]
      rw [first, List.length_cons] at count
      exact if_pos (by omega)

/-! ## VOICE (R102, R107, R120, R125) -/

/-- A port's voice frame, played out (R102, R107). -/
def Port.voiced (m : VoiceMsg) (now : Tick) (p : Port) : Port :=
  { p with
    playout := p.playout.insert m.seq m.samples
    silence := if decide (m.stream = .intercom) && p.silence.isSome then some now else p.silence }

theorem portVoice_eq (m : VoiceMsg) (n : PortNo) (s : State) :
    portVoice m n s = if voiceMatches m (s.port n) then s.modPort n (Port.voiced m s.now) else s := rfl

theorem voiceFrame_port {src : Nat} {m : VoiceMsg} {n : PortNo} {s : State} (away : m.stream ≠ .toHolder)
    (port : m.dstPort = portNo n) : voiceFrame src m s = portVoice m n s := by
  unfold voiceFrame
  split
  · next holder => exact absurd holder away
  · rw [port, portOf_portNo]

/-- A port's voice frame at a settled station (R102, R107). -/
theorem finish_portVoice {m : VoiceMsg} {n : PortNo} {s : State} (calm : Calm s) :
    (finish (portVoice m n s)).port n =
      if voiceMatches m (s.port n) then Port.voiced m s.now (s.port n) else s.port n := by
  rw [portVoice_eq]
  split
  · have only := State.modPort_only n (Port.voiced m s.now) s
    rw [finish_keepPorts calm (only.mono (by decide)) (fun k => ?_) (by rw [only.call]),
      port_congr (clearNotices_only _).ports, State.port_modPort_same]
    by_cases same : k = n
    · subst same
      rw [State.port_modPort_same]
      exact ⟨Iff.rfl, rfl, .inl rfl⟩
    · rw [State.port_modPort_other _ _ same]
      exact PortKept.refl _
  · rw [finish_of_calm calm]

/-- A party's speech at a settled station (R120, R125). -/
theorem finish_partyVoice {st po ref : Nat} {q : Byte} {x : Speech} {s : State} {r : CallRecord} (calm : Calm s)
    (hr : s.call.record = some r) (known : recordFor st po ref s = true) :
    (finish (partyVoice st po ref q x s)).call.record =
      some { r with parties := r.parties.map (feedParty st po q x s.now) } := by
  have taken : partyVoice st po ref q x s =
      modRecord (fun r => { r with parties := r.parties.map (feedParty st po q x s.now) }) s := if_pos known
  have record := modRecord_record (f := fun r => { r with parties := r.parties.map (feedParty st po q x s.now) }) hr
  rw [taken, finish_of_settled
    ((Calm.first calm).setCall (modRecord_only _ _) (Calm.dropped calm) (by rw [record, hr]; rfl))
    ((Calm.rest calm).modRecord hr rfl rfl rfl rfl)]
  exact record

/-- Settles O32. -/
theorem voiceEntersPlayout : Obligations.VoiceEntersPlayout := by
  refine ⟨playout_rules, fun s h m start calm hear us fam => ?_⟩
  have calm' := calm_heardNow start calm fam
  have run := exec_voice m calm hear us fam
  have at_port : ∀ n, m.stream ≠ .toHolder → m.dstPort = portNo n →
      (finish (voiceFrame h.src m (heardNow h start s))).port n =
        if voiceMatches m (s.port n) then Port.voiced m s.now ((heardNow h start s).port n)
        else (heardNow h start s).port n := fun n away port => by
    obtain ⟨x, e⟩ := heardNow_portFields h start s n
    have reads : voiceMatches m ((heardNow h start s).port n) = voiceMatches m (s.port n) := by rw [e]; rfl
    rw [voiceFrame_port away port, finish_portVoice calm', reads, heardNow_now]
  refine ⟨fun r record holder hid party => ?_, fun n k port stream ref => ?_, fun n st po l port stream ref => ?_,
    fun n b port other away => ?_⟩
  · have taken : voiceFrame h.src m (heardNow h start s) =
        partyVoice h.src m.srcPort m.ref m.seq m.samples (heardNow h start s) := by
      rw [voiceFrame, holder]
    refine answers_of run ?_
    rw [taken, finish_partyVoice calm' record (recordFor_iff.mpr ⟨r, record, hid, party⟩)]
    refine congrArg some (List.map_congr_left fun p _ => ?_)
    simp only [feedParty, isParty, Bool.and_eq_true, decide_eq_true_eq, heardNow_now]
  · refine answers_of run ?_
    have plays : voiceMatches m (s.port n) = true := by simp [voiceMatches, stream, ref]
    rw [at_port n (by rw [stream]; nofun) port, if_pos plays, heardNow_port]
    refine ⟨?_, ?_⟩
    · obtain ⟨x, e⟩ := feedHolder_eq h.src s.now (s.port n)
      rw [e]; rfl
    · have kept : decide (m.stream = .intercom) = false := by rw [stream]; rfl
      simp only [Port.voiced, kept, Bool.false_and, Bool.false_eq_true, if_false, feedHolder, ref]
      split <;> rfl
  · refine answers_of run ?_
    have plays : voiceMatches m (s.port n) = true := by simp [voiceMatches, stream, ref]
    have heard : (heardNow h start s).port n = s.port n := by
      rw [heardNow_port, feedHolder, ref]
    rw [at_port n (by rw [stream]; nofun) port, if_pos plays, heard]
    refine ⟨rfl, ?_⟩
    simp only [Port.voiced, stream, decide_true, Bool.true_and]
    cases (s.port n).silence <;> rfl
  · refine answers_of run ?_
    have silent : voiceMatches m (s.port n) = false := by
      rcases other with stream | none
      · simp [voiceMatches, stream]
      · unfold voiceMatches
        rw [none]
        cases m.stream <;> rfl
    obtain ⟨x, e⟩ := heardNow_portFields h start s n
    rw [at_port n away port, silent, if_neg (by decide), e]

end Sys2Proof.Machine
end

section
/-! PROOFS. A DATA frame leaves by the packet port, or teaches the holder's address map and joins its uplink queue (R8,
R80, R81, R84). -/

namespace Sys2Proof.Machine

open Sys2Proof

theorem learn_group {a : List Byte} {station : Nat} {now : Tick} {m : List MapEntry}
    (group : (a.headD 0).getLsbD 0 = true) :
    learn a station now m = m := if_pos group

/-- An address that is not a group's joins the tail of the map, and the oldest of 32 others makes room (R84). -/
theorem learn_single {a : List Byte} {station : Nat} {now : Tick} {m : List MapEntry}
    (single : (a.headD 0).getLsbD 0 = false) : learn a station now m =
      (if (m.filter fun e => decide (e.addr ≠ a)).length < 32 then m.filter fun e => decide (e.addr ≠ a)
        else (m.filter fun e => decide (e.addr ≠ a)).drop 1) ++ [⟨a, station, now⟩] := by
  have own : isGroup a = false := single
  rw [learn, own, if_neg (by decide), List.drop_one]
  rfl

/-- An upstream transfer begins (R81). -/
theorem startTransfer_begins {s : State} {f : LinkFrame} {rest : List LinkFrame} (uplink : s.sup.uplink = f :: rest)
    (free : (decide (s.sup.state = .synced) && s.pins.sendOk && s.sup.upTransfer.isNone) = true) :
    startTransfer s = (s.modSup fun u => { u with uplink := rest, upTransfer := some f }).emit (.upstream f) := by
  rw [startTransfer, uplink]
  exact if_pos free

section
variable {s : State} {h : Header} {start : Tick}

theorem exec_data (f : LinkFrame) (calm : Calm s) (hear : Hearing s start) (us : ForUs s h) (fam : Familiar s h) :
    exec (.data h f) s = .next (finish (dataFrame h.src h.dst f (heardNow h start s))) :=
  congrArg Host.Outcome.next (frame_forUs none _ calm hear us fam)

/-- At another station than a HOLDING one the frame goes to the packet port (R80). -/
theorem finish_packet (f : LinkFrame) (calm : Calm s) : finish (s.emit (.packet f)) = clearNotices
    (s.emit (.packet f)) := by
  have first := Calm.first calm
  have rest := Calm.rest calm
  exact finish_of_settled (.of_none first.eligible first.degraded first.holder (Calm.dropped (s := s) calm))
    ⟨⟨rest.head, rest.conds, rest.reports, rest.offer, rest.transfer, rest.outpulse, rest.loss, rest.lamp, rest.tones⟩,
      rest.idle⟩

/-- What a command's end makes of a frame that the supervisor took (R80, R81): a transfer begins or does not. -/
theorem finish_uplinkTake (station : Nat) (f : LinkFrame) (calm : Calm s) :
    (finish (uplinkTake station f s)).sup = (startTransfer (uplinkTake station f s)).sup ∧
      (finish (uplinkTake station f s)).outs = (startTransfer (uplinkTake station f s)).outs := by
  have first := Calm.first calm
  have rest := Calm.rest calm
  have none : (uplinkTake station f s).wire.dropped = [] := Calm.dropped (s := s) calm
  have noted : FirstSettled (uplinkTake station f s) := .of_none first.eligible first.degraded first.holder none
  have core : CoreSettled (uplinkTake station f s) :=
    ⟨rest.head, rest.conds, rest.idle, rest.reports, rest.offer, rest.lamp, rest.tones⟩
  rw [finish_core noted core, clearNotices_of_none none]
  have last : Only [.wire, .call] (startTransfer (uplinkTake station f s))
      (clearNotices (settleLoop (uplinkTake station f s))) :=
    (clearNotices_only _).after ((settleLoss_only _).after ((startOutpulse_only _).mono (by decide)) (by decide))
      (by decide)
  exact ⟨last.sup, last.outs⟩

/-- A DATA frame for a holder is learned and queued, and goes to the modem at once where it may (R80, R81, R84). -/
theorem sup_uplinkTake (station : Nat) (f : LinkFrame) (calm : Calm s) :
    (finish (uplinkTake station f s)).sup.map = learn ((f.drop 6).take 6) station s.now s.sup.map ∧
    (s.sup.state ≠ .synced ∨ 32 ≤ s.sup.uplink.length →
      (finish (uplinkTake station f s)).sup.uplink = s.sup.uplink) ∧
    (s.sup.state = .synced → s.sup.uplink.length < 32 →
      if s.pins.sendOk = true ∧ s.sup.upTransfer = none then
        (finish (uplinkTake station f s)).sup.upTransfer = some f ∧
          (finish (uplinkTake station f s)).sup.uplink = [] ∧ .upstream f ∈ (finish (uplinkTake station f s)).outs
      else (finish (uplinkTake station f s)).sup.uplink = s.sup.uplink ++ [f] ∧
        (finish (uplinkTake station f s)).sup.upTransfer = s.sup.upTransfer) := by
  obtain ⟨sup, outs⟩ := finish_uplinkTake station f calm
  have settled := (Calm.rest calm).transfer
  rw [transferSettled] at settled
  rw [sup, outs]
  by_cases room : s.sup.state = .synced ∧ s.sup.uplink.length < 32
  · have queued : (uplinkTake station f s).sup.uplink = s.sup.uplink ++ [f] :=
      if_pos (by simp [room.1, room.2, Config.uplinkMax])
    cases free : decide (s.sup.state = .synced) && s.pins.sendOk && s.sup.upTransfer.isNone with
    | true =>
      have empty : s.sup.uplink = [] := by simpa [free] using settled
      rw [empty] at queued
      rw [startTransfer_begins queued free]
      simp only [Bool.and_eq_true, Option.isNone_iff_eq_none] at free
      refine ⟨rfl, fun full => ?_, fun _ _ => ?_⟩
      · rcases full with off | long
        · exact absurd room.1 off
        · omega
      · rw [if_pos ⟨free.1.2, free.2⟩]
        exact ⟨rfl, rfl, List.mem_append_right _ (List.mem_singleton.mpr rfl)⟩
    | false =>
      have waits : startTransfer (uplinkTake station f s) = uplinkTake station f s :=
        startTransfer_of (by
          have busy : (decide ((uplinkTake station f s).sup.state = .synced) && (uplinkTake station f s).pins.sendOk &&
            (uplinkTake station f s).sup.upTransfer.isNone) = false := free
          rw [transferSettled, busy]; simp)
      rw [waits, queued]
      refine ⟨rfl, fun full => ?_, fun _ _ => ?_⟩
      · rcases full with off | long
        · exact absurd room.1 off
        · omega
      · have busy : ¬(s.pins.sendOk = true ∧ s.sup.upTransfer = none) := fun ⟨ready, idle⟩ => by
          simp [room.1, ready, idle] at free
        rw [if_neg busy]
        exact ⟨rfl, rfl⟩
  · have unqueued : (uplinkTake station f s).sup.uplink = s.sup.uplink :=
      if_neg (by rw [Bool.and_eq_true, decide_eq_true_eq, decide_eq_true_eq]; exact room)
    have waits : startTransfer (uplinkTake station f s) = uplinkTake station f s :=
      startTransfer_of (by
        rw [transferSettled, unqueued]
        exact settled)
    rw [waits]
    exact ⟨rfl, fun _ => unqueued, fun synced short => absurd ⟨synced, short⟩ room⟩

end

/-- Settles O34. -/
theorem dataFrameRouted : Obligations.DataFrameRouted := by
  refine ⟨fun a station now m => ⟨learn_group, fun single short => ?_, fun single full => ?_⟩, ?_⟩
  · rw [learn_single single, if_pos short]
  · rw [learn_single single, if_neg (by omega)]
  · intro s h f start calm hear us fam roster
    have calm' := calm_heardNow start calm fam
    have run := exec_data f calm hear us fam
    obtain ⟨own, -⟩ := roster
    cases holding : s.holding with
    | false =>
      have out : dataFrame h.src h.dst f (heardNow h start s) = (heardNow h start s).emit (.packet f) :=
        if_neg (by rw [heardNow_holding, holding]; decide)
      refine answers_of run ?_
      rw [out, finish_packet f calm']
      exact ⟨fun _ => ⟨List.mem_append_right _ (List.mem_singleton.mpr rfl), rfl⟩, nofun, nofun⟩
    | true =>
      have here : dataFrame h.src h.dst f (heardNow h start s) =
          if h.dst = s.own then uplinkTake h.src f (heardNow h start s) else heardNow h start s :=
        if_pos (by rw [heardNow_holding, holding])
      refine answers_of run ?_
      rw [here]
      refine ⟨nofun, fun _ all => ?_, fun _ us => ?_⟩
      · rw [if_neg (by omega), finish_of_calm calm', heardNow_sup]
      · rw [if_pos us]
        exact sup_uplinkTake h.src f calm'

end Sys2Proof.Machine
end

section
/-! PROOFS. The line call record ends or loses a party (R11, R38, R40, R117 to R122): the CLEARs its parties are told
by, and the end of the command at a holder, degraded or not. -/

namespace Sys2Proof.Machine

open Sys2Proof

/-! ## The end of a command after which the known holder may be noted afresh -/

/-- The rules before the data head leave at most the known holder to note. -/
structure Noted (s : State) : Prop where
  eligible : s.eligibleNow = s.hold.eligible
  degraded : (s.holding && s.hold.degraded && s.call.record.isNone) = false
  holder : s.computeHolder = s.hold.known ∨ (s.holding = true ∧ s.hold.known.isSome = true)
  dropped : ∀ d ∈ s.wire.dropped, inert d = true

theorem settleHolder_noted {s : State}
    (h : s.computeHolder = s.hold.known ∨ (s.holding = true ∧ s.hold.known.isSome = true)) :
    settleHolder s = holderNoted s := by
  rcases h with same | ⟨holding, known⟩
  · rw [settleHolder_of same, holderNoted, same]
    rfl
  · exact settleHolder_holding holding known

theorem settleFirst_noted {s : State} (h : Noted s) : settleFirst s = clearNotices (holderNoted s) := by
  rw [settleFirst, settleEligible_of h.eligible, settleDegraded_of h.degraded, settleHolder_noted h.holder,
    settleNotices_inert (s := holderNoted s) fun d hd => droppedNotice_inert _ (h.dropped d hd)]

theorem finish_noted {s : State} (h : Noted s) : finish s = settleRest (clearNotices (holderNoted s)) := by
  rw [finish_eq, settleFirst_noted h]

theorem RestSettled.holderNoted {s : State} (h : Noted s) (r : RestSettled s) : RestSettled (holderNoted s) := by
  rcases h.holder with same | ⟨holding, -⟩
  · have e : Machine.holderNoted s = s := by rw [Machine.holderNoted, same]; rfl
    rw [e]; exact r
  · have reports : reportsSettled (Machine.holderNoted s) = true := by
      have old := r.reports
      have holding' : (Machine.holderNoted s).holding = true := holding
      rw [reportsSettled, holding, if_pos rfl] at old
      rw [reportsSettled, holding', if_pos rfl]
      exact old
    exact ⟨⟨r.head, r.conds, reports, r.offer, r.transfer, r.outpulse, r.loss, r.lamp, r.tones⟩, r.idle⟩

/-- Where the rest is settled too, the command ends with the known holder noted. -/
theorem finish_noted_settled {s : State} (h : Noted s) (r : RestSettled s) :
    finish s = clearNotices (Machine.holderNoted s) := by
  rw [finish_noted h, settleRest_of (r.holderNoted h).clearNotices]
  rfl

/-- A change of the calls alone, at a settled station that is not a degraded holder. -/
theorem Noted.setCall {s t : State} (calm : Calm s) (only : Only [.ports, .call] s t)
    (degraded : s.hold.degraded = false ∨ t.call.record.isSome = true) : Noted t := by
  have f := Calm.first calm
  rw [Only.portsCall only]
  refine ⟨f.eligible, ?_, ?_, by
    have none : (withPorts t.ports t.call s).wire.dropped = [] := Calm.dropped (s := s) calm
    simp [none]⟩
  · show (s.holding && s.hold.degraded && t.call.record.isNone) = false
    rcases degraded with no | some
    · rw [no, Bool.and_false, Bool.false_and]
    · rw [Option.isNone_eq_false_iff.mpr some, Bool.and_false]
  · cases hs : s.holding with
    | true => exact .inr ⟨hs, f.holder ▸ computeHolder_isSome_of_holding hs⟩
    | false =>
      refine .inl (Eq.trans ?_ f.holder)
      have away : (withPorts t.ports t.call s).holding = false := hs
      rw [State.computeHolder, State.computeHolder, candidates_eq, candidates_eq, hs, away]
      rfl

theorem Noted.offerControl {dst : Nat} {b : Body} {s : State} (h : Noted s) (hb : b ≠ .beacon) (hh : b ≠ .halt)
    (hi : inert b = true) : Noted (offerControl dst b s) := by
  have dropped := offerControl_dropped_inert (dst := dst) hb hh hi h.dropped
  rw [offerControl_eq dst s hb hh] at dropped ⊢
  exact ⟨h.eligible, h.degraded, h.holder, dropped⟩

/-! ## A party leaves (R117, R120) -/

theorem removeParty_record {st po : Nat} {s : State} {r : CallRecord} (hr : s.call.record = some r) :
    (removeParty st po s).call.record =
      if r.parties.all (isParty st po) then none
      else some { r with parties := r.parties.filter fun p => !isParty st po p } := by
  have gone : r.parties.all (isParty st po) = true ↔ (r.parties.filter fun p => !isParty st po p) = [] := by
    simp [List.filter_eq_nil_iff]
  rw [removeParty, State.modCall_call]
  simp only [hr, Option.bind_some]
  split
  · next none_left => rw [if_pos (gone.mpr none_left)]
  · next some_left => rw [if_neg fun all => some_left (gone.mp all)]

/-- The record ended leaves a settled station's later rules settled. -/
theorem RestSettled.endCall {s t : State} (h : RestSettled s) (only : Only [.call] s t)
    (ended : t.call.record = none) : RestSettled t := by
  have shape : t = withPorts s.ports t.call s := by
    have e := Only.portsCall (only.mono (ps := [.ports, .call]) (by decide))
    rwa [only.ports] at e
  have outpulse : outpulseSettled t = true := by rw [outpulseSettled, ended]
  have loss : lossSettled t = true := by rw [lossSettled, ended]
  rw [shape] at outpulse loss ⊢
  exact ⟨⟨h.head, h.conds, h.reports, h.offer, h.transfer, outpulse, loss, h.lamp, h.tones⟩, h.idle⟩

/-- A record whose parties alone change leaves a settled station's later rules settled. -/
theorem RestSettled.setParties {s t : State} {r : CallRecord} {ps : List Party} (h : RestSettled s)
    (only : Only [.call] s t) (hr : s.call.record = some r) (ht : t.call.record = some { r with parties := ps }) :
    RestSettled t := by
  have shape : t = withPorts s.ports t.call s := by
    have e := Only.portsCall (only.mono (ps := [.ports, .call]) (by decide))
    rwa [only.ports] at e
  have outpulse : outpulseSettled t = true := by
    have old := h.outpulse
    rw [outpulseSettled, hr] at old
    rw [outpulseSettled, ht]
    exact old
  have loss : lossSettled t = true := by
    have old := h.loss
    rw [lossSettled, hr] at old
    rw [lossSettled, ht, loopClosed_congr hr ht rfl, only.pins]
    exact old
  rw [shape] at outpulse loss ⊢
  exact ⟨⟨h.head, h.conds, h.reports, h.offer, h.transfer, outpulse, loss, h.lamp, h.tones⟩, h.idle⟩

theorem RestSettled.removeParty {s : State} {r : CallRecord} (h : RestSettled s) (st po : Nat)
    (hr : s.call.record = some r) : RestSettled (removeParty st po s) := by
  have record := removeParty_record (st := st) (po := po) hr
  split at record
  · exact h.endCall (removeParty_only _ _ _) record
  · exact h.setParties (removeParty_only _ _ _) hr record

theorem loopClosed_of_none {s : State} (h : s.call.record = none) : s.loopClosed = false := by
  rw [State.loopClosed, h]

/-! ## A LEAVE (R117) -/

section
variable {s : State} {h : Header} {m : RequestMsg} {start : Tick}

theorem exec_leave (calm : Calm s) (hear : Hearing s start) (us : ForUs s h) (fam : Familiar s h) :
    exec (.leave h m) s = .next (finish (takeLeave h.src m.port m.ref (heardNow h start s))) :=
  congrArg Host.Outcome.next (frame_forUs none _ calm hear us fam)

theorem takeLeave_taken {st po ref : Nat} {r : CallRecord} {s : State} (hr : s.call.record = some r)
    (holding : s.holding = true) (named : ref = 0 ∨ ref = r.id) :
    takeLeave st po ref s = removeParty st po s := by
  rw [takeLeave, hr]
  exact if_pos ⟨holding, named⟩

theorem takeLeave_ignored {st po ref : Nat} {s : State} (away : s.call.record = none ∨ s.holding = false ∨
    ∀ r, s.call.record = some r → ref ≠ 0 ∧ ref ≠ r.id) : takeLeave st po ref s = s := by
  unfold takeLeave
  split
  · next r hr =>
    rcases away with none | idle | other
    · rw [none] at hr; cases hr
    · exact if_neg fun e => by rw [idle] at e; exact Bool.false_ne_true e.1
    · obtain ⟨h0, hid⟩ := other r hr
      exact if_neg fun e => e.2.elim h0 hid
  · rfl

theorem leave_taken (calm : Calm s) (hear : Hearing s start) (us : ForUs s h) (fam : Familiar s h)
    (degraded : s.hold.degraded = false) :
    ∃ t, exec (.leave h m) s = .next t ∧
      (∀ r, s.call.record = some r → s.holding = true → m.ref = 0 ∨ m.ref = r.id →
        (if r.parties.all (fun p => decide (p.station = h.src) && decide (p.port = m.port)) then
          t.call.record = none ∧ t.loopClosed = false
        else (t.call.record.map (·.parties)) =
          some (r.parties.filter fun p => !(decide (p.station = h.src) && decide (p.port = m.port))))) ∧
      (s.call.record = none ∨ s.holding = false ∨
          (∀ r, s.call.record = some r → m.ref ≠ 0 ∧ m.ref ≠ r.id) → t.call = s.call) ∧
      t.wire.control = s.wire.control := by
  have calm' := calm_heardNow start calm fam
  refine ⟨_, exec_leave calm hear us fam, ?_⟩
  by_cases taken : ∃ r, s.call.record = some r ∧ s.holding = true ∧ (m.ref = 0 ∨ m.ref = r.id)
  · obtain ⟨r, record, holding, named⟩ := taken
    have record' : (heardNow h start s).call.record = some r := record
    rw [takeLeave_taken record' holding named, finish_noted_settled
      (.setCall calm' ((removeParty_only _ _ _).mono (by decide)) (.inl degraded))
      ((Calm.rest calm').removeParty _ _ record')]
    have only := removeParty_only h.src m.port (heardNow h start s)
    have left := removeParty_record (st := h.src) (po := m.port) record'
    refine ⟨fun q hq _ _ => ?_, fun ignored => ?_, ?_⟩
    · rw [record] at hq
      cases hq
      have call : (clearNotices (Machine.holderNoted (removeParty h.src m.port (heardNow h start s)))).call.record =
        (removeParty h.src m.port (heardNow h start s)).call.record := rfl
      have named_party : (fun p : Party => decide (p.station = h.src) && decide (p.port = m.port)) =
        isParty h.src m.port := rfl
      rw [named_party]
      by_cases all : r.parties.all (isParty h.src m.port) = true
      · rw [if_pos all] at left
        rw [if_pos all]
        exact ⟨call.trans left, loopClosed_of_none (call.trans left)⟩
      · rw [if_neg all] at left
        rw [if_neg all, call, left]
        rfl
    · rcases ignored with none | idle | other
      · rw [record] at none; cases none
      · rw [holding] at idle; cases idle
      · obtain ⟨h0, hid⟩ := other r record
        exact absurd named (not_or.mpr ⟨h0, hid⟩)
    · have control : (removeParty h.src m.port (heardNow h start s)).wire.control =
        (heardNow h start s).wire.control := congrArg Wire.control only.wire
      exact control
  · have ignored : (heardNow h start s).call.record = none ∨ (heardNow h start s).holding = false ∨
        ∀ r, (heardNow h start s).call.record = some r → m.ref ≠ 0 ∧ m.ref ≠ r.id := by
      rw [heardNow_call, heardNow_holding]
      by_cases holding : s.holding = true
      · exact .inr (.inr fun r hr => not_or.mp fun named => taken ⟨r, hr, holding, named⟩)
      · exact .inr (.inl (Bool.eq_false_iff.mpr holding))
    rw [takeLeave_ignored ignored, finish_of_calm calm']
    exact ⟨fun r hr holding named => absurd ⟨r, hr, holding, named⟩ taken, fun _ => rfl, rfl⟩

end

end Sys2Proof.Machine
end

section
/-! PROOFS. The CLEARs that tell a record's parties, and the end of the command at the holder that lost its record (R11,
R118 to R122). -/

namespace Sys2Proof.Machine

open Sys2Proof

/-! ## CLEARs to parties (R102, R120 to R122) -/

/-- A CLEAR that names a port's outside call clears the port (R102). -/
theorem takeClear_port {n : PortNo} {h id : Nat} (k : ClearCause) {s : State}
    (ref : (s.port n).callRef = some (.outside h id)) :
    (takeClear n id k s).port n = Port.clear s.now (some (.cleared k)) none (s.port n) := by
  rw [takeClear, ref]
  exact (congrArg _ (if_pos rfl)).trans (port_clearPort_same n s _ _)

theorem takeClear_port_away {m n : PortNo} (id : Nat) (k : ClearCause) {s : State}
    (away : m ≠ n ∨ (s.port n).callRef = none) : (takeClear m id k s).port n = s.port n := by
  unfold takeClear
  split
  · next h i ref =>
    split
    · rcases away with other | none
      · exact port_clearPort_other m s _ _ other.symm
      · by_cases same : m = n
        · rw [same, none] at ref; cases ref
        · exact port_clearPort_other m s _ _ (Ne.symm same)
    · rfl
  · rfl

theorem takeClear_record (m : PortNo) (id : Nat) (k : ClearCause) (s : State) :
    (takeClear m id k s).call.record = s.call.record := by
  unfold takeClear
  split
  · split <;> rfl
  · rfl

/-- Where a CLEAR to a party goes: into the station, to the port it names (R122). -/
def clearsAt (own st po : Nat) (n : PortNo) : Prop := st = own ∧ portOf po = some n

theorem sendClear_port {st po id : Nat} {k : ClearCause} {s : State} {n : PortNo} {h : Nat}
    (ref : (s.port n).callRef = some (.outside h id)) (here : clearsAt s.own st po n) :
    (sendClear st po id k s).port n = Port.clear s.now (some (.cleared k)) none (s.port n) := by
  obtain ⟨own, port⟩ := here
  rw [sendClear, if_pos own, port]
  exact takeClear_port k ref

theorem sendClear_port_away {st po id : Nat} {k : ClearCause} {s : State} {n : PortNo}
    (away : ¬clearsAt s.own st po n ∨ (s.port n).callRef = none) : (sendClear st po id k s).port n = s.port n := by
  unfold sendClear
  split
  · next own =>
    split
    · next m port =>
      refine takeClear_port_away id k ?_
      rcases away with other | none
      · exact .inl fun same => other ⟨own, by rw [port, same]⟩
      · exact .inr none
    · rfl
  · exact port_congr (offerControl_only _ _ _).ports n

/-- A CLEAR that names no call of a port leaves the port. -/
theorem sendClear_port_unnamed {st po id : Nat} {k : ClearCause} {s : State} {n : PortNo}
    (unnamed : ¬(clearsAt s.own st po n ∧ ∃ h, (s.port n).callRef = some (.outside h id))) :
    (sendClear st po id k s).port n = s.port n := by
  by_cases here : clearsAt s.own st po n
  · obtain ⟨own, port⟩ := here
    rw [sendClear, if_pos own, port]
    show (takeClear n id k s).port n = s.port n
    unfold takeClear
    split
    · next h i ref =>
      split
      · next same => exact absurd ⟨⟨own, port⟩, h, by rw [ref, same]⟩ unnamed
      · rfl
    · rfl
  · exact sendClear_port_away (.inl here)

theorem sendClear_record (st po id : Nat) (k : ClearCause) (s : State) :
    (sendClear st po id k s).call.record = s.call.record := by
  unfold sendClear
  split
  · split
    · exact takeClear_record _ _ _ _
    · rfl
  · rw [(offerControl_only _ _ _).call]

/-- The control queue once a CLEAR to a party was handed over or sent (R11, R122). -/
theorem sendClear_control {st po id : Nat} {k : ClearCause} {s : State} (awake : s.halted = false) :
    (sendClear st po id k s).wire.control =
      if st = s.own then s.wire.control
      else controlJoined s.wire.control (newEntry (some st) (.clear ⟨id, po, k⟩) s.now) := by
  unfold sendClear
  split
  · split
    · next m port =>
      rw [(takeClear_only m id k s).wire]
    · rfl
  · rw [offerControl_eq (b := .clear ⟨id, po, k⟩) st s nofun nofun]
    exact if_neg (by rw [awake]; decide)

/-- What a CLEAR to a party leaves of the wire controller: its data queue, and drops no block hears of. -/
theorem sendClear_wire {st po id : Nat} {k : ClearCause} {s : State}
    (inert_drops : ∀ d ∈ s.wire.dropped, inert d = true) :
    (sendClear st po id k s).wire.data = s.wire.data ∧
      ∀ d ∈ (sendClear st po id k s).wire.dropped, inert d = true := by
  unfold sendClear
  split
  · split
    · next m port =>
      rw [(takeClear_only m id k s).wire]
      exact ⟨rfl, inert_drops⟩
    · exact ⟨rfl, inert_drops⟩
  · refine ⟨?_, offerControl_dropped_inert (b := .clear ⟨id, po, k⟩) nofun nofun rfl inert_drops⟩
    rw [offerControl_eq (b := .clear ⟨id, po, k⟩) st s nofun nofun]
    rfl

/-- The parties of a record told with one cause, in the order of the list (R122). -/
def clearParties (id : Nat) (k : ClearCause) (l : List Party) (s : State) : State :=
  l.foldl (fun s p => sendClear p.station p.port id k s) s

theorem clearParties_only (id : Nat) (k : ClearCause) (l : List Party) (s : State) :
    Only [.wire, .ports, .call] s (clearParties id k l s) :=
  Only.foldl (f := fun t (p : Party) => sendClear p.station p.port id k t) (fun _ _ => sendClear_only _ _ _ _ _) l s

theorem clearParties_record (id : Nat) (k : ClearCause) (l : List Party) (s : State) :
    (clearParties id k l s).call.record = s.call.record :=
  foldl_read (f := fun t (p : Party) => sendClear p.station p.port id k t) (P := fun t : State => t.call.record)
    (fun _ _ => sendClear_record _ _ _ _ _) l s

theorem clearParties_port_away {id : Nat} {k : ClearCause} {n : PortNo} : ∀ {l : List Party} {s : State},
    (s.port n).callRef = none → (clearParties id k l s).port n = s.port n
  | [], _, _ => rfl
  | p :: l, s, free => by
    have first : (sendClear p.station p.port id k s).port n = s.port n := sendClear_port_away (.inr free)
    exact (clearParties_port_away (s := sendClear p.station p.port id k s) (by rw [first, free])).trans first

/-- A party at the station's own port has the port cleared (R102, R122). -/
theorem clearParties_port {id h : Nat} {k : ClearCause} {n : PortNo} {p : Party} : ∀ {l : List Party} {s : State},
    p ∈ l → clearsAt s.own p.station p.port n → (s.port n).callRef = some (.outside h id) →
      (clearParties id k l s).port n = Port.clear s.now (some (.cleared k)) none (s.port n)
  | [], _, listed, _, _ => nomatch listed
  | q :: l, s, listed, here, ref => by
    have only := sendClear_only q.station q.port id k s
    by_cases at_q : clearsAt s.own q.station q.port n
    · have cleared := sendClear_port (k := k) ref at_q
      refine (clearParties_port_away (s := sendClear q.station q.port id k s) ?_).trans cleared
      rw [cleared]; rfl
    · have kept := sendClear_port_away (id := id) (k := k) (Or.inl at_q)
      have later : p ∈ l := by
        rcases List.mem_cons.mp listed with rfl | tail
        · exact absurd here at_q
        · exact tail
      have rest := clearParties_port (s := sendClear q.station q.port id k s) (k := k) (h := h) later
        (by rwa [State.own, only.straps]) (by rw [kept, ref])
      rw [kept, only.now] at rest
      exact rest

/-- The CLEARs to other stations join the control queue in the order of the list (R11, R122). -/
theorem clearParties_control {id : Nat} {k : ClearCause} : ∀ {l : List Party} {s : State}, s.halted = false →
    (clearParties id k l s).wire.control = (l.filter fun p => decide (p.station ≠ s.own)).foldl
      (fun q p => controlJoined q (newEntry (some p.station) (.clear ⟨id, p.port, k⟩) s.now)) s.wire.control
  | [], _, _ => rfl
  | p :: l, s, awake => by
    have only := sendClear_only p.station p.port id k s
    have own : (sendClear p.station p.port id k s).own = s.own := by rw [State.own, State.own, only.straps]
    have rest := clearParties_control (id := id) (k := k) (l := l) (s := sendClear p.station p.port id k s)
      ((halted_congr (by rw [only.hold])).trans awake)
    rw [own, only.now, sendClear_control awake] at rest
    refine rest.trans ?_
    by_cases inside : p.station = s.own
    · simp [inside]
    · simp [inside]

theorem clearParties_wire {id : Nat} {k : ClearCause} : ∀ {l : List Party} {s : State},
    (∀ d ∈ s.wire.dropped, inert d = true) → (clearParties id k l s).wire.data = s.wire.data ∧
      ∀ d ∈ (clearParties id k l s).wire.dropped, inert d = true
  | [], _, h => ⟨rfl, h⟩
  | p :: l, s, h => by
    obtain ⟨data, dropped⟩ := sendClear_wire (st := p.station) (po := p.port) (id := id) (k := k) h
    obtain ⟨data', dropped'⟩ := clearParties_wire (id := id) (k := k) (l := l) dropped
    exact ⟨data'.trans data, dropped'⟩

/-- The record taken away (R122). -/
def dropRecord (s : State) : State := s.modCall fun c => { c with record := none }

theorem endRecord_some {k : ClearCause} {s : State} {r : CallRecord} (hr : s.call.record = some r) :
    endRecord (some k) s = clearParties r.id k r.parties (dropRecord s) := by
  rw [endRecord, hr]
  rfl

/-! ## The end of a command at a holder that lost its record -/

theorem eligibleNow_congr {s t : State} (straps : t.straps = s.straps) (power : t.power = s.power)
    (absent : t.cond .modemAbsent = s.cond .modemAbsent) (state : t.hold.state = s.hold.state) :
    t.eligibleNow = s.eligibleNow := by
  simp only [State.eligibleNow, State.full, State.halted, straps, power, absent, state]

theorem headSettled_congr {s t : State} (data : t.wire.data = s.wire.data) : headSettled t = headSettled s := by
  rw [headSettled, headSettled, data]

theorem staysUp_of_holding {s : State} (h : s.holding = true) : StaysUp s := by
  intro idle
  simp [State.idleHolds, h] at idle

/-- A call without a record stays without (R119, R124), and one with a record keeps its parties. -/
theorem settleRest_call (s : State) :
    (s.call.record = none → (settleRest s).call.record = none) ∧
      (settleRest s).call.record.map (·.parties) = s.call.record.map (·.parties) := by
  have before : ∀ t, (startTransfer (mailboxOffer (settleReports t))).call = t.call := fun t =>
    ((startTransfer_only _).call).trans (((mailboxOffer_only _).call).trans (settleReports_only _).call)
  have last : ∀ t, (settleRest t).call = (settleLater (settleMiddle t)).call := fun t =>
    (clearNotices_only _).call.trans (settleTones_only _).call
  have lamp : ∀ t, (settleLater t).call =
      (settleLoss (startOutpulse (startTransfer (mailboxOffer (settleReports t))))).call := fun t =>
    (settleLamp_only _).call
  rw [last, lamp]
  generalize hx : startTransfer (mailboxOffer (settleReports (settleMiddle s))) = x
  have call : x.call = s.call := by rw [← hx, before, (settleMiddle_only s).call]
  rw [← call]
  cases record : x.call.record with
  | none =>
    have ended : (settleLoss (startOutpulse x)).call.record = none := by
      have idle : (startOutpulse x) = x := by rw [startOutpulse, record]
      rw [idle]
      show x.call.record.map _ = none
      rw [record]; rfl
    rw [ended]
    exact ⟨fun _ => rfl, rfl⟩
  | some r =>
    rw [settleLoss_record (startOutpulse_record record)]
    refine ⟨nofun, ?_⟩
    have parties : (r.started x.now).parties = r.parties := by
      unfold CallRecord.started
      split
      · split <;> rfl
      · rfl
    exact congrArg some parties

/-- At a holder with a settled data head no rule after the notices touches the wire controller but to hand its notices
on. -/
theorem settleRest_holder {s : State} (holding : s.holding = true) (head : headSettled s = true) :
    (settleRest s).wire = { s.wire with dropped := [] } := by
  have middle : settleMiddle s = (settleConds s).modPower fun p =>
      { p with idle := if s.idleHolds then some (p.idle.getD s.now) else none } := by
    rw [settleMiddle_staysUp (staysUp_of_holding holding), settleDataHead_of head]
  have conds : Only [.power, .fault, .report] s (settleMiddle s) := by
    rw [middle]
    exact (State.modPower_only _ _).after ((settleConds_only s).mono (by decide)) (by decide)
  have still : (settleMiddle s).holding = true := by
    have hold := conds.hold
    rw [State.holding, hold]
    exact holding
  have reports : settleReports (settleMiddle s) = takeIn (settleMiddle s) := if_pos still
  have later : Only [.sup, .call, .fault, .report, .outs] (settleMiddle s) (settleLater (settleMiddle s)) := by
    rw [settleLater, reports]
    exact (settleLamp_only _).after ((settleLoss_only _).after ((startOutpulse_only _).after
      ((startTransfer_only _).after ((mailboxOffer_only _).after ((takeIn_only _).mono (by decide)) (by decide))
        (by decide)) (by decide)) (by decide)) (by decide)
  have wire : (settleTones (settleLater (settleMiddle s))).wire = s.wire :=
    ((settleTones_only _).wire).trans (later.wire.trans conds.wire)
  show { (settleTones (settleLater (settleMiddle s))).wire with dropped := [] } = _
  rw [wire]

end Sys2Proof.Machine
end

section
/-! PROOFS. A failed seize, a far-end clear and a party that has fallen silent (R118 to R120, R122, R134). -/

namespace Sys2Proof.Machine

open Sys2Proof

/-- The record of a holder ended with a cause: the parties told, the loop open (R122). -/
theorem finish_endRecord {s : State} {r : CallRecord} {k : ClearCause} (h : HolderSettled s)
    (head : headSettled s = true) (degraded : s.hold.degraded = false) (hr : s.call.record = some r) :
    (finish (endRecord (some k) s)).call.record = none ∧ (finish (endRecord (some k) s)).loopClosed = false ∧
      PartiesTold r k s (finish (endRecord (some k) s)) ∧
      (finish (endRecord (some k) s)).cond .lineDead = s.cond .lineDead := by
  rw [endRecord_some hr]
  have only : Only [.wire, .ports, .call] s (clearParties r.id k r.parties (dropRecord s)) :=
    (clearParties_only _ _ _ _).after ((State.modCall_only _ _).mono (by decide)) (by decide)
  have record : (clearParties r.id k r.parties (dropRecord s)).call.record = none := clearParties_record _ _ _ _
  have awake : (dropRecord s).halted = false := by
    have state := holding_iff.mp h.holding
    show decide (s.hold.state = .halted) = false
    rw [state]; rfl
  have control := clearParties_control (id := r.id) (k := k) (l := r.parties) awake
  obtain ⟨data, dropped⟩ := clearParties_wire (id := r.id) (k := k) (l := r.parties) (s := dropRecord s) h.dropped
  have cleared : ∀ p ∈ r.parties, ∀ n, p.station = s.own → p.port = portNo n →
      (s.port n).callRef = some (.outside s.own r.id) →
      (clearParties r.id k r.parties (dropRecord s)).port n = Port.clear s.now (some (.cleared k)) none (s.port n) :=
    fun p hp n own port ref =>
      clearParties_port (s := dropRecord s) hp ⟨own, by rw [port, portOf_portNo]⟩ ref
  generalize clearParties r.id k r.parties (dropRecord s) = v at *
  have holding : v.holding = true := by rw [State.holding, only.hold]; exact h.holding
  have noted : Noted v :=
    ⟨(eligibleNow_congr only.straps only.power (by rw [State.cond, only.fault]; rfl) (by rw [only.hold])).trans
        (h.eligible.trans (by rw [only.hold])),
      by rw [only.hold, degraded, Bool.and_false, Bool.false_and],
      .inr ⟨holding, by rw [only.hold]; exact h.known⟩, dropped⟩
  have head' : headSettled (clearNotices (holderNoted v)) = true := (headSettled_congr (s := s) data).trans head
  have holding' : (clearNotices (holderNoted v)).holding = true := holding
  have ended := (settleRest_call (clearNotices (holderNoted v))).1 record
  rw [finish_noted noted]
  refine ⟨ended, loopClosed_of_none ended, ⟨?_, fun p hp n own port ref => ?_⟩, ?_⟩
  · rw [settleRest_holder holding' head']
    exact control
  · have at_end : (clearNotices (holderNoted v)).port n = Port.clear s.now (some (.cleared k)) none (s.port n) :=
      cleared p hp n own port ref
    rw [settleRest_port_of_tone (by rw [at_end]; nofun) (by rw [at_end]; nofun), at_end]
    exact ⟨rfl, rfl, rfl, rfl, rfl⟩
  · rw [settleRest_cond (staysUp_of_holding holding'), settleDataHead_of head']
    show (v.holding && v.cond .lineDead) = s.cond .lineDead
    rw [holding, Bool.true_and, State.cond, only.fault]
    rfl

/-- A condition written at a holder, other than that of an absent modem, leaves what its first rules read. -/
theorem HolderSettled.setCond {s : State} {c : Cond} (h : HolderSettled s) (b : Bool) (other : c ≠ .modemAbsent) :
    HolderSettled (setCond c b s) := by
  have only := setCond_only c b s
  exact ⟨(eligibleNow_congr only.straps only.power (setCond_cond_other b s other.symm) (by rw [only.hold])).trans
      (h.eligible.trans (by rw [only.hold])),
    by rw [only.hold, only.call]; exact h.degraded, by rw [State.holding, only.hold]; exact h.holding,
    by rw [only.hold]; exact h.known, by rw [only.wire]; exact h.dropped⟩

theorem holding_of_recordOk {s : State} {r : CallRecord} (ok : RecordOk s) (hr : s.call.record = some r) :
    s.holding = true := by
  obtain ⟨-, bounds⟩ := ok
  exact holding_iff.mpr (bounds r hr).1

/-- The parties are told alike at two states that agree in their clock, their queue and their ports. -/
theorem partiesTold_congr {r : CallRecord} {k : ClearCause} {s s' t : State} (h : PartiesTold r k s' t)
    (straps : s'.straps = s.straps) (now : s'.now = s.now) (wire : s'.wire = s.wire) (ports : s'.ports = s.ports) :
    PartiesTold r k s t := by
  have own : s'.own = s.own := by rw [State.own, State.own, straps]
  obtain ⟨control, told⟩ := h
  rw [own, now, wire] at control
  refine ⟨control, fun p hp n inside port ref => ?_⟩
  exact told p hp n (inside.trans own.symm) port (by rw [port_congr ports, own]; exact ref)

theorem exec_seizeTimeout {s : State} {r : CallRecord} {x : Tick} (calm : Calm s) (hr : s.call.record = some r)
    (seize : r.seize = some x) (late : 40000 ≤ elapsed s.now x) :
    exec .seizeTimeout s = .next (finish (endRecord (some .lineFault) (setCond .lineDead true s.quiet))) := by
  have due : dueSeize s.quiet = true := by
    rw [dueSeize, State.quiet_call, hr]
    simp only [seize, timerOut]
    exact decide_eq_true late
  have out : Machine.seizeTimeout s.quiet = endRecord (some .lineFault) (setCond .lineDead true s.quiet) := if_pos due
  exact congrArg Host.Outcome.next ((running_active (Calm.active calm)).trans (congrArg finish out))

theorem exec_lossTimeout {s : State} {r : CallRecord} {x : Tick} (calm : Calm s) (hr : s.call.record = some r)
    (loss : r.loss = some x) (late : 16000 ≤ elapsed s.now x) :
    exec .lossTimeout s = .next (finish (endRecord (some .farEnd) s.quiet)) := by
  have due : dueLoss s.quiet = true := by
    rw [dueLoss, State.quiet_call, hr]
    simp only [loss, timerOut]
    exact decide_eq_true late
  have out : Machine.lossTimeout s.quiet = endRecord (some .farEnd) s.quiet := if_pos due
  exact congrArg Host.Outcome.next ((running_active (Calm.active calm)).trans (congrArg finish out))

theorem timeouts_taken {s : State} {r : CallRecord} {x : Tick} (calm : Calm s) (hr : s.call.record = some r)
    (ok : RecordOk s) (degraded : s.hold.degraded = false) :
    (r.seize = some x → 40000 ≤ elapsed s.now x → Answers .seizeTimeout s fun t =>
      t.call.record = none ∧ t.loopClosed = false ∧ t.cond .lineDead = true ∧ PartiesTold r .lineFault s t) ∧
    (r.loss = some x → 16000 ≤ elapsed s.now x → Answers .lossTimeout s fun t =>
      t.call.record = none ∧ t.loopClosed = false ∧ PartiesTold r .farEnd s t) := by
  have holder : HolderSettled s.quiet := Calm.holderSettled (Calm.quiet calm) (holding_of_recordOk ok hr)
  have head : headSettled s.quiet = true := (Calm.rest calm).head
  refine ⟨fun seize late => ?_, fun loss late => ?_⟩
  · have only := setCond_only .lineDead true s.quiet
    obtain ⟨record, loop, told, dead⟩ := finish_endRecord (k := .lineFault) (holder.setCond (c := .lineDead) true nofun)
      ((headSettled_congr (by rw [only.wire])).trans head) (by rw [only.hold]; exact degraded)
      (show (setCond .lineDead true s.quiet).call.record = some r by rw [only.call]; exact hr)
    refine answers_of (exec_seizeTimeout calm hr seize late) ⟨record, loop, dead.trans (setCond_cond_same _ _ _), ?_⟩
    exact partiesTold_congr told only.straps only.now only.wire only.ports
  · obtain ⟨record, loop, told, -⟩ := finish_endRecord (s := s.quiet) (k := .farEnd) holder head degraded hr
    exact answers_of (exec_lossTimeout calm hr loss late) ⟨record, loop, partiesTold_congr told rfl rfl rfl rfl⟩

/-! ## A party falls silent (R120, R122) -/

section
variable {s : State} {r : CallRecord} {p : Party}

/-- The station once a party has been removed for silence, before its CLEAR (R120). -/
def silenced (p : Party) (s : State) : State := removeParty p.station p.port s.quiet

theorem silenced_only (p : Party) (s : State) : Only [.call] s.quiet (silenced p s) := removeParty_only _ _ _

theorem exec_partySilence (calm : Calm s) (hr : s.call.record = some r) (hp : p ∈ r.parties)
    (late : 40000 ≤ elapsed s.now p.silence) :
    exec (.partySilenceTimeout p.station p.port) s =
      .next (finish (sendClear p.station p.port r.id .partyLimit (silenced p s))) := by
  have due : duePartySilence p.station p.port s.quiet = true := by
    rw [duePartySilence, State.quiet_call, hr]
    refine List.any_eq_true.mpr ⟨p, hp, ?_⟩
    simp only [isParty, decide_true, Bool.true_and]
    exact decide_eq_true late
  have out : Machine.partySilence p.station p.port s.quiet =
      sendClear p.station p.port r.id .partyLimit (silenced p s) := by
    rw [Machine.partySilence, State.quiet_call, hr]
    exact if_pos due
  exact congrArg Host.Outcome.next ((running_active (Calm.active calm)).trans (congrArg finish out))

theorem noted_silenced (calm : Calm s) (degraded : s.hold.degraded = false) : Noted (silenced p s) :=
  .setCall (Calm.quiet calm) ((silenced_only p s).mono (by decide)) (.inl degraded)

theorem restSettled_silenced (calm : Calm s) (hr : s.call.record = some r) : RestSettled (silenced p s) :=
  (Calm.rest (Calm.quiet calm)).removeParty _ _ hr

theorem sendClear_inside {st po id : Nat} {k : ClearCause} (inside : st = s.own) :
    Only [.ports, .call] s (sendClear st po id k s) := by
  rw [sendClear, if_pos inside]
  split
  · exact takeClear_only _ _ _ _
  · exact Only.refl _ _

theorem sendClear_outside {st po id : Nat} {k : ClearCause} (outside : st ≠ s.own) :
    sendClear st po id k s = offerControl st (.clear ⟨id, po, k⟩) s := if_neg outside

theorem noted_partySilence (calm : Calm s) (degraded : s.hold.degraded = false) :
    Noted (sendClear p.station p.port r.id .partyLimit (silenced p s)) := by
  by_cases inside : p.station = (silenced p s).own
  · have only : Only [.ports, .call] s.quiet (sendClear p.station p.port r.id .partyLimit (silenced p s)) :=
      (sendClear_inside inside).after ((silenced_only p s).mono (by decide)) (by decide)
    exact .setCall (Calm.quiet calm) only (.inl degraded)
  · rw [sendClear_outside inside]
    exact (noted_silenced calm degraded).offerControl (b := .clear ⟨r.id, p.port, .partyLimit⟩) nofun nofun rfl

/-- The record after a party fell silent (R120). -/
theorem record_partySilence (calm : Calm s) (hr : s.call.record = some r) (degraded : s.hold.degraded = false) :
    if r.parties.all (fun q => decide (q.station = p.station) && decide (q.port = p.port)) then
      (finish (sendClear p.station p.port r.id .partyLimit (silenced p s))).call.record = none
    else ((finish (sendClear p.station p.port r.id .partyLimit (silenced p s))).call.record.map (·.parties)) =
      some (r.parties.filter fun q => !(decide (q.station = p.station) && decide (q.port = p.port))) := by
  have rest := settleRest_call (clearNotices (holderNoted (sendClear p.station p.port r.id .partyLimit (silenced p s))))
  have call : (clearNotices (holderNoted (sendClear p.station p.port r.id .partyLimit (silenced p s)))).call.record =
    (silenced p s).call.record := sendClear_record _ _ _ _ _
  have left : (silenced p s).call.record = _ := removeParty_record (s := s.quiet) hr
  have named_party : (fun q : Party => decide (q.station = p.station) && decide (q.port = p.port)) =
    isParty p.station p.port := rfl
  rw [call, left] at rest
  rw [finish_noted (noted_partySilence calm degraded), named_party]
  split
  · next all =>
    rw [if_pos all] at rest
    exact rest.1 rfl
  · next some =>
    rw [if_neg some] at rest
    exact rest.2

/-- A silent party of another station is sent a CLEAR (R120). -/
theorem partySilence_outside (calm : Calm s) (hr : s.call.record = some r) (degraded : s.hold.degraded = false)
    (outside : p.station ≠ s.own) : FrameHanded p.station (.clear ⟨r.id, p.port, .partyLimit⟩) s
      (finish (sendClear p.station p.port r.id .partyLimit (silenced p s))) := by
  have only := silenced_only p s
  have noted := noted_partySilence (r := r) (p := p) calm degraded
  have outside' : p.station ≠ (silenced p s).own := by rw [State.own, only.straps]; exact outside
  rw [sendClear_outside outside'] at noted ⊢
  rw [finish_noted_settled noted ((restSettled_silenced calm hr).offerControl (b := .clear ⟨r.id, p.port, .partyLimit⟩)
    nofun nofun)]
  exact frameHanded_offerControl (b := .clear ⟨r.id, p.port, .partyLimit⟩) (t := silenced p s) nofun nofun
    (by rw [only.wire]; rfl) (halted_congr (by rw [only.hold]; rfl)) only.now

/-- A port with an outside call is connected. -/
theorem connected_of_callRef {q : Port} (ok : portOk q = true) {c : CallRef} (ref : q.callRef = some c) :
    q.state = .connected := by
  by_contra away
  rw [portOk_callRef ok away] at ref
  cases ref

/-- A silent party at a port of the station itself has the port cleared, without a frame (R120, R122). -/
theorem partySilence_inside (calm : Calm s) (hr : s.call.record = some r) (degraded : s.hold.degraded = false)
    (inside : p.station = s.own) (ok : PortsOk s) :
    OwnPartyCleared p r.id .partyLimit s (finish (sendClear p.station p.port r.id .partyLimit (silenced p s))) ∧
      (finish (sendClear p.station p.port r.id .partyLimit (silenced p s))).wire.control = s.wire.control := by
  have only := silenced_only p s
  have own : (silenced p s).own = s.own := by rw [State.own, only.straps]; rfl
  have before : ∀ n, (silenced p s).port n = s.port n := fun n => port_congr only.ports n
  have inside' : p.station = (silenced p s).own := inside.trans own.symm
  have cleared := sendClear_inside (po := p.port) (id := r.id) (k := .partyLimit) inside'
  have kept : ∀ n, PortKept ((silenced p s).port n)
      ((sendClear p.station p.port r.id .partyLimit (silenced p s)).port n) := by
    intro n
    by_cases named : clearsAt (silenced p s).own p.station p.port n ∧
        ∃ h, ((silenced p s).port n).callRef = some (.outside h r.id)
    · obtain ⟨here, h, ref⟩ := named
      have okPort : portOk ((silenced p s).port n) = true := by rw [before]; exact portsOk_port ok n
      rw [sendClear_port ref here]
      exact portKept_clear _ _ _ okPort (by rw [connected_of_callRef okPort ref]; nofun)
    · rw [sendClear_port_unnamed named]
      exact PortKept.refl _
  have settled := (restSettled_silenced (p := p) calm hr).keepPorts cleared kept (sendClear_record _ _ _ _ _)
  rw [finish_noted_settled (noted_partySilence calm degraded) settled]
  refine ⟨fun n _ port ref => ?_, ?_⟩
  · have here : clearsAt (silenced p s).own p.station p.port n := ⟨inside', by rw [port, portOf_portNo]⟩
    have ref' : ((silenced p s).port n).callRef = some (.outside s.own r.id) := by rw [before]; exact ref
    have ended : (clearNotices (holderNoted (sendClear p.station p.port r.id .partyLimit (silenced p s)))).port n =
        Port.clear (silenced p s).now (some (.cleared .partyLimit)) none ((silenced p s).port n) :=
      sendClear_port ref' here
    rw [ended]
    exact ⟨rfl, rfl, rfl, rfl, rfl⟩
  · have wire : (sendClear p.station p.port r.id .partyLimit (silenced p s)).wire = s.wire :=
      cleared.wire.trans only.wire
    show (sendClear p.station p.port r.id .partyLimit (silenced p s)).wire.control = _
    rw [wire]

end

end Sys2Proof.Machine
end

section
/-! PROOFS. A degraded holder that loses its record yields (R38, R40): the queue with its CLEARs and its YIELD, and the
end of the command (R11, R122). -/

namespace Sys2Proof.Machine

open Sys2Proof

/-! ## What stays in the control queue (R11) -/

theorem mem_controlJoined {q : List TxEntry} {e x : TxEntry} (hx : x ∈ q) (body : x.body ≠ .beacon) :
    x ∈ controlJoined q e := by
  unfold controlJoined
  dsimp only
  split
  · exact List.mem_append_left _ hx
  · split
    · refine List.mem_append_left _ ((List.mem_eraseP_of_neg ?_).mpr hx)
      simp [body]
    · exact hx

theorem controlJoined_room {q : List TxEntry} (e : TxEntry) (room : q.length < 8) : controlJoined q e = q ++ [e] :=
  if_pos room

theorem length_controlJoined (q : List TxEntry) (e : TxEntry) : (controlJoined q e).length ≤ q.length + 1 := by
  unfold controlJoined
  dsimp only
  split
  · simp
  · split
    · have shorter := List.length_eraseP_le (p := fun f : TxEntry => !f.inTx && decide (f.body = .beacon)) (l := q)
      rw [List.length_append, List.length_singleton]
      omega
    · omega

theorem length_sendClear {st po id : Nat} {k : ClearCause} {s : State} (awake : s.halted = false) :
    (sendClear st po id k s).wire.control.length ≤ s.wire.control.length + 1 := by
  rw [sendClear_control awake]
  split
  · omega
  · exact length_controlJoined _ _

theorem sendClear_keeps {st po id : Nat} {k : ClearCause} {s : State} {x : TxEntry} (awake : s.halted = false)
    (hx : x ∈ s.wire.control) (body : x.body ≠ .beacon) : x ∈ (sendClear st po id k s).wire.control := by
  rw [sendClear_control awake]
  split
  · exact hx
  · exact mem_controlJoined hx body

theorem sendClear_awake {st po id : Nat} {k : ClearCause} {s : State} (awake : s.halted = false) :
    (sendClear st po id k s).halted = false :=
  (halted_congr (by rw [(sendClear_only _ _ _ _ _).hold])).trans awake

theorem length_clearParties {id : Nat} {k : ClearCause} : ∀ {l : List Party} {s : State}, s.halted = false →
    (clearParties id k l s).wire.control.length ≤ s.wire.control.length + l.length
  | [], _, _ => Nat.le_refl _
  | p :: l, s, awake => by
    have first := length_sendClear (st := p.station) (po := p.port) (id := id) (k := k) awake
    have rest := length_clearParties (id := id) (k := k) (l := l)
      (sendClear_awake (st := p.station) (po := p.port) (id := id) (k := k) awake)
    rw [List.length_cons]
    exact rest.trans (by omega)

theorem clearParties_keeps {id : Nat} {k : ClearCause} {x : TxEntry} (body : x.body ≠ .beacon) :
    ∀ {l : List Party} {s : State}, s.halted = false → x ∈ s.wire.control →
      x ∈ (clearParties id k l s).wire.control
  | [], _, _, hx => hx
  | p :: l, s, awake, hx =>
    clearParties_keeps (l := l) (s := sendClear p.station p.port id k s) body (sendClear_awake awake)
      (sendClear_keeps awake hx body)

/-- Where there is room for all, every party of another station has its CLEAR in the control queue (R11, R122). -/
theorem mem_clearParties {id : Nat} {k : ClearCause} {p : Party} : ∀ {l : List Party} {s : State},
    s.halted = false → s.wire.control.length + l.length ≤ 8 → p ∈ l → p.station ≠ s.own →
      newEntry (some p.station) (.clear ⟨id, p.port, k⟩) s.now ∈ (clearParties id k l s).wire.control
  | [], _, _, _, listed, _ => nomatch listed
  | q :: l, s, awake, room, listed, outside => by
    rw [List.length_cons] at room
    have only := sendClear_only q.station q.port id k s
    have awake' := sendClear_awake (st := q.station) (po := q.port) (id := id) (k := k) awake
    rcases List.mem_cons.mp listed with rfl | tail
    · refine clearParties_keeps (l := l) (s := sendClear p.station p.port id k s)
        (x := newEntry (some p.station) (.clear ⟨id, p.port, k⟩) s.now) nofun awake' ?_
      rw [sendClear_control awake, if_neg outside, controlJoined_room _ (by omega)]
      exact List.mem_append_right _ (List.mem_singleton.mpr rfl)
    · have shorter := length_sendClear (st := q.station) (po := q.port) (id := id) (k := k) awake
      have rest := mem_clearParties (id := id) (k := k) awake' (by omega) tail
        (by rw [State.own, only.straps]; exact outside)
      rw [only.now] at rest
      exact rest

/-! ## Entry to YIELDING (R40) -/

/-- The holder's neighbours once it leaves a line without a record (R40, R75, R161). -/
theorem leaveHolding_read {s : State} (record : s.call.record = none) :
    Only [.sup, .fault, .report, .outs] s (leaveHolding none s) ∧ (leaveHolding none s).sup.state = .off ∧
      (leaveHolding none s).report.queue = [] := by
  have ended : endRecord none s = s := by rw [endRecord, record]
  refine ⟨?_, rfl, rfl⟩
  rw [leaveHolding, ended]
  exact (leaveReports_only _).after ((State.modFault_only _ _).after ((State.modSup_only _ _).after
    ((abortTest_only _).after ((goOff_only s).mono (by decide)) (by decide)) (by decide)) (by decide)) (by decide)

/-- A holder whose record is gone, degraded, with room for its YIELD, and nothing else for the first rules to do. -/
structure Degraded (s : State) : Prop where
  eligible : s.eligibleNow = s.hold.eligible
  holding : s.holding = true
  degraded : s.hold.degraded = true
  record : s.call.record = none
  known : s.hold.known.isSome = true
  head : headSettled s = true
  dropped : ∀ d ∈ s.wire.dropped, inert d = true
  room : s.wire.control.length < 8

/-- What a degraded holder has become at the end of the command. -/
structure Yielded (s t : State) : Prop where
  record : t.call.record = none
  state : t.hold.state = .yielding
  degraded : t.hold.degraded = false
  off : t.sup.state = .off
  queue : t.report.queue = []
  sent : newEntry (some 0) .yield s.now ∈ t.wire.control
  kept : ∀ e ∈ s.wire.control, e.body ≠ .beacon → e ∈ t.wire.control
  ports : ∀ n, (s.port n).tone ≠ .dial → (s.port n).tone ≠ .stutter → t.port n = s.port n

/-- In YIELDING a change of a known holder is noted, with NO_HOLDER's timing (R28, R29). -/
theorem settleHolder_yielding {s : State} (state : s.hold.state = .yielding) (known : s.hold.known.isSome = true) :
    ∃ k x, settleHolder s = s.modHold fun h => { h with known := k, noHolder := x } := by
  unfold settleHolder
  split
  · exact ⟨s.hold.known, s.hold.noHolder, rfl⟩
  · obtain ⟨a, ha⟩ := Option.isSome_iff_exists.mp known
    rw [ha]
    cases new : s.computeHolder with
    | none =>
      refine ⟨none, some s.now, ?_⟩
      simp only [holderTiming, holderRules, State.modHold, state]
    | some b =>
      refine ⟨some b, s.hold.noHolder, ?_⟩
      simp only [holderTiming, holderRules, State.modHold, state]

theorem sendReport_queue (s : State) : (sendReport s).report.queue = s.report.queue := by
  unfold sendReport
  split
  · split
    · split
      · rw [(offerControl_only _ _ _).report]
        rfl
      · rfl
    · rfl
  · rfl

theorem offerControl_keeps {dst : Nat} {b : Body} {s : State} {x : TxEntry} (hb : b ≠ .beacon) (hh : b ≠ .halt)
    (hx : x ∈ s.wire.control) (body : x.body ≠ .beacon) : x ∈ (offerControl dst b s).wire.control := by
  rw [offerControl_eq dst s hb hh]
  show x ∈ if s.halted then s.wire.control else controlJoined s.wire.control (newEntry (some dst) b s.now)
  split
  · exact hx
  · exact mem_controlJoined hx body

theorem sendReport_keeps {s : State} {x : TxEntry} (hx : x ∈ s.wire.control) (body : x.body ≠ .beacon) :
    x ∈ (sendReport s).wire.control := by
  unfold sendReport
  split
  · split
    · split
      · next r _ => exact offerControl_keeps (b := .report (asSent r)) nofun nofun hx body
      · exact hx
    · exact hx
  · exact hx

theorem clearNotices_control (s : State) : (clearNotices s).wire.control = s.wire.control := rfl

/-- The rules after the notices at a YIELDING station whose modem is off and whose report queue is empty. -/
theorem settleRest_yielding {s : State} (state : s.hold.state = .yielding) (head : headSettled s = true)
    (off : s.sup.state = .off) (queue : s.report.queue = []) (record : s.call.record = none) :
    (settleRest s).call.record = none ∧ (settleRest s).hold = s.hold ∧ (settleRest s).sup.state = .off ∧
      (settleRest s).report.queue = [] ∧
      ∀ e ∈ s.wire.control, e.body ≠ .beacon → e ∈ (settleRest s).wire.control := by
  have away : s.holding = false := by simp [State.holding, state]
  have up : StaysUp s := fun idle => by simp [State.idleHolds, state] at idle
  have middle : settleMiddle s = (settleConds s).modPower fun p =>
      { p with idle := if s.idleHolds then some (p.idle.getD s.now) else none } := by
    rw [settleMiddle_staysUp up, settleDataHead_of head]
  have conds : Only [.power, .fault, .report] s (settleMiddle s) := by
    rw [middle]
    exact (State.modPower_only _ _).after ((settleConds_only s).mono (by decide)) (by decide)
  have queue' : (settleMiddle s).report.queue = [] := by
    obtain ⟨r, l, q, e, same⟩ := settleConds_shape s
    rw [middle, State.modPower_report, e]
    exact (same away).trans queue
  have sends : settleReports (settleMiddle s) = sendReport (settleMiddle s) :=
    if_neg (by rw [State.holding, conds.hold]; simp [state])
  have empty : (sendReport (settleMiddle s)).report.queue = [] := (sendReport_queue _).trans queue'
  have sup : (sendReport (settleMiddle s)).sup = s.sup := (sendReport_only _).sup.trans conds.sup
  have later : settleLater (settleMiddle s) =
      settleLamp (settleLoss (startOutpulse (sendReport (settleMiddle s)))) := by
    rw [settleLater, sends, mailboxOffer_of (by rw [offerSettled, empty]; rfl),
      startTransfer_of (by rw [transferSettled, sup, off]; simp)]
  have tail : Only [.ports, .call, .fault] (sendReport (settleMiddle s))
      (settleTones (settleLater (settleMiddle s))) := by
    rw [later]
    exact (settleTones_only _).after ((settleLamp_only _).after ((settleLoss_only _).after
      ((startOutpulse_only _).mono (by decide)) (by decide)) (by decide)) (by decide)
  refine ⟨(settleRest_call s).1 record, (settleRest_only up).hold, ?_, ?_, fun e he body => ?_⟩
  · have last : (settleRest s).sup = (settleTones (settleLater (settleMiddle s))).sup := (clearNotices_only _).sup
    rw [last, tail.sup, sup, off]
  · have last : (settleRest s).report = (settleTones (settleLater (settleMiddle s))).report :=
      (clearNotices_only _).report
    rw [last, tail.report, empty]
  · rw [settleRest, clearNotices_control, tail.wire]
    exact sendReport_keeps (by rw [conds.wire]; exact he) body

/-- The station as it leaves the line for YIELDING, its YIELD not yet offered (R40). -/
def leftLine (s : State) : State :=
  (leaveHolding none s).modHold fun q => { q with state := .yielding, degraded := false }

/-- Entry to YIELDING without a record, where the YIELD has room (R11, R40). -/
theorem enterYielding_eq {s : State} (record : s.call.record = none) (room : s.wire.control.length < 8) :
    enterYielding none s = (leftLine s).modWire fun w =>
      { w with control := s.wire.control ++ [newEntry (some 0) .yield s.now] } := by
  obtain ⟨leaves, -, -⟩ := leaveHolding_read record
  have wire : (leftLine s).wire = s.wire := leaves.wire
  have now : (leftLine s).now = s.now := leaves.now
  have awake : (leftLine s).halted = false := rfl
  have drops : controlDrops (leftLine s) .yield = [] := by
    rw [controlDrops, awake, if_neg (by decide), wire, if_pos room]
  have offered : enterYielding none s = offerControl 0 .yield (leftLine s) := rfl
  rw [offered, offerControl_eq (b := .yield) 0 (leftLine s) nofun nofun, drops, awake, now]
  simp only [State.modWire, wire, controlJoined_room _ room, List.append_nil, Bool.false_eq_true, if_false]

/-- A degraded holder without a record yields, and its YIELD joins what its control queue holds (R38, R40). -/
theorem finish_yields {s : State} (h : Degraded s) : Yielded s (finish s) := by
  obtain ⟨leaves, off, queue⟩ := leaveHolding_read h.record
  have degraded : (s.holding && s.hold.degraded && s.call.record.isNone) = true := by
    rw [h.holding, h.degraded, h.record]; rfl
  have yields : settleDegraded s = enterYielding none s := if_pos degraded
  have entered := enterYielding_eq h.record h.room
  obtain ⟨k, x, noted⟩ := settleHolder_yielding (s := enterYielding none s) (by rw [entered]; rfl)
    (by rw [entered]
        show (leaveHolding none s).hold.known.isSome = true
        rw [leaves.hold]; exact h.known)
  have inert_drops : ∀ d ∈ (settleHolder (enterYielding none s)).wire.dropped, inert d = true := by
    have wire : (settleHolder (enterYielding none s)).wire.dropped = (leaveHolding none s).wire.dropped := by
      rw [noted, entered]; rfl
    rw [wire, leaves.wire]
    exact h.dropped
  have first : settleFirst s = clearNotices ((enterYielding none s).modHold fun q =>
      { q with known := k, noHolder := x }) := by
    rw [settleFirst, settleEligible_of h.eligible, yields,
      settleNotices_inert fun d hd => droppedNotice_inert _ (inert_drops d hd), noted]
  have call : (leaveHolding none s).call = s.call := leaves.call
  have wire : (leaveHolding none s).wire = s.wire := leaves.wire
  rw [entered] at first
  have rest := settleRest_yielding (s := settleFirst s) (by rw [first]; rfl)
    (by rw [first]
        refine (headSettled_congr (s := s) ?_).trans h.head
        show (leaveHolding none s).wire.data = s.wire.data
        rw [wire])
    (by rw [first]; exact off) (by rw [first]; exact queue)
    (by rw [first]
        show (leaveHolding none s).call.record = none
        rw [call, h.record])
  obtain ⟨record, hold, off', queue', kept⟩ := rest
  have control : (settleFirst s).wire.control = s.wire.control ++ [newEntry (some 0) .yield s.now] := by
    rw [first]; rfl
  rw [control] at kept
  rw [finish_eq]
  refine ⟨record, by rw [hold, first]; rfl, by rw [hold, first]; rfl, off', queue',
    kept _ (List.mem_append_right _ (List.mem_singleton.mpr rfl)) nofun,
    fun e he body => kept e (List.mem_append_left _ he) body, fun n dial stutter => ?_⟩
  have same : (settleFirst s).ports = s.ports := by
    rw [first, (clearNotices_only _).ports, State.modHold_ports, State.modWire_ports, leftLine, State.modHold_ports,
      leaves.ports]
  have ports := port_congr same n
  rw [settleRest_port_of_tone (by rw [ports]; exact dial) (by rw [ports]; exact stutter), ports]

/-! ## The record of a degraded holder ends -/

/-- A settled degraded holder whose record a command has ended. -/
theorem degraded_of {s t : State} (calm : Calm s) (holding : s.holding = true) (degraded : s.hold.degraded = true)
    (only : Only [.outs, .wire, .ports, .call, .fault, .report] s t)
    (absent : t.cond .modemAbsent = s.cond .modemAbsent) (data : t.wire.data = s.wire.data)
    (dropped : ∀ d ∈ t.wire.dropped, inert d = true) (room : t.wire.control.length < 8)
    (record : t.call.record = none) : Degraded t where
  eligible := (eligibleNow_congr only.straps only.power absent (by rw [only.hold])).trans
    ((Calm.first calm).eligible.trans (by rw [only.hold]))
  holding := by rw [State.holding, only.hold]; exact holding
  degraded := by rw [only.hold, degraded]
  record := record
  known := by
    rw [only.hold, ← (Calm.first calm).holder]
    exact computeHolder_isSome_of_holding holding
  head := (headSettled_congr data).trans (Calm.rest calm).head
  dropped := dropped
  room := room

/-- A party told with a cause: its port here is CLEARED, or a CLEAR is in the control queue (R122). -/
def PartyTold (r : CallRecord) (p : Party) (k : ClearCause) (s t : State) : Prop :=
  OwnPartyCleared p r.id k s t ∧
    (p.station ≠ s.own → newEntry (some p.station) (.clear ⟨r.id, p.port, k⟩) s.now ∈ t.wire.control)

/-- A port cleared before a degraded holder yields is still CLEARED after. -/
theorem cleared_of_yielded {s v t : State} {n : PortNo} {k : ClearCause} (y : Yielded v t)
    (cleared : v.port n = Port.clear s.now (some (.cleared k)) none (s.port n)) :
    (t.port n).state = .cleared ∧ (t.port n).callRef = none ∧ (t.port n).tone = .busy ∧
      (t.port n).lastCause = some (.cleared k) ∧ (t.port n).playout = ⟨[], none, [], 0⟩ := by
  rw [y.ports n (by rw [cleared]; nofun) (by rw [cleared]; nofun), cleared]
  exact ⟨rfl, rfl, rfl, rfl, rfl⟩

theorem awake_of_holding {s : State} (h : s.holding = true) : s.halted = false := by
  rw [State.halted, holding_iff.mp h]
  rfl

/-- The record of a degraded holder ended with a cause: it yields, and every party is told (R38, R122). -/
theorem endRecord_yields {s w : State} {r : CallRecord} {k : ClearCause} (calm : Calm s)
    (holding : s.holding = true) (degraded : s.hold.degraded = true) (hr : s.call.record = some r)
    (few : r.parties.length ≤ 3) (short : s.wire.control.length ≤ 4) (only : Only [.outs, .fault, .report] s w)
    (absent : w.cond .modemAbsent = s.cond .modemAbsent) :
    ∃ v, Yielded v (finish (endRecord (some k) w)) ∧ v.now = s.now ∧
      ∀ p ∈ r.parties, PartyTold r p k s (finish (endRecord (some k) w)) := by
  have record : w.call.record = some r := by rw [only.call, hr]
  have awake : (dropRecord w).halted = false := by
    refine (halted_congr (s := s) ?_).trans (awake_of_holding holding)
    show w.hold.state = s.hold.state
    rw [only.hold]
  have own : (dropRecord w).own = s.own := by
    show w.straps.id = s.straps.id
    rw [only.straps]
  have control : (dropRecord w).wire = s.wire := only.wire
  have drops : ∀ d ∈ (dropRecord w).wire.dropped, inert d = true := by simp [control, Calm.dropped calm]
  obtain ⟨data, dropped⟩ := clearParties_wire (id := r.id) (k := k) (l := r.parties) drops
  have length := length_clearParties (id := r.id) (k := k) (l := r.parties) awake
  rw [control] at length data
  have cleared : Only [.wire, .ports, .call] (dropRecord w) (clearParties r.id k r.parties (dropRecord w)) :=
    clearParties_only _ _ _ _
  have ended : Only [.outs, .fault, .report, .call] s (dropRecord w) :=
    (State.modCall_only _ w).after (only.mono (by decide)) (by decide)
  have all : Only [.outs, .wire, .ports, .call, .fault, .report] s (clearParties r.id k r.parties (dropRecord w)) :=
    cleared.after (ended.mono (by decide)) (by decide)
  have absent' : (clearParties r.id k r.parties (dropRecord w)).cond .modemAbsent = s.cond .modemAbsent := by
    rw [State.cond, cleared.fault]
    exact absent
  have yields := finish_yields (degraded_of calm holding degraded all absent' data dropped (by omega)
    (clearParties_record _ _ _ _))
  rw [endRecord_some record]
  refine ⟨_, yields, all.now, fun p hp => ⟨fun n inside port ref => cleared_of_yielded (s := s) yields ?_,
    fun outside => ?_⟩⟩
  · have same : (dropRecord w).port n = s.port n := port_congr (s := s) only.ports n
    have port_cleared := clearParties_port (id := r.id) (h := s.own) (k := k) (n := n) (s := dropRecord w) hp
      ⟨by rw [own]; exact inside, by rw [port, portOf_portNo]⟩ (by rw [same]; exact ref)
    rw [port_cleared, same]
    exact congrArg (fun x => Port.clear x _ _ _) only.now
  · have entry := mem_clearParties (id := r.id) (k := k) (s := dropRecord w) awake (by rw [control]; omega) hp
      (by rw [own]; exact outside)
    have now : (dropRecord w).now = s.now := only.now
    rw [now] at entry
    exact yields.kept _ entry nofun

/-- The last party of a degraded holder falls silent: it yields, and the party is told (R38, R120, R122). -/
theorem partySilence_yields {s : State} {r : CallRecord} {p : Party} (calm : Calm s) (holding : s.holding = true)
    (degraded : s.hold.degraded = true) (hr : s.call.record = some r) (short : s.wire.control.length ≤ 4)
    (all : r.parties.all (isParty p.station p.port) = true) :
    ∃ v, Yielded v (finish (sendClear p.station p.port r.id .partyLimit (silenced p s))) ∧ v.now = s.now ∧
      ∀ q : Party, q.station = p.station → q.port = p.port →
        PartyTold r q .partyLimit s (finish (sendClear p.station p.port r.id .partyLimit (silenced p s))) := by
  have only := silenced_only p s
  have left : (silenced p s).call.record = none :=
    (removeParty_record (s := s.quiet) hr).trans (if_pos all)
  have wire : (silenced p s).wire = s.wire := only.wire
  have own : (silenced p s).own = s.own := by
    show (silenced p s).straps.id = s.straps.id
    rw [only.straps]; rfl
  have awake : (silenced p s).halted = false :=
    (halted_congr (s := s) (by rw [only.hold]; rfl)).trans (awake_of_holding holding)
  have sent := sendClear_only p.station p.port r.id .partyLimit (silenced p s)
  obtain ⟨data, dropped⟩ := sendClear_wire (st := p.station) (po := p.port) (id := r.id) (k := .partyLimit)
    (s := silenced p s) (by simp [wire, Calm.dropped calm])
  have length := length_sendClear (st := p.station) (po := p.port) (id := r.id) (k := .partyLimit) awake
  rw [wire] at data length
  have removed : Only [.outs, .call] s (silenced p s) :=
    only.after ((State.quiet_only s).mono (by decide)) (by decide)
  have changed : Only [.outs, .wire, .ports, .call, .fault, .report] s
      (sendClear p.station p.port r.id .partyLimit (silenced p s)) :=
    sent.after (removed.mono (by decide)) (by decide)
  have absent : (sendClear p.station p.port r.id .partyLimit (silenced p s)).cond .modemAbsent =
      s.cond .modemAbsent := by
    rw [State.cond, sent.fault, only.fault]
    rfl
  have yields := finish_yields (degraded_of calm holding degraded changed absent data dropped (by omega)
    ((sendClear_record _ _ _ _ _).trans left))
  refine ⟨_, yields, changed.now, fun q station port =>
    ⟨fun n inside named ref => cleared_of_yielded (s := s) yields ?_,
    fun outside => ?_⟩⟩
  · have same : (silenced p s).port n = s.port n := port_congr only.ports n
    have cleared := sendClear_port (st := p.station) (po := p.port) (id := r.id) (k := .partyLimit) (h := s.own)
      (s := silenced p s) (n := n) (by rw [same]; exact ref)
      ⟨by rw [own, ← station]; exact inside, by rw [← port, named, portOf_portNo]⟩
    rw [cleared, same]
    exact congrArg (fun x => Port.clear x _ _ _) only.now
  · have now : (silenced p s).now = s.now := only.now
    have entry : newEntry (some p.station) (.clear ⟨r.id, p.port, .partyLimit⟩) s.now ∈
        (sendClear p.station p.port r.id .partyLimit (silenced p s)).wire.control := by
      rw [sendClear_control awake, if_neg (by rw [own, ← station]; exact outside), wire,
        controlJoined_room _ (by omega), now]
      exact List.mem_append_right _ (List.mem_singleton.mpr rfl)
    rw [station, port]
    exact yields.kept _ entry nofun

/-- The last party's LEAVE at a degraded holder: it yields (R38, R117). -/
theorem leave_yields {s : State} {h : Header} {m : RequestMsg} {start : Tick} {r : CallRecord} (calm : Calm s)
    (fam : Familiar s h) (holding : s.holding = true) (degraded : s.hold.degraded = true)
    (hr : s.call.record = some r) (short : s.wire.control.length ≤ 4) (named : m.ref = 0 ∨ m.ref = r.id)
    (all : r.parties.all (isParty h.src m.port) = true) :
    ∃ v, Yielded v (finish (takeLeave h.src m.port m.ref (heardNow h start s))) ∧ v.now = s.now := by
  have record : (heardNow h start s).call.record = some r := hr
  have only := removeParty_only h.src m.port (heardNow h start s)
  have wire : (removeParty h.src m.port (heardNow h start s)).wire = (heardNow h start s).wire := only.wire
  have left : (removeParty h.src m.port (heardNow h start s)).call.record = none :=
    (removeParty_record record).trans (if_pos all)
  rw [takeLeave_taken record holding named]
  refine ⟨_, finish_yields (degraded_of (calm_heardNow start calm fam) holding degraded (only.mono (by decide))
    (by rw [State.cond, only.fault]; rfl) (by rw [wire]) ?_ ?_ left), only.now⟩
  · have none : (heardNow h start s).wire.dropped = [] := Calm.dropped (s := s) calm
    rw [wire, none]
    simp
  · rw [wire]
    show s.wire.control.length < 8
    omega

/-- What the loss of its record makes of a degraded holder, as the statement says it. -/
theorem Yielded.outcome {s v t : State} (y : Yielded v t) (now : v.now = s.now) :
    t.call.record = none ∧ t.loopClosed = false ∧ t.hold.state = .yielding ∧ t.hold.degraded = false ∧
      t.sup.state = .off ∧ t.report.queue = [] ∧ newEntry (some 0) .yield s.now ∈ t.wire.control :=
  ⟨y.record, loopClosed_of_none y.record, y.state, y.degraded, y.off, y.queue, now ▸ y.sent⟩

/-- Settles O50. -/
theorem recordEnds : Obligations.RecordEnds := by
  refine ⟨?_, ?_, ?_, ?_⟩
  · intro s h m start calm hear us fam degraded
    exact leave_taken calm hear us fam degraded
  · intro s r x calm hr ok degraded
    exact timeouts_taken calm hr ok degraded
  · intro s r p calm hr hp late degraded
    refine answers_of (exec_partySilence calm hr hp late) ⟨record_partySilence calm hr degraded,
      partySilence_outside calm hr degraded, fun inside ok => ?_⟩
    exact partySilence_inside calm hr degraded inside ok
  · intro s r c calm ok hr degraded short how
    have holding := holding_of_recordOk ok hr
    obtain ⟨-, bounds⟩ := ok
    obtain ⟨-, -, few⟩ := bounds r hr
    rcases how with ⟨h, m, start, rfl, hear, us, fam, named, all⟩ | ⟨p, hp, rfl, late, all⟩ |
      ⟨rfl, x, seize, late⟩ | ⟨rfl, x, loss, late⟩
    · obtain ⟨v, yields, now⟩ := leave_yields (start := start) calm fam holding degraded hr short named all
      obtain ⟨record, loop, state, plain, off, queue, sent⟩ := yields.outcome now
      refine answers_of (exec_leave calm hear us fam) ⟨record, loop, state, plain, off, queue, sent,
        fun p _ cause which => ?_⟩
      rcases which with ⟨e, -⟩ | ⟨e, -⟩ | ⟨e, -⟩ <;> cases e
    · obtain ⟨v, yields, now, told⟩ := partySilence_yields calm holding degraded hr short all
      obtain ⟨record, loop, state, plain, off, queue, sent⟩ := yields.outcome now
      refine answers_of (exec_partySilence calm hr hp late) ⟨record, loop, state, plain, off, queue, sent,
        fun q _ cause which => ?_⟩
      rcases which with ⟨e, -⟩ | ⟨e, -⟩ | ⟨e, rfl⟩
      · cases e
      · cases e
      · simp only [Instr.partySilenceTimeout.injEq] at e
        exact told q e.1.symm e.2.symm
    · obtain ⟨v, yields, now, told⟩ := endRecord_yields (k := .lineFault) (w := setCond .lineDead true s.quiet) calm
        holding degraded hr few short
        ((setCond_only _ _ _).after ((State.quiet_only s).mono (by decide)) (by decide))
        (setCond_cond_other true s.quiet nofun)
      obtain ⟨record, loop, state, plain, off, queue, sent⟩ := yields.outcome now
      refine answers_of (exec_seizeTimeout calm hr seize late) ⟨record, loop, state, plain, off, queue, sent,
        fun q hq cause which => ?_⟩
      rcases which with ⟨e, -⟩ | ⟨-, rfl⟩ | ⟨e, -⟩
      · cases e
      · exact told q hq
      · cases e
    · obtain ⟨v, yields, now, told⟩ := endRecord_yields (k := .farEnd) (w := s.quiet) calm holding degraded hr few
        short ((State.quiet_only s).mono (by decide)) rfl
      obtain ⟨record, loop, state, plain, off, queue, sent⟩ := yields.outcome now
      refine answers_of (exec_lossTimeout calm hr loss late) ⟨record, loop, state, plain, off, queue, sent,
        fun q hq cause which => ?_⟩
      rcases which with ⟨-, rfl⟩ | ⟨e, -⟩ | ⟨e, -⟩
      · exact told q hq
      · cases e
      · cases e

end Sys2Proof.Machine
end

section
/-! PROOFS. A frame with the station's own id (R8, R42, R43): how the eighteen frame commands and a nameless REQUEST
come to the same dispatch, what the end of a command leaves at a station that halts, and the rank clash. -/

namespace Sys2Proof.Machine

open Sys2Proof

/-! ## One dispatch for every heard frame (R8) -/

/-- What a command takes from a checked frame for this station, with the time at which it began (R8). -/
def contents : Instr → Tick → State → State
  | .beacon h m, start, t =>
    keeperRule h.src h.hold m (takeTracks h.src start m.tracks (modPeer h.src (Peer.beaconed h.hold m) t))
  | .claim h x, _, t => claimHeard h.src x t
  | .yield h m, start, t => yieldProfile m (takeTracks h.src start m.tracks t)
  | .lastgasp h m, start, t =>
    let u := takeGasp m.record (modPeer h.src Peer.gasped t)
    if m.held then adoptProfile m.profile.toNat (takeTracks h.src start m.tracks u) else u
  | .halt h m, _, t => modPeer h.src (Peer.haltHeard m) t
  | .seize h m, _, t => requestFrame .seize h.src m t
  | .answer h m, _, t => requestFrame .answer h.src m t
  | .leave h m, _, t => takeLeave h.src m.port m.ref t
  | .offer h m, _, t => offerFrame h.src m t
  | .accept h m, _, t => acceptFrame h.src m t
  | .endCall h m, _, t => endFrame h.src m t
  | .reply h m, _, t => replyFrame h.src m t
  | .clear _ m, _, t => (portOf m.port).elim t fun n => takeClear n m.ref m.cause t
  | .dial h m, _, t => dialFrame h.src m t
  | .voice h m, _, t => voiceFrame h.src m t
  | .report h r, _, t => reportFrame h.src r t
  | .receipt _ trigger count, _, t => judgeReceipt trigger count t
  | .data h f, _, t => dataFrame h.src h.dst f t
  | _, _, t => t

theorem gaspHeader_eq (q : Header) (m : GaspMsg) : gaspHeader q =
    { q with hold := heardHold (.lastgasp q m) q.hold } := by
  unfold gaspHeader
  split
  · next e => rw [e]; rfl
  · next e =>
    unfold heardHold
    split
    · next e' => exact absurd e' e
    · rfl

/-- A checked frame of any kind is dispatched by its header, with the hold state the roster takes from it (R8, R25). -/
theorem exec_contents {c : Instr} {h : Header} (s : State) (hc : frameHeader c = some h) :
    exec c s = .next (frame { h with hold := heardHold c h.hold } (frameTie c) (contents c) s) := by
  cases c
  case lastgasp q m =>
    cases hc
    rw [← gaspHeader_eq h m]
    rfl
  case clear q m =>
    cases hc
    refine congrArg (fun act => Host.Outcome.next (frame h none act s)) ?_
    funext start t
    show _ = (portOf m.port).elim t fun n => takeClear n m.ref m.cause t
    cases portOf m.port <;> rfl
  case damagedFrame bytes =>
    simp only [frameHeader] at hc
    split at hc
    · next q nameless =>
      cases hc
      refine congrArg Host.Outcome.next (congrArg (carrierEnd · s) ?_)
      funext start t
      rw [untoldFrame, nameless]
      rfl
    · cases hc
  all_goals first
    | (cases hc; rfl)
    | cases hc

/-- The station that has heard a frame to its end, before it is dispatched (R6). -/
def received (s : State) : State := dropRx (carrierOff s).quiet

theorem received_only (s : State) : Only [.pins, .wire, .outs] s (received s) := by
  intro p hp
  cases p <;> first | rfl | exact absurd (by decide) hp

theorem frame_heard {s : State} {h : Header} {start : Tick} (tie : Option (BitVec 16)) (act : Tick → State → State)
    (active : s.active = true) (hear : Hearing s start) :
    frame h tie act s = finish (dispatch h tie act start (received s)) := by
  have active' : (carrierOff s).active = true := active
  have rx : (carrierOff s).quiet.wire.rx = some ⟨start, true⟩ := hear
  rw [frame, carrierEnd, active, if_pos rfl, running_active active', rx]
  rfl

theorem frame_ownId {s : State} {h : Header} {start : Tick} (tie : Option (BitVec 16)) (act : Tick → State → State)
    (active : s.active = true) (hear : Hearing s start) (own : h.src = s.own) :
    frame h tie act s = finish (rankClash tie (received s)) := by
  rw [frame_heard tie act active hear, dispatch, if_pos (show h.src = (received s).own from own)]

theorem calm_received {s : State} (calm : Calm s) : Calm (received s) := by
  have f := Calm.first calm
  have r := Calm.rest calm
  refine calm_of (Calm.active (s := s) calm) (.of_none f.eligible f.degraded f.holder (Calm.dropped (s := s) calm))
    (Calm.dropped (s := s) calm) ?_
  have short : (received s).anyShort = s.anyShort := anyShort_congr rfl fun n => by cases n <;> rfl
  exact ⟨⟨r.head, condsSettled_congr (s := s) rfl rfl rfl rfl rfl rfl short rfl r.conds, r.reports, r.offer,
    r.transfer, r.outpulse, r.loss, r.lamp, r.tones⟩, r.idle⟩

/-! ## What the end of a command leaves, WATCH or not -/

/-- The hold state once WATCH is entered (R45). -/
def watchHold (h : Hold) : Hold :=
  { h with
    roster := [], lost := [], known := none, noHolder := none
    listen := none, deferral := none, contest := none, follow := none
    state := if h.state = .halted then .halted else .listen }

theorem enterWatch_hold (s : State) : (enterWatch s).hold = watchHold s.hold := by
  unfold enterWatch
  dsimp only
  rw [(setCond_only _ _ _).hold, (setCond_only _ _ _).hold, (setCond_only _ _ _).hold]
  rfl

theorem settleIdle_hold (s : State) : (settleIdle s).hold = s.hold ∨ (settleIdle s).hold = watchHold s.hold := by
  unfold settleIdle
  split
  · split
    · exact .inr (enterWatch_hold s)
    · exact .inl rfl
  · exact .inl rfl

/-- The rest leaves the hold state, or enters WATCH. -/
theorem settleRest_hold (s : State) : (settleRest s).hold = s.hold ∨ (settleRest s).hold = watchHold s.hold := by
  have before : (settleConds (settleDataHead s)).hold = s.hold :=
    (settleConds_only _).hold.trans (settleDataHead_only s).hold
  have after : (settleRest s).hold = (settleMiddle s).hold :=
    (clearNotices_only _).hold.trans ((settleTones_only _).hold.trans (settleLater_only _).hold)
  rw [after, ← before]
  exact settleIdle_hold _

/-- The conditions that a level or WATCH sets (R27, R45, R59, R66, R104, R105, R134, R135). -/
def followsLevel : Cond → Bool
  | .noiseTracked | .peerLost | .mainsOff | .batteryLow | .portParked | .portShort | .lineDead | .lineLeaky
  | .lineForeign | .noHolder => true
  | _ => false

theorem settleIdle_cond {c : Cond} (s : State) (h : followsLevel c = false) : (settleIdle s).cond c = s.cond c := by
  have other : ∀ d, followsLevel d = true → c ≠ d := fun d hd e => by rw [e, hd] at h; cases h
  unfold settleIdle
  split
  · split
    · unfold enterWatch
      dsimp only
      rw [setCond_cond_other _ _ (other _ rfl), setCond_cond_other _ _ (other _ rfl),
        setCond_cond_other _ _ (other _ rfl)]
      rfl
    · rfl
  · rfl

theorem condWanted_other {c : Cond} (s : State) (h : followsLevel c = false) : condWanted s c = s.cond c := by
  cases c <;> first | rfl | cases h

/-- A condition that follows no level stands through the rest. -/
theorem settleRest_cond_other {c : Cond} (s : State) (h : followsLevel c = false) :
    (settleRest s).cond c = s.cond c := by
  have last : (settleRest s).fault = (settleLater (settleMiddle s)).fault :=
    (clearNotices_only _).fault.trans (settleTones_only _).fault
  have head : (settleDataHead s).cond c = s.cond c := by rw [State.cond, (settleDataHead_only s).fault]; rfl
  rw [State.cond, last, settleLater_conds]
  refine (settleIdle_cond _ h).trans ?_
  rw [settleConds_cond, condWanted_other _ h, head]

/-! ## The end of a command at a HALTED station (R43) -/

theorem requestDropped_hold (k : RequestKind) (tag : Nat) (n : PortNo) (s : State) :
    Only [.ports, .call] s (requestDropped k tag n s) := by
  unfold requestDropped
  split
  · split
    · exact clearPort_only _ _ _ _
    · exact Only.refl _ _
  · exact Only.refl _ _

/-- At a HALTED station a drop notice reaches the ports at most. -/
theorem droppedNotice_halted {s : State} (state : s.hold.state = .halted) (b : Body) :
    Only [.ports, .call] s (droppedNotice s b) := by
  unfold droppedNotice
  split
  · rw [if_neg (by rw [state]; nofun)]
    exact Only.refl _ _
  · rw [if_neg (by rw [state]; nofun)]
    exact Only.refl _ _
  · exact Only.eachPort (fun n t => requestDropped_hold _ _ n t) s
  · exact Only.refl _ _

theorem foldl_halted : ∀ (l : List Body) {s : State}, s.hold.state = .halted →
    Only [.ports, .call] s (l.foldl droppedNotice s)
  | [], s, _ => Only.refl _ s
  | b :: l, s, state => by
    have first := droppedNotice_halted state b
    exact first.trans (foldl_halted l (by rw [first.hold]; exact state))

/-- At a HALTED station a change of the known holder changes the known holder and NO_HOLDER's timing (R29). -/
theorem settleHolder_halted {s : State} (state : s.hold.state = .halted) :
    (settleHolder s).hold.state = .halted ∧ (settleHolder s).hold.halt = s.hold.halt ∧
      ∀ c, c ≠ .noHolder → (settleHolder s).cond c = s.cond c := by
  have rules : ∀ t : State, t.hold.state = .halted → holderRules t = t := by
    intro t ht
    unfold holderRules
    split <;> simp_all
  unfold settleHolder
  split
  · exact ⟨state, rfl, fun _ _ => rfl⟩
  · unfold holderTiming
    split
    · rw [rules _ (by exact state)]
      exact ⟨state, rfl, fun _ _ => rfl⟩
    · next h _ _ =>
      have only : ∀ t, Only [.fault, .report] t (setCond .noHolder false t) := fun t => setCond_only _ _ t
      rw [rules _ (by rw [(only _).hold]; exact state), (only _).hold]
      exact ⟨state, rfl, fun c hc => setCond_cond_other _ _ hc⟩
    · rw [rules _ (by exact state)]
      exact ⟨state, rfl, fun _ _ => rfl⟩

/-- A command that has halted the station leaves it HALTED, its halt code and its other conditions as they are. -/
theorem finish_halted {s : State} (state : s.hold.state = .halted) (eligible : s.hold.eligible = false) :
    (finish s).hold.state = .halted ∧ (finish s).hold.halt = s.hold.halt ∧
      ∀ c, followsLevel c = false → (finish s).cond c = s.cond c := by
  have halted : s.halted = true := by rw [State.halted, state]; rfl
  have away : s.holding = false := by rw [State.holding, state]; rfl
  have first : settleFirst s = settleNotices (settleHolder s) := by
    rw [settleFirst, settleEligible_of (by rw [eligible, State.eligibleNow, halted]; simp),
      settleDegraded_of (by rw [away]; rfl)]
  obtain ⟨state', halt', conds'⟩ := settleHolder_halted state
  have notices : Only [.wire, .ports, .call] (settleHolder s) (settleFirst s) := by
    rw [first]
    exact (foldl_halted _ (by exact state')).after ((State.modWire_only _ _).mono (by decide)) (by decide)
  have rest := settleRest_hold (settleFirst s)
  rw [notices.hold] at rest
  rw [finish_eq]
  refine ⟨?_, ?_, fun c hc => ?_⟩
  · rcases rest with same | watch
    · rw [same, state']
    · rw [watch, watchHold, state']
      rfl
  · rcases rest with same | watch
    · rw [same, halt']
    · rw [watch, ← halt']
      rfl
  · have other : c ≠ .noHolder := fun e => by rw [e] at hc; cases hc
    rw [settleRest_cond_other _ hc, State.cond, notices.fault]
    exact conds' c other

/-! ## The rank clash (R42, R43) -/

theorem computeHolder_congr {s t : State} (straps : t.straps = s.straps) (roster : t.hold.roster = s.hold.roster)
    (state : t.hold.state = s.hold.state) (record : t.call.record.isSome = s.call.record.isSome) :
    t.computeHolder = s.computeHolder := by
  have holding : t.holding = s.holding := by rw [State.holding, State.holding, state]
  rw [State.computeHolder, State.computeHolder, candidates_eq, candidates_eq, holding, roster, record, State.own,
    State.own, straps]

/-- A condition written at a settled station, other than that of an absent modem, leaves the first rules settled. -/
theorem firstSettled_setCond {s : State} {c : Cond} (calm : Calm s) (b : Bool) (other : c ≠ .modemAbsent) :
    FirstSettled (setCond c b s) := by
  have f := Calm.first calm
  have only := setCond_only c b s
  refine .of_none ?_ ?_ ?_ (by rw [only.wire]; exact Calm.dropped calm)
  · rw [eligibleNow_congr only.straps only.power (setCond_cond_other b s other.symm) (by rw [only.hold]), only.hold]
    exact f.eligible
  · rw [State.holding, only.hold, only.call]
    exact f.degraded
  · rw [computeHolder_congr only.straps (by rw [only.hold]) (by rw [only.hold]) (by rw [only.call]), only.hold]
    exact f.holder

theorem staysUp_congr {s t : State} (h : StaysUp s) (power : t.power = s.power) (ports : t.ports = s.ports)
    (state : t.hold.state = s.hold.state) (low : t.pins.battLow = s.pins.battLow) : StaysUp t := by
  intro idle
  rw [idleHolds_congr power ports state] at idle
  rw [low]
  exact h idle

/-- Where the first part is settled and nothing sends the station to WATCH, a command's end leaves the hold state and
the conditions that follow no level. -/
theorem finish_kept {s : State} (f : FirstSettled s) (up : StaysUp s) :
    (finish s).hold = s.hold ∧ ∀ c, followsLevel c = false → (finish s).cond c = s.cond c := by
  rw [finish_eq, settleFirst_of f]
  exact ⟨(settleRest_only (s := clearNotices s) up).hold, fun c hc => settleRest_cond_other (clearNotices s) hc⟩

/-- A rank clash that does not halt the station: the condition, and a tiebreak drawn afresh where the two are equal. -/
theorem finish_clash {s : State} (calm : Calm s) :
    (finish (setCond .rankClash true s)).hold = s.hold ∧ (finish (setCond .rankClash true s)).cond .rankClash =
      true := by
  have only := setCond_only .rankClash true s
  obtain ⟨hold, conds⟩ := finish_kept (firstSettled_setCond calm true (by nofun : Cond.rankClash ≠ .modemAbsent))
    (staysUp_congr (staysUp_of_calm calm) only.power only.ports (by rw [only.hold]) (by rw [only.pins]))
  exact ⟨hold.trans only.hold, (conds _ rfl).trans (setCond_cond_same _ _ _)⟩

/-- The hold controller as it enters HALTED (R43). -/
def haltHold (code : HaltCode) (h : Hold) : Hold :=
  { h with
    state := .halted, halt := some code, eligible := false, degraded := false
    listen := none, follow := none, deferral := none, contest := none }

theorem leaveHolding_conds (c : Option ClearCause) (s : State) : (leaveHolding c s).fault.conds = s.fault.conds := by
  have ended : (goOff (endRecord c s)).fault = s.fault := (goOff_only _).fault.trans (endRecord_only _ _).fault
  have left : (leaveHolding c s).fault.conds = (goOff (endRecord c s)).fault.conds := rfl
  rw [left, ended]

/-- Entry to HALTED writes the hold controller, and no condition (R43). -/
theorem enterHalted_read {code : HaltCode} {s : State} (awake : s.halted = false) (window : s.power.window = none) :
    (enterHalted code s).hold = haltHold code s.hold ∧ (enterHalted code s).fault.conds = s.fault.conds := by
  have enters : ¬((s.halted || s.power.window.isSome) = true) := by rw [awake, window]; decide
  have calls : ∀ t, (haltCalls t).hold = t.hold ∧ (haltCalls t).fault = t.fault := fun _ => ⟨rfl, rfl⟩
  have left : (if s.holding then leaveHolding none s else goOff s).hold = s.hold ∧
      (if s.holding then leaveHolding none s else goOff s).fault.conds = s.fault.conds := by
    split
    · exact ⟨(leaveHolding_only _ _).hold, leaveHolding_conds _ _⟩
    · exact ⟨(goOff_only s).hold, by rw [(goOff_only s).fault]⟩
  unfold enterHalted
  rw [if_neg enters]
  dsimp only
  rw [(offerControl_only _ _ _).hold, (offerControl_only _ _ _).fault, (haltPorts_only _).hold,
    (haltPorts_only _).fault]
  refine ⟨congrArg (haltHold code) ?_, ?_⟩
  · exact left.1
  · exact left.2

theorem finish_clash_halts {s : State} (calm : Calm s) (awake : s.halted = false) :
    (finish (enterHalted .rankClash (setCond .rankClash true s))).hold.state = .halted ∧
      (finish (enterHalted .rankClash (setCond .rankClash true s))).hold.halt = some .rankClash ∧
      (finish (enterHalted .rankClash (setCond .rankClash true s))).cond .rankClash = true := by
  have only := setCond_only .rankClash true s
  obtain ⟨hold, conds⟩ := enterHalted_read (code := .rankClash) (s := setCond .rankClash true s)
    ((halted_congr (by rw [only.hold])).trans awake) (by rw [only.power]; exact Calm.noWindow calm)
  obtain ⟨state, halt, kept⟩ := finish_halted (s := enterHalted .rankClash (setCond .rankClash true s))
    (by rw [hold]; rfl) (by rw [hold]; rfl)
  refine ⟨state, by rw [halt, hold]; rfl, (kept _ rfl).trans ?_⟩
  rw [State.cond, conds]
  exact setCond_cond_same _ _ _

/-- A tiebreak equal to the own one is drawn afresh (R42). -/
theorem finish_clash_draws {s : State} (calm : Calm s) :
    (finish ((setCond .rankClash true s).modHold fun h => { h with tiebreak := Config.draw16 s.draws }).drew).hold =
        { s.hold with tiebreak := Config.draw16 s.draws } ∧
      (finish ((setCond .rankClash true s).modHold fun h => { h with tiebreak := Config.draw16 s.draws }).drew).cond
        .rankClash = true ∧
      (finish ((setCond .rankClash true s).modHold fun h => { h with tiebreak := Config.draw16 s.draws }).drew).draws =
        s.draws + 1 := by
  have only := setCond_only .rankClash true s
  have f := firstSettled_setCond calm true (by nofun : Cond.rankClash ≠ .modemAbsent)
  have up : StaysUp (setCond .rankClash true s) :=
    staysUp_congr (staysUp_of_calm calm) only.power only.ports (by rw [only.hold]) (by rw [only.pins])
  have dropped : (setCond .rankClash true s).wire.dropped = [] := by rw [only.wire]; exact Calm.dropped calm
  have first : FirstSettled
      ((setCond .rankClash true s).modHold fun h => { h with tiebreak := Config.draw16 s.draws }).drew :=
    .of_none f.eligible f.degraded f.holder dropped
  obtain ⟨hold, conds⟩ := finish_kept first up
  refine ⟨hold.trans ?_, (conds _ rfl).trans (setCond_cond_same _ _ _), ?_⟩
  · show { (setCond .rankClash true s).hold with tiebreak := Config.draw16 s.draws } = _
    rw [only.hold]
  · rw [(finish_only _).draws]
    show (setCond .rankClash true s).draws + 1 = _
    rw [only.draws]

/-- Settles O22. -/
theorem ownIdFrameIsRankClash : Obligations.OwnIdFrameIsRankClash := by
  intro s c h start calm hear hc own
  have run := exec_contents s hc
  rw [frame_ownId (h := { h with hold := heardHold c h.hold }) _ (contents c) (Calm.active calm) hear own] at run
  refine answers_of run ?_
  have calm' := calm_received calm
  have only := setCond_only .rankClash true (received s)
  have halted : (setCond .rankClash true (received s)).halted = s.halted := halted_congr (by rw [only.hold]; rfl)
  have tiebreak : (setCond .rankClash true (received s)).hold.tiebreak = s.hold.tiebreak := by rw [only.hold]; rfl
  have draws : (setCond .rankClash true (received s)).draws = s.draws := only.draws
  have plain := finish_clash calm'
  cases tie : frameTie c with
  | none =>
    have clash : rankClash none (received s) = setCond .rankClash true (received s) := rfl
    rw [clash, plain.1]
    exact ⟨plain.2, fun _ => ⟨rfl, rfl⟩, nofun⟩
  | some x =>
    cases awake : s.halted with
    | true =>
      have clash : rankClash (some x) (received s) = setCond .rankClash true (received s) :=
        if_pos (halted.trans awake)
      rw [clash, plain.1]
      exact ⟨plain.2, fun _ => ⟨rfl, rfl⟩, nofun⟩
    | false =>
      have clash : rankClash (some x) (received s) =
          if s.hold.tiebreak.toNat < x.toNat then enterHalted .rankClash (setCond .rankClash true (received s))
          else if s.hold.tiebreak = x then ((setCond .rankClash true (received s)).modHold fun h =>
            { h with tiebreak := Config.draw16 s.draws }).drew
          else setCond .rankClash true (received s) := by
        simp only [rankClash, halted, awake, tiebreak, draws, Bool.false_eq_true, if_false]
      rw [clash]
      by_cases above : s.hold.tiebreak.toNat < x.toNat
      · rw [if_pos above]
        obtain ⟨state, halt, cond⟩ := finish_clash_halts calm' awake
        refine ⟨cond, fun none => by simp at none, fun y hy _ => ?_⟩
        cases hy
        refine ⟨fun _ => ⟨state, halt⟩, fun below => by omega, fun same => ?_⟩
        rw [same] at above
        omega
      · rw [if_neg above]
        by_cases same : s.hold.tiebreak = x
        · rw [if_pos same]
          obtain ⟨hold, cond, drawn⟩ := finish_clash_draws calm'
          refine ⟨cond, fun none => by simp at none, fun y hy _ => ?_⟩
          cases hy
          refine ⟨fun below => absurd below above, fun below => by rw [same] at below; omega, fun _ => ?_⟩
          exact ⟨by rw [show s.draws = (received s).draws from rfl, hold]; rfl,
            by rw [show s.draws = (received s).draws from rfl, hold], drawn⟩
        · rw [if_neg same, plain.1]
          refine ⟨plain.2, fun none => by simp at none, fun y hy _ => ?_⟩
          cases hy
          exact ⟨fun below => absurd below above, fun _ => ⟨rfl, rfl⟩, fun e => absurd e same⟩

end Sys2Proof.Machine
end

section
/-! PROOFS. What the wire hears but no frame (R6, R7, R14): a carrier, a fragment, damaged bytes, a contention point.
Such an event touches the receive path, the round and the quiet windows, which no level rule reads. -/

namespace Sys2Proof.Machine

open Sys2Proof

/-! ## Events that no level rule reads -/

/-- The station with its carrier, its wire controller, its noise tracks and its outputs replaced. -/
def onAir (carrier : Bool) (w : Wire) (q : Noise) (o : List Out) (s : State) : State :=
  { s with pins := { s.pins with carrier := carrier }, wire := w, noise := q, outs := o }

theorem onAir_only (c : Bool) (w : Wire) (q : Noise) (o : List Out) (s : State) :
    Only [.pins, .wire, .noise, .outs] s (onAir c w q o s) := by
  intro p hp
  cases p <;> first | rfl | exact absurd (by decide) hp

theorem onAir_only_wire (c : Bool) (w : Wire) (o : List Out) (s : State) :
    Only [.pins, .wire, .outs] s (onAir c w s.noise o s) := by
  intro p hp
  cases p <;> first | rfl | exact absurd (by decide) hp

theorem onAir_only_pins (c : Bool) (o : List Out) (s : State) : Only [.pins, .outs] s (onAir c s.wire s.noise o s) := by
  intro p hp
  cases p <;> first | rfl | exact absurd (by decide) hp

/-- The level rules read of these parts the head of the data queue, what was dropped and the tracked count. -/
theorem calm_onAir {s : State} {c : Bool} {w : Wire} {q : Noise} {o : List Out} (calm : Calm s)
    (dropped : w.dropped = []) (head : headSettled (onAir c w q o s) = true) (tracked : q.tracked = s.noise.tracked) :
    Calm (onAir c w q o s) := by
  have first := calm.first
  have rest := calm.rest
  refine calm_of calm.active ⟨first.eligible, first.degraded, first.holder, ?_⟩ dropped
    ⟨⟨head, ?_, rest.reports, rest.offer, rest.transfer, rest.outpulse, rest.loss, rest.lamp, rest.tones⟩, rest.idle⟩
  · intro b hb
    exact absurd (show b ∈ w.dropped from hb) (by simp [dropped])
  · exact condsSettled_congr (s := s) rfl tracked rfl rfl rfl rfl rfl rfl rest.conds

/-! ## The end of an event on the wire (R172) -/

theorem onWire_calm {s : State} (f : State → State) (active : s.active = true) (calm : Calm (f s.quiet)) :
    onWire f s = f s.quiet := by
  rw [onWire, if_pos active, finish_of_calm calm]

theorem onWire_window {s : State} (f : State → State) (phase : s.phase = .running)
    (window : s.power.window.isSome = true) :
    onWire f s = clearNotices (f s.quiet) := by
  have inactive : s.active = false := by
    rw [State.active, Bool.and_eq_false_iff]
    exact .inr (by cases h : s.power.window <;> simp_all)
  simp [onWire, inactive, phase]

theorem onWire_stopped {s : State} (f : State → State) (phase : s.phase ≠ .running) : onWire f s = s.quiet := by
  simp [onWire, State.active, phase]

/-- An event on the wire of a running station is what it does, and its notices are handed on, where that leaves a
settled station settled. -/
theorem onWire_running {s : State} (f : State → State) (phase : s.phase = .running)
    (calm : s.power.window = none → Calm (f s.quiet)) : onWire f s = clearNotices (f s.quiet) := by
  by_cases window : s.power.window = none
  · have active : s.active = true := by simp [State.active, phase, window]
    rw [onWire_calm f active (calm window), clearNotices_of_none (calm window).dropped]
  · exact onWire_window f phase (Option.isSome_iff_ne_none.mpr window)

theorem running_of_goesOn {s : State} (goes : WireGoesOn s) : s.phase = .running :=
  goes.elim (·.running) (·.1)

theorem calm_of_goesOn {s : State} (goes : WireGoesOn s) (window : s.power.window = none) : Calm s :=
  goes.elim id fun h => by simp [window] at h

/-! ## A carrier and a contention point (R6, R14) -/

theorem busyTrack_firm (k : Option Track) : firmCount (busyTrack k) = firmCount k := by
  cases k <;> rfl

theorem markBusy_tracked (s : State) : (markBusy s).noise.tracked = s.noise.tracked := by
  show firmCount (busyTrack s.noise.a) + firmCount (busyTrack s.noise.b) = _
  rw [busyTrack_firm, busyTrack_firm]
  rfl

theorem carrierUp_live {s : State} (live : s.power.frontEnd = .live) (idle : s.wire.tx = none) :
    carrierUp s = onAir s.pins.carrier { s.wire with round := none, rx := some ⟨s.now, true⟩ }
      { s.noise with a := busyTrack s.noise.a, b := busyTrack s.noise.b } s.outs s := by
  rw [carrierUp, if_pos (by simp [State.live, live, idle])]
  rfl

theorem carrierUp_busy {s : State} (busy : s.power.frontEnd ≠ .live ∨ s.wire.tx.isSome = true) : carrierUp s = s := by
  apply if_neg
  rw [Bool.and_eq_true]
  rintro ⟨live, idle⟩
  obtain h | h := busy
  · exact h (of_decide_eq_true live)
  · rw [Option.isNone_iff_eq_none] at idle
    simp [idle] at h

/-- A round as it opens on an idle wire (R14, R16). -/
def Wire.roundOpened (w : Wire) : Wire :=
  { w with round := some ⟨0⟩, voice := w.voice.map sitRound, control := w.control.map sitRound }

theorem contend_live {s : State} (live : s.power.frontEnd = .live) (tx : s.wire.tx = none)
    (carrier : s.pins.carrier = false) (rx : s.wire.rx = none) :
    contend s = s.modWire Wire.roundOpened := by
  rw [contend, if_pos (by simp [State.live, State.wireIdle, live, tx, carrier, rx])]
  rfl

theorem contend_busy {s : State} (busy : s.power.frontEnd ≠ .live ∨ s.wire.tx.isSome = true) : contend s = s := by
  apply if_neg
  rw [State.wireIdle, Bool.and_eq_true, Bool.and_eq_true, Bool.and_eq_true]
  rintro ⟨⟨live, idle, -⟩, -⟩
  obtain h | h := busy
  · exact h (of_decide_eq_true live)
  · rw [Option.isNone_iff_eq_none] at idle
    simp [idle] at h

/-! ## The obligation -/

/-- A carrier that changes nothing but its level. -/
theorem calm_carrier {s : State} (calm : Calm s) (c : Bool) (o : List Out) : Calm (onAir c s.wire s.noise o s) :=
  calm_onAir calm calm.dropped calm.rest.head rfl

theorem exec_carrierRise_idle {s : State} (goes : WireGoesOn s) (live : s.power.frontEnd = .live)
    (idle : s.wire.tx = none) :
    exec .carrierRise s = .next (onAir true
      { s.wire with round := none, rx := some ⟨s.now, true⟩, dropped := [] }
      { s.noise with a := busyTrack s.noise.a, b := busyTrack s.noise.b } [] s) := by
  let w : State := s.tell fun p => { p with carrier := true }
  have up : carrierUp w.quiet = _ := carrierUp_live (s := w.quiet) live idle
  have calm (window : w.power.window = none) : Calm (carrierUp w.quiet) := by
    have h := calm_of_goesOn goes window
    rw [up]
    exact calm_onAir (calm_carrier h true []) h.dropped h.rest.head (markBusy_tracked s)
  show Host.Outcome.next (onWire carrierUp w) = .next _
  rw [onWire_running (s := w) carrierUp (running_of_goesOn goes) calm, up]
  rfl

theorem exec_carrierRise_busy {s : State} (goes : WireGoesOn s)
    (busy : s.power.frontEnd ≠ .live ∨ s.wire.tx.isSome = true) :
    exec .carrierRise s = .next (onAir true { s.wire with dropped := [] } s.noise [] s) := by
  let w : State := s.tell fun p => { p with carrier := true }
  have up : carrierUp w.quiet = w.quiet := carrierUp_busy (s := w.quiet) busy
  have calm (window : w.power.window = none) : Calm (carrierUp w.quiet) := by
    rw [up]
    exact calm_carrier (calm_of_goesOn goes window) true []
  show Host.Outcome.next (onWire carrierUp w) = .next _
  rw [onWire_running (s := w) carrierUp (running_of_goesOn goes) calm, up]
  rfl

theorem exec_contentionPoint_idle {s : State} (goes : WireGoesOn s) (live : s.power.frontEnd = .live)
    (idle : s.wire.tx = none) :
    exec .contentionPoint s = .next (onAir false { s.wire.roundOpened with rx := none, dropped := [] } s.noise []
      s) := by
  let w : State := carrierOff s
  have up : contend (dropRx w.quiet) = _ := contend_live (s := dropRx w.quiet) live idle rfl rfl
  have calm (window : w.power.window = none) : Calm (contend (dropRx w.quiet)) := by
    have h := calm_of_goesOn goes window
    rw [up]
    exact calm_onAir (c := false) (w := { s.wire.roundOpened with rx := none }) (o := []) h h.dropped h.rest.head rfl
  show Host.Outcome.next (onWire (fun t => contend (dropRx t)) w) = .next _
  rw [onWire_running (s := w) _ (running_of_goesOn goes) calm, up]
  rfl

theorem exec_contentionPoint_busy {s : State} (goes : WireGoesOn s)
    (busy : s.power.frontEnd ≠ .live ∨ s.wire.tx.isSome = true) :
    exec .contentionPoint s = .next (onAir false { s.wire with rx := none, dropped := [] } s.noise [] s) := by
  let w : State := carrierOff s
  have up : contend (dropRx w.quiet) = dropRx w.quiet := contend_busy (s := dropRx w.quiet) busy
  have calm (window : w.power.window = none) : Calm (contend (dropRx w.quiet)) := by
    have h := calm_of_goesOn goes window
    rw [up]
    exact calm_onAir (c := false) (w := { s.wire with rx := none }) (o := []) h h.dropped h.rest.head rfl
  show Host.Outcome.next (onWire (fun t => contend (dropRx t)) w) = .next _
  rw [onWire_running (s := w) _ (running_of_goesOn goes) calm, up]
  rfl

/-- The end of a receive that is no checked frame. -/
theorem carrierEnd_unheard {s : State} (act : Tick → State → State) (calm : Calm s)
    (still : ∀ start, Hearing s start → act start (received s) = received s) :
    carrierEnd act s = received s := by
  have active : (carrierOff s).active = true := calm.active
  have dropped : Calm (received s) :=
    calm_onAir (c := false) (w := { s.wire with rx := none }) (o := []) calm calm.dropped calm.rest.head rfl
  rw [carrierEnd, calm.active, if_pos rfl, running_active active]
  have rx_eq : (carrierOff s).quiet.wire.rx = s.wire.rx := rfl
  rw [rx_eq]
  match hrx : s.wire.rx with
  | none =>
    have same : received s = (carrierOff s).quiet := by
      show ({ (carrierOff s).quiet with wire := { s.wire with rx := none } } : State) = _
      rw [← hrx]
      rfl
    rw [← same]
    exact finish_of_calm dropped
  | some ⟨start, true⟩ =>
    have same : act start (dropRx (carrierOff s).quiet) = received s := still start hrx
    simp only [if_true, same]
    exact finish_of_calm dropped
  | some ⟨start, false⟩ => exact finish_of_calm dropped

theorem carrierEnd_inactive {s : State} (act : Tick → State → State) (inactive : s.active = false) :
    carrierEnd act s = received s := by
  have inactive' : (dropRx (carrierOff s)).active = false := inactive
  rw [carrierEnd, inactive, if_neg (by decide), running_inactive inactive']
  rfl

theorem carrierEnd_damaged {s : State} {bytes : List Byte} {start : Tick} (calm : Calm s) (hear : Hearing s start)
    (damaged : receiveBytes bytes = .damaged) :
    carrierEnd (untoldFrame bytes) s = countError (received s) := by
  have active : (carrierOff s).active = true := calm.active
  have rx : (carrierOff s).quiet.wire.rx = some ⟨start, true⟩ := hear
  have counted : Calm (countError (received s)) :=
    calm_onAir (c := false) (w := { s.wire with rx := none, errors := min 65535 (s.wire.errors + 1) }) (o := []) calm
      calm.dropped calm.rest.head rfl
  rw [carrierEnd, calm.active, if_pos rfl, running_active active, rx]
  simp only [if_true, untoldFrame, damaged]
  exact finish_of_calm counted

/-- Settles O20. -/
theorem wireEvents : Obligations.WireEvents := by
  refine ⟨fun s goes => ⟨fun live idle => ?_, fun busy => ?_⟩, fun s calm => ⟨fun bytes => ?_, ?_⟩,
    fun s goes => ?_, ?_, fun s phase => ⟨?_, ?_⟩⟩
  · exact ⟨_, exec_carrierRise_idle goes live idle, rfl, rfl, rfl, onAir_only _ _ _ _ s⟩
  · exact ⟨_, exec_carrierRise_busy goes busy, rfl, rfl, onAir_only_wire _ _ _ s⟩
  · refine ⟨_, congrArg Host.Outcome.next (carrierEnd_unheard _ calm fun _ _ => rfl), rfl, rfl, received_only s⟩
  · intro bytes start hear damaged
    refine ⟨_, congrArg Host.Outcome.next (carrierEnd_damaged calm hear damaged), rfl, ?_⟩
    exact ((countError_only _).after (received_only s) (by decide) : Only [.pins, .wire, .outs] s _)
  · by_cases busy : s.power.frontEnd ≠ .live ∨ s.wire.tx.isSome = true
    · refine ⟨_, exec_contentionPoint_busy goes busy, onAir_only_wire _ _ _ s, rfl, ?_, fun _ => rfl⟩
      intro live idle
      simp [live, idle] at busy
    · simp only [not_or, not_not, Bool.not_eq_true, Option.isSome_eq_false_iff, Option.isNone_iff_eq_none] at busy
      obtain ⟨live, idle⟩ := busy
      refine ⟨_, exec_contentionPoint_idle goes live idle, onAir_only_wire _ _ _ s, rfl, fun _ _ => rfl, ?_⟩
      intro busy
      simp [live, idle] at busy
  · rintro s bytes c inactive (rfl | rfl)
    · exact ⟨_, congrArg Host.Outcome.next (carrierEnd_inactive _ inactive), rfl, rfl, rfl, received_only s⟩
    · exact ⟨_, congrArg Host.Outcome.next (carrierEnd_inactive _ inactive), rfl, rfl, rfl, received_only s⟩
  · exact ⟨_, congrArg Host.Outcome.next (onWire_stopped _ phase), rfl, rfl, onAir_only_pins _ _ s⟩
  · exact ⟨_, congrArg Host.Outcome.next (onWire_stopped _ phase), rfl, rfl, onAir_only_pins _ _ s⟩

end Sys2Proof.Machine
end

section
/-! PROOFS. A slot begins (R14, R16, R20, R21): whose head has the slot, whether its span is free, and what goes out. -/

namespace Sys2Proof.Machine

open Sys2Proof

/-! ## The span (R20, R21) -/

theorem blocks_eq_false_iff {now : Tick} {air : Nat} {slot : Option Track} :
    blocks now air slot = false ↔ ∀ k, slot = some k → k.firm = true →
      20 < elapsed now k.tNext ∨ (air : Int) < -(elapsed now k.tNext) - 12 := by
  cases slot with
  | none => simp [blocks]
  | some k => cases h : k.firm <;> simp [blocks, h]; grind

theorem mayStart_iff {s : State} {e : TxEntry} :
    mayStart s e = true ↔ SpanFree s (airtime (payloadBytes (startContents s e.body)).length) ∧
      ∀ w, s.power.window = some w →
        elapsed s.now w + airtime (payloadBytes (startContents s e.body)).length ≤ 800 := by
  have spans : SpanFree s (airtime (payloadBytes (startContents s e.body)).length) ↔
      blocks s.now (airtime (payloadBytes (startContents s e.body)).length) s.noise.a = false ∧
      blocks s.now (airtime (payloadBytes (startContents s e.body)).length) s.noise.b = false := by
    rw [blocks_eq_false_iff, blocks_eq_false_iff, SpanFree]
    exact ⟨fun h => ⟨fun k hk => h k (.inl hk), fun k hk => h k (.inr hk)⟩,
      fun h k hk => hk.elim (h.1 k) (h.2 k)⟩
  rw [mayStart, payloadNow_eq, spans]
  match s.power.window with
  | none => simp
  | some w => simp only [Bool.and_eq_true, Bool.not_eq_true', decide_eq_true_eq, Option.some.injEq, forall_eq',
      show ((Config.gaspTime : Int)) = 800 from rfl]

/-! ## Whose slot it is (R14, R16) -/

theorem slotOpen_iff {s : State} {slot : Nat} (running : s.phase = .running) :
    slotOpen s slot = true ↔ SlotOpens s slot := by
  unfold slotOpen SlotOpens State.live State.wireIdle
  match s.wire.round with
  | none => simp
  | some r =>
    simp only [Bool.and_eq_true, decide_eq_true_eq, Option.isNone_iff_eq_none, Bool.not_eq_true', running,
      Option.some.injEq, exists_eq_left', true_and, and_assoc]
    exact ⟨fun ⟨live, tx, carrier, rx, le, next⟩ => ⟨live, tx, rx, carrier, le, next⟩,
      fun ⟨live, tx, rx, carrier, le, next⟩ => ⟨live, tx, carrier, rx, le, next⟩⟩

theorem slotClass_slotOf {s : State} {c : FrameClass} {e : TxEntry} (head : (s.wire.queue c).head? = some e) :
    slotClass s (slotOf e c) = some c := by
  cases c with
  | voice => rfl
  | control => rfl
  | data =>
    obtain ⟨rest, data⟩ : ∃ rest, s.wire.data = e :: rest := List.head?_eq_some_iff.mp head
    rw [slotOf, Nat.add_comm]
    simp [slotClass, data]

theorem slotOf_of_slotClass {s : State} {c : FrameClass} {e : TxEntry} {slot : Nat} (has : slotClass s slot = some c)
    (head : (s.wire.queue c).head? = some e) : slot = slotOf e c := by
  match slot with
  | 0 => cases has; rfl
  | 1 => cases has; rfl
  | k + 2 =>
    simp only [slotClass] at has
    split at has
    · next f rest data =>
      split at has
      · next hk =>
        cases has
        have same : f = e := by simpa [Wire.queue, data] using head
        rw [slotOf, ← same, hk, Nat.add_comm]
      · cases has
    · cases has

/-- Outside the last-gasp window the head of the slot's class has the slot. -/
theorem slotHead_eq_head {s : State} {c : FrameClass} {e : TxEntry} (window : s.power.window = none)
    (head : (s.wire.queue c).head? = some e) (sit : e.sitOut = 0) (dst : e.dst.isSome = true) :
    slotHead s (slotOf e c) = some (c, e) := by
  simp [slotHead, slotClass_slotOf head, contender, window, head, sit, dst]

theorem slotHead_eq_none {s : State} {slot : Nat} (window : s.power.window = none)
    (none_ready : ∀ c e, (s.wire.queue c).head? = some e → slot = slotOf e c → e.sitOut ≠ 0 ∨ e.dst = none) :
    slotHead s slot = none := by
  unfold slotHead
  match has : slotClass s slot with
  | none => rfl
  | some c =>
    simp only [contender, window, Option.isSome_none, Bool.false_eq_true, if_false]
    match head : (s.wire.queue c).head? with
    | none => rfl
    | some e =>
      have waits := none_ready c e head (slotOf_of_slotClass has head)
      simpa [imp_iff_not_or] using waits

/-- In the last-gasp window the LASTGASP alone has a slot, slot 1 (R21). -/
theorem slotHead_gasp {s : State} {e : TxEntry} (window : s.power.window.isSome = true)
    (found : (s.wire.control.find? fun e => isGasp e.body) = some e) (sit : e.sitOut = 0) (dst : e.dst.isSome = true) :
    slotHead s 1 = some (.control, e) := by
  simp [slotHead, slotClass, contender, window, found, sit, dst]

theorem eq_one_of_slotClass_control {s : State} {slot : Nat} (has : slotClass s slot = some .control) : slot = 1 := by
  match slot with
  | 0 => cases has
  | 1 => rfl
  | k + 2 =>
    simp only [slotClass] at has
    split at has
    · split at has <;> cases has
    · cases has

theorem slotHead_no_gasp {s : State} {slot : Nat} (window : s.power.window.isSome = true)
    (other : slot ≠ 1 ∨ (s.wire.control.find? fun e => isGasp e.body) = none) : slotHead s slot = none := by
  unfold slotHead
  match has : slotClass s slot with
  | none => rfl
  | some .voice => simp [contender, window]
  | some .data => simp [contender, window]
  | some .control =>
    have none_found := other.resolve_left fun h => h (eq_one_of_slotClass_control has)
    simp [contender, window, none_found]

/-! ## What a slot does -/

/-- The slot passes. -/
def slotPassed (slot : Nat) (s : State) : State := s.modWire fun w => { w with round := some ⟨slot + 1⟩ }

theorem slotBegin_start {s : State} {slot : Nat} {c : FrameClass} {e : TxEntry} (opens : SlotOpens s slot)
    (head : slotHead s slot = some (c, e)) (may : mayStart s e = true) : slotBegin slot s = startFrame c e s := by
  simp [slotBegin, (slotOpen_iff opens.1).mpr opens, head, may]

theorem slotBegin_aside {s : State} {slot : Nat} {c : FrameClass} {e : TxEntry} (opens : SlotOpens s slot)
    (head : slotHead s slot = some (c, e)) (may : mayStart s e = false) : slotBegin slot s = slotPassed slot s := by
  simp [slotBegin, (slotOpen_iff opens.1).mpr opens, head, may, slotPassed]

theorem slotBegin_passes {s : State} {slot : Nat} (opens : SlotOpens s slot) (head : slotHead s slot = none) :
    slotBegin slot s = slotPassed slot s := by
  simp [slotBegin, (slotOpen_iff opens.1).mpr opens, head, slotPassed]

theorem slotBegin_closed {s : State} {slot : Nat} (running : s.phase = .running) (closed : ¬ SlotOpens s slot) :
    slotBegin slot s = s := by
  simp [slotBegin, mt (slotOpen_iff running).mp closed]

/-- What a started frame leaves of the queues: the contender is in transmission. -/
theorem startFrame_eq (c : FrameClass) (e : TxEntry) (s : State) : startFrame c e s =
    onAir s.pins.carrier
      { s.wire.setQueue (updFirst (contenderTest s) (fun e => { e with inTx := true }) (s.wire.queue c)) c with
        tx := some ⟨c, bytesNow s e, some s.now⟩, round := none }
      { s.noise with a := busyTrack s.noise.a, b := busyTrack s.noise.b } (s.outs ++ [.wireFrame (bytesNow s e)])
        s := by
  cases c <;> rfl

theorem bytesNow_eq (s : State) (e : TxEntry) :
    bytesNow s e = frameBytes s.own (e.dst.getD 0) (.listed s.hold.state) (startContents s e.body) := by
  rw [bytesNow, payloadNow_eq]

/-- The head of the data queue is addressed or in transmission after a start too. -/
theorem headSettled_startFrame {s : State} {c : FrameClass} {e : TxEntry} (head : headSettled s = true) :
    headSettled (startFrame c e s) = true := by
  cases c
  case data =>
    simp only [headSettled] at head ⊢
    show (match updFirst (contenderTest s) _ s.wire.data with | e :: _ => e.dst.isSome || e.inTx | [] => true) = true
    cases data : s.wire.data with
    | nil => rfl
    | cons f rest =>
      rw [data] at head
      rw [updFirst]
      by_cases hit : contenderTest s f = true
      · simp [hit]
      · simpa [hit] using head
  all_goals exact head

theorem calm_startFrame {s : State} {c : FrameClass} {e : TxEntry} (calm : Calm s) : Calm (startFrame c e s) := by
  have head := headSettled_startFrame (c := c) (e := e) calm.rest.head
  rw [startFrame_eq] at head ⊢
  refine calm_onAir calm ?_ head (markBusy_tracked s)
  cases c <;> exact calm.dropped

theorem answers_slotPassed {s : State} {slot : Nat} (calm : Calm s)
    (passes : slotBegin slot s.quiet = slotPassed slot s.quiet) :
    Answers (.slotBegin slot) s fun t =>
      t.wire = { s.wire with round := some ⟨slot + 1⟩ } ∧ t.outs = [] ∧ Only [.wire, .outs] s t := by
  refine ⟨_, congrArg Host.Outcome.next (onWire_calm (slotBegin _) calm.active ?_), ?_⟩
  · rw [passes]
    exact calm_onAir (c := s.pins.carrier) (w := { s.wire with round := some ⟨slot + 1⟩ }) (o := []) calm
      calm.dropped calm.rest.head rfl
  · rw [passes]
    refine ⟨rfl, rfl, ?_⟩
    intro p hp
    cases p <;> first | rfl | exact absurd (by decide) hp

/-- Settles O35. -/
theorem slotBegins : Obligations.SlotBegins := by
  refine ⟨?_, ?_, ?_, ?_⟩
  · rintro s slot c e calm opens head sit dst rfl
    have has : slotHead s.quiet (slotOf e c) = some (c, e) := slotHead_eq_head (s := s.quiet) calm.noWindow head sit dst
    have opens' : SlotOpens s.quiet (slotOf e c) := opens
    refine ⟨fun free => ?_, fun blocked => ?_⟩
    · have may : mayStart s.quiet e = true := mayStart_iff.mpr ⟨free, fun w hw => by
        rw [show s.quiet.power.window = none from calm.noWindow] at hw
        cases hw⟩
      have starts := slotBegin_start opens' has may
      refine ⟨_, congrArg Host.Outcome.next (onWire_calm (slotBegin _) calm.active ?_), ?_⟩
      · rw [starts]
        exact calm_startFrame (Calm.quiet calm)
      · rw [starts, startFrame_eq, bytesNow_eq]
        refine ⟨rfl, rfl, rfl, ?_⟩
        rw [← bytesNow_eq, ← startFrame_eq]
        exact (startFrame_only c e s.quiet).after ((State.quiet_only s).mono (by decide)) (by decide)
    · have may : mayStart s.quiet e = false := by
        rw [Bool.eq_false_iff]
        exact fun h => blocked (mayStart_iff.mp h).1
      exact answers_slotPassed calm (slotBegin_aside opens' has may)
  · intro s slot calm opens waits
    have opens' : SlotOpens s.quiet slot := opens
    exact answers_slotPassed calm (slotBegin_passes opens' (slotHead_eq_none (s := s.quiet) calm.noWindow waits))
  · intro s slot calm closed
    have still : slotBegin slot s.quiet = s.quiet := slotBegin_closed (s := s.quiet) calm.running closed
    refine ⟨_, congrArg Host.Outcome.next (onWire_calm (slotBegin _) calm.active ?_), ?_⟩
    · rw [still]
      exact Calm.quiet calm
    · rw [still]
      exact ⟨State.quiet_only s, rfl⟩
  · intro s slot w window opens
    have opens' : SlotOpens s.quiet slot := opens
    have isSome : s.quiet.power.window.isSome = true := by rw [show s.quiet.power.window = some w from window]; rfl
    have run : exec (.slotBegin slot) s = .next (clearNotices (slotBegin slot s.quiet)) :=
      congrArg Host.Outcome.next (onWire_window (slotBegin slot) opens.1 isSome)
    refine ⟨?_, fun other => ⟨_, run, ?_⟩⟩
    · rintro e rfl found sit dst
      have has := slotHead_gasp (s := s.quiet) isSome found sit dst
      refine ⟨fun free fits => ⟨_, run, ?_⟩, fun blocked => ⟨_, run, ?_⟩⟩
      · have may : mayStart s.quiet e = true := mayStart_iff.mpr ⟨free, fun v hv => by
          rw [show s.quiet.power.window = some w from window] at hv
          cases hv
          exact fits⟩
        rw [slotBegin_start opens' has may, startFrame_eq, bytesNow_eq]
        exact ⟨rfl, rfl⟩
      · have may : mayStart s.quiet e = false := by
          rw [Bool.eq_false_iff]
          intro h
          obtain ⟨free, fits⟩ := mayStart_iff.mp h
          exact blocked.elim (· free) (not_lt.mpr (fits w window))
        rw [slotBegin_aside opens' has may]
        exact ⟨opens.2.2.1, rfl, rfl⟩
    · rw [slotBegin_passes opens' (slotHead_no_gasp isSome other)]
      exact ⟨opens.2.2.1, rfl, rfl, rfl, rfl⟩

end Sys2Proof.Machine
end

section
/-! PROOFS. The noise slots in time (R50 to R54, R58, R63): what setting a slot does, a miss, a borrowed slot's end, the
quiet windows, and an impulse that hits both slots. -/

namespace Sys2Proof.Machine

open Sys2Proof

/-! ## Setting a slot (R14, R58) -/

theorem contend_cases (s : State) : contend s = s ∨ contend s = s.modWire Wire.roundOpened := by
  unfold contend
  split
  · exact .inr rfl
  · exact .inl rfl

/-- The contents a slot takes, its window judged at the present time. -/
def slotPlaced (n : SlotName) (t : Option Track) (s : State) : Option Track :=
  t.map (placeWindow s.now (spanIdle s.wireIdle (s.noise.slot (otherSlot n))))

/-- The station with a slot set and no round opened by it. -/
def slotSet (n : SlotName) (t : Option Track) (s : State) : State :=
  s.modNoise fun q => q.setSlot (slotPlaced n t s) n

theorem putSlot_closes {n : SlotName} {t : Option Track} {s : State}
    (closes : closedIdle (s.noise.slot n) (slotPlaced n t s) = true)
    (other : openNow (s.noise.slot (otherSlot n)) = false) : putSlot n t s = contend (slotSet n t s) :=
  if_pos (by rw [Bool.and_eq_true]; exact ⟨closes, by rw [other]; rfl⟩)

theorem putSlot_keeps {n : SlotName} {t : Option Track} {s : State}
    (keeps : closedIdle (s.noise.slot n) (slotPlaced n t s) = false ∨ openNow (s.noise.slot (otherSlot n)) = true) :
    putSlot n t s = slotSet n t s :=
  if_neg (by
    rw [Bool.and_eq_true, Bool.not_eq_true']
    rintro ⟨closes, other⟩
    obtain h | h := keeps
    · exact Bool.false_ne_true (h.symm.trans closes)
    · exact Bool.false_ne_true (other.symm.trans h))

theorem putSlot_eq (n : SlotName) (t : Option Track) (s : State) :
    putSlot n t s = contend (slotSet n t s) ∨ putSlot n t s = slotSet n t s := by
  by_cases closes : closedIdle (s.noise.slot n) (slotPlaced n t s) = true
  · by_cases other : openNow (s.noise.slot (otherSlot n)) = true
    · exact .inr (putSlot_keeps (.inr other))
    · exact .inl (putSlot_closes closes (Bool.eq_false_iff.mpr other))
  · exact .inr (putSlot_keeps (.inl (Bool.eq_false_iff.mpr closes)))

theorem putSlot_noise (n : SlotName) (t : Option Track) (s : State) :
    (putSlot n t s).noise = s.noise.setSlot (slotPlaced n t s) n := by
  obtain h | h := putSlot_eq n t s
  · rw [h, (contend_only _).noise]
    rfl
  · rw [h]
    rfl

theorem putSlot_slot (n : SlotName) (t : Option Track) (s : State) :
    (putSlot n t s).noise.slot n = slotPlaced n t s := by
  rw [putSlot_noise, Noise.slot_setSlot_same]

theorem putSlot_slot_other {n m : SlotName} (t : Option Track) (s : State) (other : m ≠ n) :
    (putSlot n t s).noise.slot m = s.noise.slot m := by
  rw [putSlot_noise, Noise.slot_setSlot_other _ _ other]

theorem putSlot_wire (n : SlotName) (t : Option Track) (s : State) :
    (putSlot n t s).wire = s.wire ∨ (putSlot n t s).wire = s.wire.roundOpened := by
  obtain h | h := putSlot_eq n t s
  · rw [h]
    obtain c | c := contend_cases (slotSet n t s)
    · exact .inl (by rw [c]; rfl)
    · exact .inr (by rw [c]; rfl)
  · exact .inl (by rw [h]; rfl)

/-! ## The settled rules after a slot was set -/

theorem onAir_of_only {s t : State} (only : Only [.wire, .noise] s t) :
    t = onAir s.pins.carrier t.wire t.noise s.outs s := by
  rw [State.mk.injEq]
  exact ⟨only.phase, only.now, only.taps, only.straps, only.interface, only.cfg, only.pins, only.power, rfl, only.hold,
    rfl, only.sup, only.ports, only.call, only.fault, only.report, only.svc, only.draws, only.outs, only.pending⟩

theorem putSlot_data (n : SlotName) (t : Option Track) (s : State) : (putSlot n t s).wire.data = s.wire.data := by
  obtain h | h := putSlot_wire n t s <;> rw [h]
  rfl

theorem putSlot_dropped (n : SlotName) (t : Option Track) (s : State) :
    (putSlot n t s).wire.dropped = s.wire.dropped := by
  obtain h | h := putSlot_wire n t s <;> rw [h]
  rfl

theorem headSettled_of_data {s t : State} (data : t.wire.data = s.wire.data) (head : headSettled s = true) :
    headSettled t = true := (headSettled_congr data).trans head

/-- Of the noise tracks the level rules read the tracked count alone. -/
theorem calm_of_noise {s t : State} (calm : Calm s) (only : Only [.wire, .noise] s t)
    (data : t.wire.data = s.wire.data) (dropped : t.wire.dropped = s.wire.dropped)
    (tracked : t.noise.tracked = s.noise.tracked) : Calm t := by
  rw [onAir_of_only only]
  exact calm_onAir calm (dropped.trans calm.dropped) (headSettled_of_data (s := s) data calm.rest.head) tracked

/-- Where a slot was set, the tracked count is told and nothing else of the noise tracks changes (R59). -/
theorem finish_tracked {s t : State} (calm : Calm s) (only : Only [.wire, .noise] s t)
    (dropped : t.wire.dropped = s.wire.dropped) :
    (finish t).noise = t.noise ∧ (finish t).cond .noiseTracked = decide (0 < (finish t).noise.tracked) := by
  have first : FirstSettled t := by
    have f := calm.first
    rw [onAir_of_only only]
    refine ⟨f.eligible, f.degraded, f.holder, fun b hb => ?_⟩
    exact absurd (show b ∈ t.wire.dropped from hb) (by simp [dropped, calm.dropped])
  have up : StaysUp (clearNotices t) :=
    staysUp_congr (staysUp_of_calm calm) only.power only.ports (congrArg Hold.state only.hold)
      (congrArg Pins.battLow only.pins)
  have settled : finish t = settleRest (clearNotices t) := by rw [finish_eq, settleFirst_of first]
  have noise : (finish t).noise = t.noise := by
    rw [settled]
    exact (settleRest_only up).noise
  refine ⟨noise, ?_⟩
  rw [noise, settled, settleRest_cond up]
  show decide (0 < (settleDataHead (clearNotices t)).noise.tracked) = _
  rw [(settleDataHead_only _).noise]
  rfl

/-! ## The windows (R14, R58) -/

theorem firmCount_placeWindow (now : Tick) (idle : Bool) (t : Option Track) :
    firmCount (t.map (placeWindow now idle)) = firmCount t := by
  cases t <;> rfl

theorem tracked_refreshWindow (n : SlotName) (s : State) : (refreshWindow n s).noise.tracked = s.noise.tracked := by
  rw [refreshWindow, putSlot_noise]
  cases n <;> simp [Noise.tracked, Noise.setSlot, Noise.slot, slotPlaced, firmCount_placeWindow]

theorem calm_refreshWindow {s : State} (n : SlotName) (calm : Calm s) : Calm (refreshWindow n s) :=
  calm_of_noise calm (refreshWindow_only n s) (putSlot_data n _ s) (putSlot_dropped n _ s) (tracked_refreshWindow n s)

theorem inSpan_iff {now : Tick} {k : Track} :
    k.inSpan now = true ↔ k.firm = true ∧ -12 ≤ elapsed now k.tNext ∧ elapsed now k.tNext ≤ 20 := by
  simp [Track.inSpan, and_assoc]

theorem placeWindow_outside {now : Tick} {idle : Bool} {k : Track} (outside : k.inSpan now = false) :
    placeWindow now idle k = { k with winOpen := false, winIdle := false } := by
  simp [placeWindow, outside]

theorem placeWindow_opens {now : Tick} {idle : Bool} {k : Track} (shut : k.winOpen = false)
    (inside : k.inSpan now = true) : placeWindow now idle k = { k with winOpen := true, winIdle := idle } := by
  simp [placeWindow, shut, inside]

theorem spanIdle_eq (idle : Bool) (other : Option Track) :
    spanIdle idle other = (idle && other.all fun q => !q.winOpen || q.winIdle) := by
  cases other <;> simp [spanIdle]

/-- What a window's command answers at a station at which the wire goes on. -/
theorem exec_window {f : State → State} {s : State} {n : SlotName} (goes : WireGoesOn s)
    (due : f s.quiet = refreshWindow n s.quiet) :
    onWire f s = clearNotices (refreshWindow n s.quiet) := by
  rw [onWire_running f (running_of_goesOn goes) fun window => ?_, due]
  rw [due]
  exact calm_refreshWindow n (Calm.quiet (calm_of_goesOn goes window))

theorem windowMoved_only {s : State} (n : SlotName) :
    Only [.noise, .wire, .outs] s (clearNotices (refreshWindow n s.quiet)) :=
  (clearNotices_only _).after (((refreshWindow_only n s.quiet).after ((State.quiet_only s).mono (by decide))
    (by decide) :
    Only [.noise, .wire, .outs] s _)) (by decide)

theorem blank_eq (s : State) (n : SlotName) :
    s.blank = (s.holding && decide (s.sup.state ≠ .off) &&
      (openNow (s.noise.slot n) || openNow (s.noise.slot (otherSlot n)))) := by
  rw [State.blank, Noise.anyOpen]
  cases n
  · rfl
  · rw [Bool.or_comm (openNow _)]
    rfl

theorem slot_refreshWindow {n : SlotName} {s : State} {k : Track} (slot : s.noise.slot n = some k) :
    (refreshWindow n s).noise.slot n =
      some (placeWindow s.now (spanIdle s.wireIdle (s.noise.slot (otherSlot n))) k) := by
  rw [refreshWindow, putSlot_slot, slotPlaced, slot]
  rfl

theorem windowOpen_answers {s : State} {n : SlotName} {k : Track} (goes : WireGoesOn s) (slot : s.noise.slot n = some k)
    (shut : k.winOpen = false) (inside : k.inSpan s.now = true) :
    Answers (.quietWindowOpen n) s fun t =>
      t.noise.slot n = some { k with
        winOpen := true
        winIdle := s.wireIdle && (s.noise.slot (otherSlot n)).all fun q => !q.winOpen || q.winIdle } ∧
        t.blank = (s.holding && decide (s.sup.state ≠ .off)) ∧ t.wire = { s.wire with dropped := [] } ∧
        Only [.noise, .wire, .outs] s t := by
  have due : dueWindowOpen n s.quiet = true := by
    rw [dueWindowOpen_eq, show s.quiet.noise.slot n = some k from slot]
    exact Bool.and_eq_true_iff.mpr ⟨by rw [shut]; rfl, inside⟩
  have run : exec (.quietWindowOpen n) s = .next (clearNotices (refreshWindow n s.quiet)) :=
    congrArg Host.Outcome.next (exec_window goes (if_pos due))
  have opened : (refreshWindow n s.quiet).noise.slot n = _ := slot_refreshWindow (s := s.quiet) slot
  rw [show s.quiet.now = s.now from rfl, placeWindow_opens shut inside, spanIdle_eq] at opened
  have only := windowMoved_only (s := s) n
  refine ⟨_, run, opened, ?_, ?_, only⟩
  · have open_n : openNow ((clearNotices (refreshWindow n s.quiet)).noise.slot n) = true := by
      rw [show (clearNotices (refreshWindow n s.quiet)).noise = (refreshWindow n s.quiet).noise from rfl, opened]
      rfl
    rw [blank_eq _ n, open_n, State.holding, only.hold, only.sup, Bool.true_or, Bool.and_true]
    rfl
  · have keeps : refreshWindow n s.quiet = slotSet n (s.noise.slot n) s.quiet := by
      refine putSlot_keeps (.inl ?_)
      rw [show s.quiet.noise.slot n = some k from slot]
      simp [closedIdle, shut]
    rw [keeps]
    rfl

/-- What the end of a window answers: the span ends with the last window of it, and opens a round if it was idle. -/
theorem windowClose_answers {s : State} {n : SlotName} {k : Track} (goes : WireGoesOn s)
    (slot : s.noise.slot n = some k)
    (stands : k.winOpen = true) (outside : k.inSpan s.now = false) :
    Answers (.quietWindowClose n) s fun t =>
      t.noise.slot n = some { k with winOpen := false, winIdle := false } ∧
        t.blank = (s.holding && decide (s.sup.state ≠ .off) && openNow (s.noise.slot (otherSlot n))) ∧
        (k.winIdle = true → openNow (s.noise.slot (otherSlot n)) = false → s.power.frontEnd = .live →
          s.wireIdle = true → s.wire.rx = none → t.wire = { s.wire.roundOpened with dropped := [] }) ∧
        (k.winIdle = false ∨ openNow (s.noise.slot (otherSlot n)) = true → t.wire = { s.wire with dropped := [] }) ∧
        Only [.noise, .wire, .outs] s t := by
  have due : dueWindowClose n s.quiet = true := by
    rw [dueWindowClose_eq, show s.quiet.noise.slot n = some k from slot]
    refine Bool.and_eq_true_iff.mpr ⟨stands, ?_⟩
    show (!k.inSpan s.now) = true
    rw [outside]
    rfl
  have run : exec (.quietWindowClose n) s = .next (clearNotices (refreshWindow n s.quiet)) :=
    congrArg Host.Outcome.next (exec_window goes (if_pos due))
  have shut : (refreshWindow n s.quiet).noise.slot n = _ := slot_refreshWindow (s := s.quiet) slot
  rw [show s.quiet.now = s.now from rfl, placeWindow_outside outside] at shut
  have placed : slotPlaced n (s.quiet.noise.slot n) s.quiet = some { k with winOpen := false, winIdle := false } := by
    rw [← shut, refreshWindow, putSlot_slot]
  have closes : closedIdle (s.quiet.noise.slot n) (slotPlaced n (s.quiet.noise.slot n) s.quiet) = k.winIdle := by
    rw [placed, show s.quiet.noise.slot n = some k from slot]
    simp [closedIdle, stands, openNow]
  have only := windowMoved_only (s := s) n
  refine ⟨_, run, shut, ?_, ?_, ?_, only⟩
  · have shut_n : openNow ((clearNotices (refreshWindow n s.quiet)).noise.slot n) = false := by
      rw [show (clearNotices (refreshWindow n s.quiet)).noise = (refreshWindow n s.quiet).noise from rfl, shut]
      rfl
    have other : (clearNotices (refreshWindow n s.quiet)).noise.slot (otherSlot n) = s.noise.slot (otherSlot n) :=
      putSlot_slot_other _ _ (otherSlot_ne n)
    rw [blank_eq _ n, shut_n, other, State.holding, only.hold, only.sup, Bool.false_or]
    rfl
  · intro idle other live wireIdle rx
    obtain ⟨tx, carrier⟩ : s.wire.tx = none ∧ s.pins.carrier = false := by simpa [State.wireIdle] using wireIdle
    have round : refreshWindow n s.quiet = contend (slotSet n (s.quiet.noise.slot n) s.quiet) :=
      putSlot_closes (closes.trans idle) other
    rw [round, contend_live (s := slotSet n (s.quiet.noise.slot n) s.quiet) live tx carrier rx]
    rfl
  · intro goes_on
    rw [show refreshWindow n s.quiet = slotSet n (s.quiet.noise.slot n) s.quiet from
      putSlot_keeps (goes_on.imp closes.trans id)]
    rfl

/-! ## An impulse that hits both slots (R48, R53) -/

theorem clampPeriod_bounds (p : Int) : 160000 ≤ clampPeriod p ∧ clampPeriod p ≤ 640000 := by
  have low : Config.periodMin = 160000 := rfl
  have high : Config.periodMax = 640000 := rfl
  unfold clampPeriod
  split
  · omega
  · split <;> omega

/-- A prediction one period ahead lies in no quiet window. -/
theorem elapsed_next (now : Tick) (p : Int) : elapsed now (now + ticks (rounded (clampPeriod p))) < -12 := by
  have bounds := clampPeriod_bounds p
  have small : rounded (clampPeriod p) = (clampPeriod p + 4) / 8 := rfl
  have back : now - (now + ticks (rounded (clampPeriod p))) = -ticks (rounded (clampPeriod p)) := by
    rw [sub_add_cancel_left]
  rw [elapsed, back, ticks]
  have range : rounded (clampPeriod p) ≤ 80001 ∧ 20000 ≤ rounded (clampPeriod p) := by omega
  generalize rounded (clampPeriod p) = r at range
  have toInt : (BitVec.ofNat 32 r).toInt = r := by
    rw [BitVec.toInt_eq_toNat_of_lt] <;> simp <;> omega
  rw [BitVec.toInt_neg, toInt, Int.bmod_eq_of_le] <;> omega

/-- A slot after a hit: its next arrival is a period ahead, so its window is shut. -/
structure HitAhead (now : Tick) (old new : Track) : Prop where
  hit : hitTrack now old = some new
  outside : new.inSpan now = false
  firm : old.firm = true → 4 ≤ old.conf → new.firm = true
  wasOpen : new.winOpen = old.winOpen

theorem hitAhead {now : Tick} {k : Track} (low : -40 ≤ elapsed now k.tNext) (high : elapsed now k.tNext ≤ 40) :
    ∃ new, HitAhead now k new := by
  refine ⟨_, if_pos ⟨low, high⟩, ?_, ?_, rfl⟩
  · have ahead := elapsed_next now (k.period + elapsed now k.tNext)
    rw [Bool.eq_false_iff, ne_eq, inSpan_iff]
    rintro ⟨-, inside, -⟩
    exact absurd inside (not_le.mpr ahead)
  · intro _ conf
    simp only [Track.firm, Option.isSome_none, Bool.false_or, decide_eq_true_eq]
    omega

theorem putSlot_hit {n : SlotName} {k new : Track} {s : State} (ahead : HitAhead s.now k new) :
    (putSlot n (some new) s).noise.slot n = some { new with winOpen := false, winIdle := false } := by
  rw [putSlot_slot, slotPlaced, Option.map_some, placeWindow_outside ahead.outside]

theorem hitOne_eq {s : State} {n : SlotName} {k new : Track} (slot : s.noise.slot n = some k)
    (ahead : HitAhead s.now k new) : hitOne s.now s n = putSlot n (some new) s := by
  simp [hitOne, slot, hitSlot, ahead.hit]

/-- An impulse in both captures, in open windows over an idle wire, shuts both windows and opens a round. -/
theorem impulse_hits_both {s : State} {ka kb na nb : Track} (slotA : s.noise.a = some ka) (slotB : s.noise.b = some kb)
    (first : s.noise.lastImpulse = none) (hitA : HitAhead s.now ka na) (hitB : HitAhead s.now kb nb)
    (openB : kb.winOpen = true) (idleB : kb.winIdle = true) (live : s.power.frontEnd = .live)
    (idle : s.wireIdle = true) (rx : s.wire.rx = none) :
    (impulse s).wire = s.wire.roundOpened ∧
      (impulse s).noise.a = some { na with winOpen := false, winIdle := false } ∧
      (impulse s).noise.b = some { nb with winOpen := false, winIdle := false } := by
  let s' : State := s.modNoise fun q => { q with lastImpulse := some s.now }
  let s1 : State := putSlot .a (some na) s'
  have e1 : hitOne s.now s' .a = s1 := hitOne_eq (s := s') (n := .a) slotA hitA
  have s1_eq : s1 = slotSet .a (some na) s' := putSlot_keeps (.inr (by
    show openNow s.noise.b = true
    rw [slotB]
    exact openB))
  have shutA : s1.noise.slot .a = _ := putSlot_hit (n := .a) (s := s') hitA
  have slotB1 : s1.noise.slot .b = some kb := (putSlot_slot_other _ s' (by decide)).trans slotB
  have only1 : Only [.wire, .noise] s s1 := (putSlot_only .a (some na) s').after
    ((State.modNoise_only _ s).mono (by decide) : Only [.wire, .noise] s s') (by decide)
  have wire1 : s1.wire = s.wire := by rw [s1_eq]; rfl
  have e2 : hitOne s.now s1 .b = putSlot .b (some nb) s1 := by
    have now1 : s1.now = s.now := only1.now
    rw [← now1] at hitB ⊢
    exact hitOne_eq slotB1 hitB
  have hitB1 : HitAhead s1.now kb nb := only1.now ▸ hitB
  have shutB := putSlot_hit (n := .b) hitB1
  have impulse_eq : impulse s = putSlot .b (some nb) s1 := by
    have some_hit : ((hitSlot s.now s.noise.a).isSome || (hitSlot s.now s.noise.b).isSome) = true := by
      simp [slotA, hitSlot, hitA.hit]
    rw [impulse, first]
    simp only [accepted, if_true, some_hit]
    show hitOne s.now (hitOne s.now s' .a) .b = _
    rw [e1, e2]
  have closes : closedIdle (s1.noise.slot .b) (slotPlaced .b (some nb) s1) = true := by
    rw [← putSlot_slot, shutB, slotB1]
    simp [closedIdle, openB, idleB, openNow]
  obtain ⟨tx, carrier⟩ : s.wire.tx = none ∧ s.pins.carrier = false := by simpa [State.wireIdle] using idle
  have round : putSlot .b (some nb) s1 = contend (slotSet .b (some nb) s1) :=
    putSlot_closes closes (by rw [show otherSlot .b = .a from rfl, shutA]; rfl)
  rw [impulse_eq]
  refine ⟨?_, ?_, shutB⟩
  · rw [round, contend_live (s := slotSet .b (some nb) s1) (by rw [← live]; exact congrArg Power.frontEnd only1.power)
      ((congrArg Wire.tx wire1).trans tx) ((congrArg Pins.carrier only1.pins).trans carrier)
      ((congrArg Wire.rx wire1).trans rx)]
    show s1.wire.roundOpened = _
    rw [wire1]
  · exact (putSlot_slot_other _ s1 (by decide)).trans shutA

/-! ## The obligation -/

theorem captureExpiry_answers {s : State} {n : SlotName} {k : Track} (calm : Calm s) (slot : s.noise.slot n = some k)
    (due : 40 ≤ elapsed s.now k.tNext) :
    Answers (.captureExpiry n) s fun t =>
      t.noise.slot n = slotPlaced n (missTrack k) s.quiet ∧ t.cond .noiseTracked = decide (0 < t.noise.tracked) := by
  have isDue : dueCapture n s.quiet = true := by
    simp [dueCapture, slot, due]
  have step : captureExpiry n s.quiet = putSlot n (missTrack k) s.quiet := by
    rw [captureExpiry, if_pos isDue, show s.quiet.noise.slot n = some k from slot]
    rfl
  obtain ⟨noise, told⟩ := finish_tracked (Calm.quiet calm) (captureExpiry_only n s.quiet) (by
    rw [step, putSlot_dropped])
  refine ⟨_, congrArg Host.Outcome.next (running_active calm.active), ?_, told⟩
  rw [noise, step, putSlot_slot]

theorem refreshExpiry_answers {s : State} {n : SlotName} {k : Track} {l : Lender} (calm : Calm s)
    (slot : s.noise.slot n = some k) (lender : k.lender = some l) (due : 120000 ≤ elapsed s.now l.refresh) :
    Answers (.refreshExpiry n) s fun t =>
      t.noise.slot n = none ∧ t.cond .noiseTracked = decide (0 < t.noise.tracked) := by
  have isDue : dueRefresh n s.quiet = true := by
    rw [dueRefresh, show s.quiet.noise.slot n = some k from slot]
    simp only [lender]
    exact decide_eq_true due
  have step : refreshExpiry n s.quiet = putSlot n none s.quiet := if_pos isDue
  obtain ⟨noise, told⟩ := finish_tracked (Calm.quiet calm) (refreshExpiry_only n s.quiet) (by
    rw [step, putSlot_dropped])
  refine ⟨_, congrArg Host.Outcome.next (running_active calm.active), ?_, told⟩
  rw [noise, step, putSlot_slot]
  rfl

/-- Settles O39. -/
theorem slotsFollowTime : Obligations.SlotsFollowTime := by
  refine ⟨fun s n k calm slot => ⟨fun due => ?_, fun l lender due => refreshExpiry_answers calm slot lender due⟩,
    fun s n k goes slot => ⟨fun shut firm low high => ?_, fun stands late => ?_⟩, fun s n phase => ⟨?_, ?_⟩, ?_⟩
  · obtain ⟨t, run, slot_t, told⟩ := captureExpiry_answers calm slot due
    refine ⟨t, run, fun own weak => ?_, fun own strong => ?_, fun borrowed => ?_, told⟩
    · rw [slot_t, missTrack, own]
      simp [weak, slotPlaced]
    · rw [slot_t, missTrack, own]
      simp [not_le.mpr strong, slotPlaced, placeWindow]
    · rw [slot_t, missTrack, if_pos borrowed]
      rfl
  · obtain ⟨t, run, slot_t, rest⟩ := windowOpen_answers goes slot shut (inSpan_iff.mpr ⟨firm, low, high⟩)
    refine ⟨t, run, slot_t.trans ?_, rest⟩
    cases s.noise.slot (otherSlot n) <;> rfl
  · have outside : k.inSpan s.now = false := by
      rw [Bool.eq_false_iff, ne_eq, inSpan_iff]
      rintro ⟨-, -, inside⟩
      omega
    obtain ⟨t, run, slot_t, blank, round, keeps, only⟩ := windowClose_answers goes slot stands outside
    refine ⟨t, run, slot_t, ?_, round, keeps, only⟩
    intro m other
    have is_other : m = otherSlot n := by cases n <;> cases m <;> first | rfl | exact absurd rfl other
    rw [is_other]
    exact blank
  · exact congrArg Host.Outcome.next (onWire_stopped _ phase)
  · exact congrArg Host.Outcome.next (onWire_stopped _ phase)
  · intro s ka kb calm slotA slotB first both live idle rx
    obtain ⟨-, -, confA, lowA, highA⟩ := both ka (.inl rfl)
    obtain ⟨openB, idleB, confB, lowB, highB⟩ := both kb (.inr rfl)
    obtain ⟨na, hitA⟩ := hitAhead lowA highA
    obtain ⟨nb, hitB⟩ := hitAhead lowB highB
    obtain ⟨wire, a, b⟩ := impulse_hits_both (s := s.quiet) slotA slotB first hitA hitB openB idleB live idle rx
    have firmA : ka.firm = true := by simp [Track.firm, confA]
    have firmB : kb.firm = true := by simp [Track.firm, confB]
    have tracked : (impulse s.quiet).noise.tracked = s.quiet.noise.tracked := by
      have na_firm : ({ na with winOpen := false, winIdle := false } : Track).firm = true := hitA.firm firmA confA
      have nb_firm : ({ nb with winOpen := false, winIdle := false } : Track).firm = true := hitB.firm firmB confB
      rw [Noise.tracked, Noise.tracked, a, b, show s.quiet.noise.a = some ka from slotA,
        show s.quiet.noise.b = some kb from slotB]
      simp only [firmCount, na_firm, nb_firm, firmA, firmB]
    have settled : Calm (impulse s.quiet) := calm_of_noise (Calm.quiet calm) (impulse_only s.quiet)
      (by rw [wire]; rfl) (by rw [wire]; rfl) tracked
    have shut : (impulse s.quiet).noise.anyOpen = false := by
      rw [Noise.anyOpen, a, b]
      rfl
    have run : exec .impulseDetect s = .next (impulse s.quiet) := by
      refine congrArg Host.Outcome.next ((running_active calm.active).trans ?_)
      rw [show s.quiet.live = true from decide_eq_true live, if_pos rfl]
      exact finish_of_calm settled
    refine ⟨_, run, shut, ?_, wire⟩
    rw [State.blank, shut, Bool.and_false]

end Sys2Proof.Machine
end

section
/-! PROOFS. Link frames (R12, R80 to R85): the upstream transfer at the end of a command, the data queue's new entry and
the address of its head, and what a downstream frame does. -/

namespace Sys2Proof.Machine

open Sys2Proof

/-! ## The upstream transfer (R81) -/

/-- The station with SEND-OK's level, its supervisor and its outputs replaced. -/
def withUplink (sendOk : Bool) (u : Sup) (o : List Out) (s : State) : State :=
  { s with pins := { s.pins with sendOk := sendOk }, sup := u, outs := o }

theorem withUplink_only (b : Bool) (u : Sup) (o : List Out) (s : State) :
    Only [.pins, .sup, .outs] s (withUplink b u o s) := by
  intro p hp
  cases p <;> first | rfl | exact absurd (by decide) hp

/-- Where a command changed of a settled station the transfer alone, its end starts the next transfer, if it may. -/
theorem finish_withUplink {s : State} {b : Bool} {u : Sup} {o : List Out} (calm : Calm s)
    (state : u.state = s.sup.state) (mailbox : u.mailbox = s.sup.mailbox) :
    finish (withUplink b u o s) = startTransfer (withUplink b u o s) := by
  have first := calm.first
  have rest := calm.rest
  have dropped : (withUplink b u o s).wire.dropped = [] := calm.dropped
  have noted : FirstSettled (withUplink b u o s) :=
    .of_none first.eligible first.degraded first.holder dropped
  have offer : offerSettled (withUplink b u o s) = true := by
    have settled := rest.offer
    simp only [offerSettled] at settled ⊢
    simp only [show (withUplink b u o s).sup = u from rfl, state, mailbox]
    exact settled
  have core : CoreSettled (withUplink b u o s) :=
    ⟨rest.head, rest.conds, rest.idle, rest.reports, offer, rest.lamp, rest.tones⟩
  have begun := startTransfer_only (withUplink b u o s)
  have outpulse : outpulseSettled (startTransfer (withUplink b u o s)) = true := by
    rw [outpulseSettled, begun.call]
    exact rest.outpulse
  have loss : lossSettled (startTransfer (withUplink b u o s)) = true := by
    simp only [lossSettled, State.loopClosed, begun.call, begun.pins]
    exact rest.loss
  rw [finish_core noted core, clearNotices_of_none dropped, settleLoop, startOutpulse_of outpulse, settleLoss_of loss,
    clearNotices_of_none ((congrArg Wire.dropped begun.wire).trans dropped)]

/-- A transfer begins with the oldest frame of the queue (R81). -/
theorem startTransfer_withUplink {s : State} {u : Sup} {f : LinkFrame} {rest : List LinkFrame}
    (synced : u.state = .synced) (uplink : u.uplink = f :: rest) (free : u.upTransfer = none) :
    startTransfer (withUplink true u [] s) =
      withUplink true { u with uplink := rest, upTransfer := some f } [.upstream f] s :=
  startTransfer_begins (s := withUplink true u [] s) uplink
    (by simp [withUplink, synced, free])

theorem startTransfer_waits {s : State} (waits : s.sup.state ≠ .synced ∨ s.pins.sendOk = false ∨ s.sup.uplink = [] ∨
    s.sup.upTransfer.isSome = true) : startTransfer s = s := by
  refine startTransfer_of ?_
  rw [transferSettled]
  obtain h | h | h | h := waits
  · simp [h]
  · simp [h]
  · simp [h]
  · simp [Option.isNone_eq_false_iff.mpr h]

/-! ## The data queue (R12) -/

theorem finish_head {s : State} (f : FirstSettled s) (dropped : s.wire.dropped = [])
    (again : Calm (settleDataHead s)) : finish s = settleDataHead s := by
  have fixed := settleDataHead_of again.rest.head
  have twice : settleRest s = settleRest (settleDataHead s) := by
    rw [settleRest, settleRest, settleMiddle, settleMiddle, fixed]
  rw [finish_eq, settleFirst_of f, clearNotices_of_none dropped, twice, settleRest_of again.rest,
    clearNotices_of_none again.dropped]

theorem offerData_taken {s : State} {dst : Option Nat} {f : LinkFrame} (awake : s.halted = false)
    (full : s.full = true) (room : s.wire.data.length < 32) :
    offerData dst f s = s.modWire fun w => { w with data := w.data ++ [newEntry dst (.data f) s.now] } := by
  have room' : decide (Config.dataMax ≤ s.wire.data.length) = false :=
    decide_eq_false (not_le.mpr room)
  rw [offerData, awake, full, room']
  rfl

/-- The head of a data queue to which an addressed entry, or an entry behind others, came. -/
theorem headSettled_append {s t : State} {e : TxEntry} (data : t.wire.data = s.wire.data ++ [e])
    (head : headSettled s = true) (addressed : s.wire.data = [] → e.dst.isSome = true) : headSettled t = true := by
  rw [headSettled] at head ⊢
  rw [data]
  cases queue : s.wire.data with
  | nil => simp [addressed queue]
  | cons g rest =>
    rw [queue] at head
    exact head

/-! ## A link frame from the packet port (R12, R80, R82) -/

theorem linkSizeOk_iff {f : LinkFrame} : linkSizeOk f = true ↔ 14 ≤ f.length ∧ f.length ≤ 1536 := by
  simp [linkSizeOk]

/-- What a packet port that is not held back says of its station (R12, R82). -/
theorem taken_of_holdBack {s : State} (free : s.holdBack = false) (running : s.phase = .running) :
    s.full = true ∧ s.halted = false ∧
      (s.holding = true → s.sup.state = .synced ∧ s.sup.uplink.length < 32) ∧
      (s.holding = false → s.wire.data.length < 32) := by
  simp only [State.holdBack, running, Bool.and_eq_false_iff, Bool.or_eq_false_iff, Bool.not_eq_false'] at free
  obtain free | ⟨⟨full, awake⟩, room⟩ := free
  · exact absurd free (by decide)
  · refine ⟨full, awake, fun holding => ?_, fun idle => ?_⟩
    · rw [holding, if_pos rfl, Bool.or_eq_false_iff] at room
      exact ⟨not_not.mp (of_decide_eq_false room.1), not_le.mp (of_decide_eq_false room.2)⟩
    · rw [idle, if_neg (by decide), Bool.or_eq_false_iff] at room
      exact not_le.mp (of_decide_eq_false room.1)

/-- The queue as it takes a frame from the packet port, its head addressed to the holder at once (R12, log 32). -/
def dataJoined (h : Nat) (f : LinkFrame) (s : State) : State :=
  s.modWire fun w => { w with
    data := w.data ++ [⟨if w.data = [] then some h else none, .data f, s.now, 0, 0, 0, false, false⟩] }

theorem calm_dataAppend {s : State} (e : TxEntry) (calm : Calm s) (addressed : s.wire.data = [] → e.dst.isSome = true) :
    Calm (s.modWire fun w => { w with data := w.data ++ [e] }) :=
  calm_onAir (c := s.pins.carrier) (w := { s.wire with data := s.wire.data ++ [e] }) (q := s.noise) (o := s.outs) calm
    calm.dropped (headSettled_append rfl calm.rest.head addressed) rfl

/-- A first entry without a destination takes the known holder's. -/
theorem settleDataHead_single {s : State} {h : Nat} {e : TxEntry} (data : s.wire.data = [e]) (dst : e.dst = none)
    (waits : e.inTx = false) (known : s.hold.known = some h) (other : h ≠ s.own) :
    settleDataHead s = s.modWire fun w => { w with data := [{ e with dst := some h }] } := by
  have step : addressHead s = s.modWire fun w => { w with data := [{ e with dst := some h }] } := by
    rw [addressHead, data]
    simp [dst, waits, known, other]
  rw [settleDataHead, data, List.foldl_cons, List.foldl_nil, step]

theorem finish_offerData {s : State} {h : Nat} (f : LinkFrame) (calm : Calm s) (awake : s.halted = false)
    (full : s.full = true) (room : s.wire.data.length < 32) (known : s.hold.known = some h) (other : h ≠ s.own) :
    finish (offerData none f s) = dataJoined h f s := by
  have first := calm.first
  rw [offerData_taken awake full room]
  let w : State := s.modWire fun w => { w with data := w.data ++ [newEntry none (.data f) s.now] }
  by_cases empty : s.wire.data = []
  · have joined : dataJoined h f s = s.modWire fun w =>
      { w with data := w.data ++ [newEntry (some h) (.data f) s.now] } := by
      simp [dataJoined, State.modWire, empty, newEntry]
    have single : w.wire.data = [newEntry none (.data f) s.now] := by
      show s.wire.data ++ _ = _
      rw [empty, List.nil_append]
    have head : settleDataHead w = dataJoined h f s := by
      rw [settleDataHead_single single rfl rfl known other, joined]
      simp [w, State.modWire, empty, newEntry]
    have again : Calm (settleDataHead w) := by
      rw [head, joined]
      exact calm_dataAppend _ calm fun _ => rfl
    have noted : FirstSettled w := .of_none first.eligible first.degraded first.holder calm.dropped
    exact (finish_head noted calm.dropped again).trans head
  · have joined : dataJoined h f s = w := by
      simp [w, dataJoined, State.modWire, empty, newEntry]
    rw [joined]
    exact finish_of_calm (calm_dataAppend _ calm fun h => absurd h empty)

/-- A command whose step leaves a settled station's next state settled. -/
theorem answers_settled {s : State} {c : Instr} {f : State → State} {P : State → Prop} (calm : Calm s)
    (run : exec c s = .next (running f s)) (settled : Calm (f s.quiet)) (h : P (f s.quiet)) : Answers c s P :=
  answers_of (run.trans (congrArg Host.Outcome.next ((running_active calm.active).trans (finish_of_calm settled)))) h

theorem finish_uplinkTake_own {s : State} (f : LinkFrame) (calm : Calm s) :
    finish (uplinkTake s.own f s) = startTransfer (uplinkTake s.own f s) := by
  have shape : uplinkTake s.own f s = withUplink s.pins.sendOk (uplinkTake s.own f s).sup s.outs s := rfl
  rw [shape]
  exact finish_withUplink calm rfl rfl

theorem packetReceive_taken {s : State} {f : LinkFrame} (size : 14 ≤ f.length ∧ f.length ≤ 1536)
    (free : s.holdBack = false) :
    packetReceive f s = if s.holding then uplinkTake s.own f s else offerData none f s := by
  rw [packetReceive, linkSizeOk_iff.mpr size, free]
  rfl

theorem packetReceive_answers (s : State) (f : LinkFrame) (calm : Calm s) :
    (f.length < 14 ∨ 1536 < f.length → Answers (.packetReceive f) s fun t => Only [.outs] s t) ∧
     (14 ≤ f.length → f.length ≤ 1536 → s.holdBack = false →
       (∀ h, s.holding = false → s.hold.known = some h → h ≠ s.own → Answers (.packetReceive f) s fun t =>
         t.wire.data = s.wire.data ++ [⟨if s.wire.data = [] then some h else none, .data f, s.now, 0, 0, 0, false,
           false⟩] ∧ Only [.wire, .outs] s t) ∧
       (s.holding = true → Answers (.packetReceive f) s fun t =>
         t.sup.map = learn ((f.drop 6).take 6) s.own s.now s.sup.map ∧
           (if s.pins.sendOk = true ∧ s.sup.upTransfer = none then t.sup.upTransfer = some f ∧ t.sup.uplink = []
           else t.sup.uplink = s.sup.uplink ++ [f]) ∧ Only [.sup, .outs] s t)) := by
  have run : exec (.packetReceive f) s = .next (finish (packetReceive f s.quiet)) :=
    congrArg Host.Outcome.next (running_active calm.active)
  refine ⟨fun bad => ?_, fun low high free => ?_⟩
  · have refused : packetReceive f s.quiet = s.quiet := by
      refine if_neg ?_
      rw [Bool.and_eq_true, linkSizeOk_iff]
      omega
    refine answers_of run ?_
    rw [refused, finish_of_calm (Calm.quiet calm)]
    exact State.quiet_only s
  · have taken := packetReceive_taken (s := s.quiet) ⟨low, high⟩ free
    obtain ⟨full, awake, holder, data⟩ := taken_of_holdBack free calm.running
    refine ⟨fun h idle known other => ?_, fun holding => ?_⟩
    · have offered : packetReceive f s.quiet = offerData none f s.quiet :=
        taken.trans (if_neg (by rw [show s.quiet.holding = s.holding from rfl, idle]; decide))
      refine answers_of run ?_
      rw [offered, finish_offerData (s := s.quiet) f (Calm.quiet calm) awake full (data idle) known other]
      refine ⟨rfl, ?_⟩
      exact (State.modWire_only _ s.quiet |>.mono (by decide) : Only [.wire, .outs] s.quiet _).after
        ((State.quiet_only s).mono (by decide)) (by decide)
    · have queued : packetReceive f s.quiet = uplinkTake s.quiet.own f s.quiet := taken.trans (if_pos holding)
      obtain ⟨synced, room⟩ := holder holding
      obtain ⟨map, -, uplink⟩ := sup_uplinkTake s.quiet.own f (Calm.quiet calm)
      have uplink : if s.pins.sendOk = true ∧ s.sup.upTransfer = none then _ else _ := uplink synced room
      refine answers_of run ?_
      rw [queued]
      refine ⟨map, ?_, ?_⟩
      · by_cases free : s.pins.sendOk = true ∧ s.sup.upTransfer = none
        · rw [if_pos free] at uplink ⊢
          exact ⟨uplink.1, uplink.2.1⟩
        · rw [if_neg free] at uplink ⊢
          exact uplink.1
      · rw [finish_uplinkTake_own f (Calm.quiet calm)]
        exact (startTransfer_only _).after (((State.modSup_only _ _).mono (by decide) :
          Only [.sup, .outs] s.quiet _).after ((State.quiet_only s).mono (by decide)) (by decide)) (by decide)

/-! ## A downstream frame (R85) -/

theorem downstreamFrame_discarded {s : State} {began : Tick} {f : LinkFrame}
    (bad : s.sup.state ≠ .synced ∨ (∃ x, s.sup.syncedAt = some x ∧
      elapsed began x < 0) ∨ f.length < 14 ∨ 1536 < f.length) :
    downstreamFrame began f s = s := by
  refine if_neg ?_
  rw [Bool.and_eq_true, Bool.and_eq_true, linkSizeOk_iff, decide_eq_true_eq]
  rintro ⟨⟨synced, present⟩, size⟩
  obtain h | ⟨x, at_x, past⟩ | h := bad
  · exact h synced
  · rw [beganSynced, at_x] at present
    exact absurd (of_decide_eq_true present) (not_le.mpr past)
  · omega

theorem downstreamFrame_taken {s : State} {began : Tick} {f : LinkFrame} (synced : s.sup.state = .synced)
    (present : ∀ x, s.sup.syncedAt = some x → 0 ≤ elapsed began x) (low : 14 ≤ f.length) (high : f.length ≤ 1536) :
    downstreamFrame began f s = routeDown f s := by
  refine if_pos ?_
  rw [Bool.and_eq_true, Bool.and_eq_true, linkSizeOk_iff, decide_eq_true_eq]
  refine ⟨⟨synced, ?_⟩, low, high⟩
  unfold beganSynced
  split
  · next x at_x => exact decide_eq_true (present x at_x)
  · rfl

/-- A frame whose destination the map does not know, or a group's, goes to every station and to the packet port. -/
theorem routeDown_all {s : State} {f : LinkFrame}
    (unknown : (f.headD 0).getLsbD 0 = true ∨ s.sup.map.all (fun e => decide (e.addr ≠ f.take 6)) = true) :
    routeDown f s = offerData (some 0) f (s.emit (.packet f)) := by
  have group : isGroup (linkDst f) = (f.headD 0).getLsbD 0 := by
    cases f <;> rfl
  have missing : (if isGroup (linkDst f) then none else s.sup.map.find? fun e => decide (e.addr = linkDst f)) =
    none := by
    rw [group]
    obtain h | h := unknown
    · rw [if_pos h]
    · split
      · rfl
      · rw [List.find?_eq_none]
        rw [List.all_eq_true] at h
        exact fun e he hit => of_decide_eq_true (h e he) (of_decide_eq_true hit)
  rw [routeDown, missing]

theorem routeDown_known {s : State} {f : LinkFrame} {e : MapEntry} (single : (f.headD 0).getLsbD 0 = false)
    (found : s.sup.map.find? (fun e => decide (e.addr = f.take 6)) = some e) :
    routeDown f s = if e.station = s.own then s.emit (.packet f) else offerData (some e.station) f s := by
  have group : isGroup (linkDst f) = (f.headD 0).getLsbD 0 := by
    cases f <;> rfl
  have known : (if isGroup (linkDst f) then none else s.sup.map.find? fun e => decide (e.addr = linkDst f)) =
    some e := by
    rw [group, single, if_neg (by decide)]
    exact found
  rw [routeDown, known]

theorem calm_packet {s : State} (f : LinkFrame) (calm : Calm s) : Calm (s.emit (.packet f)) :=
  calm_onAir (c := s.pins.carrier) (w := s.wire) (q := s.noise) (o := s.outs ++ [.packet f]) calm calm.dropped
    calm.rest.head rfl

theorem calm_offerData {s : State} {dst : Nat} (f : LinkFrame) (calm : Calm s) (awake : s.halted = false)
    (full : s.full = true) (room : s.wire.data.length < 32) : Calm (offerData (some dst) f s) := by
  rw [offerData_taken awake full room]
  exact calm_dataAppend _ calm fun _ => rfl

theorem downstreamFrame_answers (s : State) (began : Tick) (f : LinkFrame) (calm : Calm s)
    (synced : s.sup.state = .synced) (present : ∀ x, s.sup.syncedAt = some x → 0 ≤ elapsed began x)
    (low : 14 ≤ f.length) (high : f.length ≤ 1536) (power : s.power.state = .full) (awake : s.halted = false)
    (room : s.wire.data.length < 32) :
    Answers (.downstreamFrame began f) s fun t =>
       t.sup = s.sup ∧
       (((f.headD 0).getLsbD 0 = true ∨ s.sup.map.all (fun e => decide (e.addr ≠ f.take 6)) = true) →
         .packet f ∈ t.outs ∧ t.wire.data = s.wire.data ++ [newEntry (some 0) (.data f) s.now]) ∧
       (∀ e, (f.headD 0).getLsbD 0 = false → s.sup.map.find? (fun e => decide (e.addr = f.take 6)) = some e →
         (e.station = s.own → .packet f ∈ t.outs ∧ t.wire.data = s.wire.data) ∧
         (e.station ≠ s.own → .packet f ∉ t.outs ∧
           t.wire.data = s.wire.data ++ [newEntry (some e.station) (.data f) s.now])) := by
  have full : s.full = true := decide_eq_true power
  have calm' := Calm.quiet calm
  have run : exec (.downstreamFrame began f) s = .next (running (downstreamFrame began f) s) := rfl
  have taken : downstreamFrame began f s.quiet = routeDown f s.quiet :=
    downstreamFrame_taken (s := s.quiet) synced present low high
  by_cases unknown : (f.headD 0).getLsbD 0 = true ∨ s.sup.map.all (fun e => decide (e.addr ≠ f.take 6)) = true
  · have sent := taken.trans (routeDown_all (s := s.quiet) unknown)
    refine answers_settled calm run (by rw [sent]; exact calm_offerData f (calm_packet f calm') awake full room) ?_
    rw [sent, offerData_taken (s := s.quiet.emit (.packet f)) awake full room]
    refine ⟨rfl, fun _ => ⟨List.mem_append_right _ (List.mem_singleton.mpr rfl), rfl⟩, fun e single found => ?_⟩
    obtain h | h := unknown
    · exact absurd (h.symm.trans single) (by decide)
    · rw [List.all_eq_true] at h
      exact absurd (List.find?_some found) (by simpa using h e (List.mem_of_find?_eq_some found))
  · obtain ⟨single, known⟩ := not_or.mp unknown
    rw [Bool.not_eq_true] at single known
    obtain ⟨e, found⟩ : ∃ e, s.sup.map.find? (fun e => decide (e.addr = f.take 6)) = some e := by
      rw [← Option.isSome_iff_exists, List.find?_isSome]
      simpa using known
    have sent : downstreamFrame began f s.quiet = if e.station = s.own then _ else _ :=
      taken.trans (routeDown_known (s := s.quiet) single found)
    by_cases own : e.station = s.own
    · rw [if_pos own] at sent
      refine answers_settled calm run (by rw [sent]; exact calm_packet f calm') ?_
      rw [sent]
      refine ⟨rfl, fun h => ?_, fun e' _ found' => ?_⟩
      · exact absurd h unknown
      · cases found.symm.trans found'
        exact ⟨fun _ => ⟨List.mem_append_right _ (List.mem_singleton.mpr rfl), rfl⟩, fun h => absurd own h⟩
    · rw [if_neg own] at sent
      refine answers_settled calm run (by rw [sent]; exact calm_offerData f calm' awake full room) ?_
      rw [sent, offerData_taken (s := s.quiet) awake full room]
      refine ⟨rfl, fun h => ?_, fun e' _ found' => ?_⟩
      · exact absurd h unknown
      · cases found.symm.trans found'
        exact ⟨fun h => absurd h own, fun _ => ⟨List.not_mem_nil, rfl⟩⟩

/-! ## The obligation -/

/-- What the end of a command at SEND-OK's level `b` answers, where it starts no transfer or one. -/
theorem running_withUplink {s w : State} {f : State → State} {b : Bool} {u : Sup} {t : State} (calm : Calm s)
    (active : w.active = true) (shape : f w.quiet = withUplink b u [] s) (state : u.state = s.sup.state)
    (mailbox : u.mailbox = s.sup.mailbox) (begun : startTransfer (withUplink b u [] s) = t) : running f w = t := by
  rw [running_active active, shape, finish_withUplink calm state mailbox, begun]

theorem exec_sendOkRise {s t : State} (calm : Calm s) (begun : startTransfer (withUplink true s.sup [] s) = t) :
    exec .sendOkRise s = .next t :=
  congrArg Host.Outcome.next (running_withUplink (s := s) (w := s.tell fun p => { p with sendOk := true }) (f := id)
    calm calm.active rfl rfl rfl begun)

theorem exec_transferEnded {s t : State} {b : Bool} (calm : Calm s)
    (begun : startTransfer (withUplink b { s.sup with upTransfer := none } [] s) = t) :
    exec (.upstreamTransferEnd (.ended b)) s = .next t :=
  congrArg Host.Outcome.next (running_withUplink (s := s) (w := s.tell fun p => { p with sendOk := b })
    (f := transferEnd) calm calm.active rfl rfl rfl begun)

/-- Settles O37. -/
theorem linkFramesRouted : Obligations.LinkFramesRouted := by
  refine ⟨packetReceive_answers, fun s calm => ⟨fun f rest synced uplink free => ?_, fun waits => ?_, ?_,
    fun f rest synced uplink => ?_, ?_⟩, fun s began f calm bad => ?_, downstreamFrame_answers⟩
  · exact answers_of (exec_sendOkRise calm (startTransfer_withUplink (s := s) synced uplink free))
      ⟨rfl, rfl, withUplink_only _ _ _ s⟩
  · have still : startTransfer (withUplink true s.sup [] s) = withUplink true s.sup [] s :=
      startTransfer_waits (s := withUplink true s.sup [] s) (waits.imp_right .inr)
    refine answers_of (exec_sendOkRise calm still) ⟨rfl, fun p hp => ?_⟩
    cases p <;> first | rfl | exact absurd (by decide) hp
  · refine answers_of (congrArg Host.Outcome.next (upstreamTold_sendOkFell s)) ⟨rfl, rfl, fun p hp => ?_⟩
    cases p <;> first | rfl | exact absurd (by decide) hp
  · exact answers_of (exec_transferEnded calm
      (startTransfer_withUplink (s := s) (u := { s.sup with upTransfer := none }) synced uplink rfl))
      ⟨rfl, rfl, withUplink_only _ _ _ s⟩
  · have still := startTransfer_waits (s := withUplink false { s.sup with upTransfer := none } [] s) (.inr (.inl rfl))
    exact answers_of (exec_transferEnded calm still) ⟨rfl, rfl, withUplink_only _ _ _ s⟩
  · have discarded : downstreamFrame began f s.quiet = s.quiet := downstreamFrame_discarded (s := s.quiet) bad
    refine answers_settled calm rfl (by rw [discarded]; exact Calm.quiet calm) ?_
    rw [discarded]
    exact ⟨State.quiet_only s, rfl⟩

end Sys2Proof.Machine
end

section
/-! PROOFS. How a station starts (R13, R146, R161, R175 to R178): a power-up forgets everything, a restart keeps the
fault list and the frame in transmission. -/

namespace Sys2Proof.Machine

open Sys2Proof

theorem starting_atStart (p : Pins) (d : Nat) (q : List Instr) : Starting (State.atStart p d q) :=
  ⟨rfl, rfl, rfl, rfl, rfl, rfl, rfl, rfl, rfl, rfl, rfl, rfl, rfl, rfl, rfl, rfl, rfl, rfl, rfl, rfl, rfl, rfl, rfl,
    rfl, rfl, rfl, rfl⟩

theorem starting_beginRestart (p : StrapPins) (s : State) : Starting (beginRestart p s) :=
  ⟨rfl, rfl, rfl, rfl, rfl, rfl, startWire_keptWire s _ _ _, rfl, rfl, rfl, rfl, rfl, rfl, rfl, rfl, rfl, rfl, rfl, rfl,
    rfl, rfl, rfl, rfl, rfl, rfl, rfl, rfl⟩

/-! ## The frame that outlives a restart (R13, log 54) -/

theorem keptWire_idle {s : State} (w : Wire) (idle : s.wire.tx = none) : keptWire s w = w := by
  rw [keptWire, idle]

theorem keptWire_sending {s : State} {x : Tx} {e : TxEntry} (w : Wire) (tx : s.wire.tx = some x)
    (sent : (s.wire.queue x.cls).find? (·.inTx) = some e) :
    keptWire s w = { w.setQueue [{ e with flushed := true }] x.cls with tx := some { x with start := none } } := by
  have entry : txEntry s = some (x.cls, e) := by
    rw [txEntry, tx]
    simp [sent]
  rw [keptWire, tx, entry]

theorem queue_setQueue (w : Wire) (q : List TxEntry) (c : FrameClass) (x : Option Tx) :
    ({ w.setQueue q c with tx := x } : Wire).queue c = q := by
  cases c <;> rfl

/-! ## The fault list a restart keeps (R136, R146) -/

/-- A record stands NEW after a restart where it stood NEW or SENT before it (R146). -/
theorem isNew_kept (r : FaultRecord) :
    isNew (if r.state = .sent then { r with state := .new } else r) = decide (r.state = .new ∨ r.state = .sent) := by
  by_cases sent : r.state = .sent
  · rw [if_pos sent]
    simp [isNew, sent]
  · rw [if_neg sent]
    simp [isNew, sent]

theorem trigger_kept (r : FaultRecord) : (if r.state = .sent then { r with state := .new } else r).trigger =
    r.trigger := by
  split <;> rfl

theorem keptRuns_keptList (l : List FaultRecord) : keptRuns (keptList l) = (List.range 8).map fun n =>
    ⟨false, !l.any fun r => decide (r.trigger = n) && decide (r.state = .new ∨ r.state = .sent), false⟩ := by
  unfold keptRuns keptList
  refine List.map_congr_left fun n _ => ?_
  rw [List.any_map]
  simp only [Function.comp_def, isNew_kept, trigger_kept]

/-! ## The obligation -/

theorem exec_reset_restarts {s : State} (p : StrapPins) (phase : s.phase ≠ .stopped) (window : s.power.window = none) :
    exec (.reset p) s = .next (beginRestart p s) := by
  refine congrArg Host.Outcome.next ?_
  rw [resetChip, if_neg phase, window]
  rfl

/-- Settles O11. -/
theorem startsBegin : Obligations.StartsBegin := by
  refine ⟨fun s p => ?_, fun s p => ⟨fun phase window => ?_, fun stopped => ?_, fun phase window => ?_⟩⟩
  · exact answers_of (t := beginPowerUp p s) rfl ⟨rfl, rfl, rfl, rfl, rfl, rfl, rfl, rfl, rfl, rfl, rfl, rfl, rfl, rfl,
      rfl, starting_atStart _ _ _⟩
  · refine answers_of (exec_reset_restarts p phase window) ⟨rfl, rfl, rfl, rfl, rfl, keptRuns_keptList _, rfl, rfl, rfl,
      rfl, rfl, starting_beginRestart p s, fun idle => ?_, fun x e tx sent => ?_⟩
    · show (keptWire s _).tx = none
      rw [keptWire_idle _ idle]
      rfl
    · have kept := keptWire_sending (State.atStart { s.pins with straps := p } s.draws s.pending).wire tx sent
      refine ⟨?_, ?_⟩
      · show (keptWire s _).tx = _
        rw [kept]
      · show (keptWire s _).queue x.cls = _
        rw [kept, queue_setQueue]
  · refine answers_of (t := beginPowerUp { s.pins with straps := p } s)
      (congrArg Host.Outcome.next (if_pos stopped)) ⟨rfl, rfl, rfl, rfl, starting_atStart _ _ _⟩
  · refine congrArg Host.Outcome.next ?_
    rw [resetChip, if_neg phase, if_pos window]

end Sys2Proof.Machine
end

section
/-! PROOFS. Battery empty (R132, R142, R172 to R175): what entry to STOP leaves, what the opening of the last-gasp
window leaves, and where the LASTGASP stands in its queue. -/

namespace Sys2Proof.Machine

open Sys2Proof

/-! ## Entry to STOP (R173) -/

/-- The power controller on entry to STOP: a settling front end goes down at once (log 52). -/
def Power.stopped (p : Power) : Power :=
  { p with
    state := .stop, idle := none, rejoin := none
    frontEnd := match p.frontEnd with
      | .settling _ => .down
      | e => e }

/-- The power to the modem that entry to STOP leaves (R69, R75). -/
def modemOff (s : State) : State := if s.full then pwrOff (s.modPower Power.stopped) else s.modPower Power.stopped

theorem enterStop_eq (s : State) : enterStop s = settleLamp (setCond .mainsOff true (modemOff s)) := rfl

theorem modemOff_power (s : State) : (modemOff s).power = s.power.stopped := by
  unfold modemOff
  split
  · exact (pwrOff_only _).power
  · rfl

theorem enterStop_power (s : State) : (enterStop s).power = s.power.stopped := by
  rw [enterStop_eq, (settleLamp_only _).power, (setCond_only _ _ _).power, modemOff_power]

theorem settleLamp_conds (s : State) : (settleLamp s).fault.conds = s.fault.conds := by
  unfold settleLamp
  split <;> rfl

theorem enterStop_mainsOff (s : State) : (enterStop s).cond .mainsOff = true := by
  rw [enterStop_eq, State.cond, settleLamp_conds]
  exact setCond_cond_same _ _ _

theorem pwrOff_sup (s : State) : (pwrOff s).sup.state = .off ∧ (pwrOff s).sup.readyTimer = none := by
  have sup : (pwrOff s).sup = ((goOff s).modSup fun u => { u with readyTimer := none, upTransfer := none }).sup :=
    (setCond_only _ _ _).sup
  rw [sup]
  exact ⟨rfl, rfl⟩

theorem enterStop_sup {s : State} (full : s.full = true) :
    (enterStop s).sup.state = .off ∧ (enterStop s).sup.readyTimer = none := by
  have sup : (enterStop s).sup = (pwrOff (s.modPower Power.stopped)).sup := by
    rw [enterStop_eq, (settleLamp_only _).sup, (setCond_only _ _ _).sup, modemOff, if_pos full]
  rw [sup]
  exact pwrOff_sup _

theorem stopped_live (p : Power) : p.stopped.frontEnd = .live ↔ p.frontEnd = .live := by
  cases h : p.frontEnd <;> simp [Power.stopped, h]

/-! ## The window opens (R172, R174) -/

/-- The window's power controller (R174). -/
def windowPower (send : Bool) (s : State) : Power :=
  { s.power with window := some s.now, gasp := if send then .offered else .notSent }

/-- The station sends a LASTGASP: it is not halted and its front end is live (R174). -/
def sendsGasp (s : State) : Bool := !s.halted && s.live

/-- The window open: record and test are at an end, and the LASTGASP is offered where it is sent (R132, R142, R172). -/
theorem openWindow_eq (s : State) : openWindow s =
    { s with
      call := (endRecord none s).call
      fault := { s.fault with test := none, gaspRecord := some (gaspRecord s) }
      wire := if sendsGasp s then { s.wire with
        control := placeGasp (newEntry (some 0) (.lastgasp (gaspRecord s) s.heldFlag) s.now) s.wire.control }
          else s.wire
      power := windowPower (sendsGasp s) s } := by
  have ended : endRecord none s = { s with call := (endRecord none s).call } := by
    unfold endRecord
    split <;> rfl
  rw [openWindow]
  dsimp only
  rw [show (!s.halted && s.live) = sendsGasp s from rfl, ended]
  cases sendsGasp s <;> rfl

theorem openWindow_unsent {s : State} (unsent : sendsGasp s = false) :
    (openWindow s).power.gasp = .notSent ∧ (openWindow s).wire = s.wire := by
  rw [openWindow_eq, unsent]
  exact ⟨rfl, rfl⟩

theorem openWindow_sent {s : State} (sent : sendsGasp s = true) : (openWindow s).power.gasp = .offered ∧
    (openWindow s).wire.control =
      placeGasp (newEntry (some 0) (.lastgasp (gaspRecord s) s.heldFlag) s.now) s.wire.control := by
  rw [openWindow_eq, sent]
  exact ⟨rfl, rfl⟩

theorem endRecord_none_record (s : State) : (endRecord none s).call.record = none := by
  unfold endRecord
  split
  · rfl
  · next h => exact h

/-- The LASTGASP is the first of the entries that wait (R11). -/
theorem placeGasp_first (e : TxEntry) (q : List TxEntry) (waits : e.inTx = false) :
    ((placeGasp e q).filter fun e => !e.inTx).head? = some e := by
  unfold placeGasp
  split
  · simp [waits]
  · next h t _ =>
    by_cases sending : h.inTx = true
    · simp [sending, waits]
    · simp [sending, waits]

/-- What entry to STOP at battery empty makes of a station (R69, R75, R135, R173). -/
structure StopEntered (s u : State) : Prop where
  battEmpty : u.pins.battEmpty = true
  power : u.power = s.power.stopped
  hold : u.hold = s.hold
  noise : u.noise = s.noise
  wire : u.wire = s.wire
  now : u.now = s.now
  straps : u.straps = s.straps
  mainsOff : u.cond .mainsOff = true
  modem : s.power.state = .full → u.sup.state = .off ∧ u.sup.readyTimer = none

theorem stopEntered (s : State) :
    StopEntered s (enterStop { s with pins := { s.pins with battEmpty := true }, outs := [] }) := by
  have only := enterStop_only { s with pins := { s.pins with battEmpty := true }, outs := [] }
  exact ⟨congrArg Pins.battEmpty only.pins, enterStop_power _, only.hold, only.noise, only.wire, only.now, only.straps,
    enterStop_mainsOff _, fun full => enterStop_sup (decide_eq_true full)⟩

section
variable {s u : State} (h : StopEntered s u)
include h

theorem StopEntered.sends : sendsGasp u = (!s.halted && s.live) := by
  have live : u.live = s.live := by
    rw [State.live, State.live, h.power]
    exact decide_eq_decide.mpr (stopped_live s.power)
  rw [sendsGasp, live, halted_congr (congrArg Hold.state h.hold)]

theorem StopEntered.heldFlag : u.heldFlag = (s.holding || decide (s.hold.state = .yielding)) := by
  rw [State.heldFlag, State.holding, h.hold]
  rfl

theorem StopEntered.gaspRecord : gaspRecord u =
    ⟨s.own, 8, 1, u.fault.conds, s.power.startNumber, s.now, 1, 1, .sent⟩ := by
  show (⟨u.straps.id, 8, 1, u.fault.conds, u.power.startNumber, u.now, 1, 1, .sent⟩ : FaultRecord) = _
  rw [h.now, h.power, h.straps]
  rfl

/-- The power controller once the window is open (R173, R174). -/
theorem StopEntered.powerOpen : (openWindow u).power.state = .stop ∧ (openWindow u).power.window = some s.now ∧
    (openWindow u).power.idle = none ∧ (openWindow u).power.rejoin = none := by
  rw [openWindow_eq]
  show u.power.state = _ ∧ some u.now = _ ∧ u.power.idle = _ ∧ u.power.rejoin = _
  rw [h.power, h.now]
  exact ⟨rfl, rfl, rfl, rfl⟩

/-- The LASTGASP, offered (R174). -/
theorem StopEntered.gaspOffered (awake : s.halted = false) (live : s.power.frontEnd = .live) :
    (openWindow u).power.gasp = .offered ∧
      (((openWindow u).wire.control.filter fun e => !e.inTx).head?.map fun e => (e.dst, e.body)) =
        some (some 0, .lastgasp ⟨s.own, 8, 1, (openWindow u).fault.conds, s.power.startNumber, s.now, 1, 1, .sent⟩
          (s.holding || decide (s.hold.state = .yielding))) := by
  have sent : sendsGasp u = true := by
    rw [h.sends, awake, State.live, live]
    rfl
  obtain ⟨fate, control⟩ := openWindow_sent sent
  have conds : (openWindow u).fault.conds = u.fault.conds := by rw [openWindow_eq]
  refine ⟨fate, ?_⟩
  rw [control, placeGasp_first _ _ rfl, conds, h.gaspRecord, h.heldFlag]
  rfl

/-- The LASTGASP not sent (R174). -/
theorem StopEntered.gaspUnsent (off : s.halted = true ∨ s.power.frontEnd ≠ .live) :
    (openWindow u).power.gasp = .notSent ∧ (openWindow u).wire.control = s.wire.control := by
  have unsent : sendsGasp u = false := by
    rw [h.sends, Bool.and_eq_false_iff]
    exact off.imp (by simp [·]) decide_eq_false
  obtain ⟨fate, wire⟩ := openWindow_unsent unsent
  exact ⟨fate, congrArg Wire.control (wire.trans h.wire)⟩

end

theorem openWindow_record (s : State) : (openWindow s).call.record = none := by
  rw [openWindow_eq]
  exact endRecord_none_record s

theorem openWindow_fault (s : State) :
    (openWindow s).fault = { s.fault with test := none, gaspRecord := some (gaspRecord s) } := by
  rw [openWindow_eq]

/-! ## The obligation -/

theorem exec_batteryEmpty {s : State} (active : s.active = true) :
    exec .batteryEmpty s = .next (clearNotices (openWindow (enterStop
      { s with pins := { s.pins with battEmpty := true }, outs := [] }))) :=
  congrArg Host.Outcome.next (if_pos active)

theorem batteryEmpty_answers {s : State} (active : s.active = true) : Answers .batteryEmpty s fun t =>
     t.pins.battEmpty = true ∧
     t.power.state = .stop ∧ t.power.window = some s.now ∧ t.power.idle = none ∧ t.power.rejoin = none ∧
       (∀ n, t.ringDrive n = false ∧ t.tonePlayed n = .silent) ∧
       (s.power.state = .full → t.sup.state = .off ∧ t.sup.readyTimer = none) ∧ t.cond .mainsOff = true ∧
       t.call.record = none ∧ t.loopClosed = false ∧ t.fault.test = none ∧ t.hold = s.hold ∧ t.noise = s.noise ∧
       t.fault.gaspRecord = some ⟨s.own, 8, 1, t.fault.conds, s.power.startNumber, s.now, 1, 1, .sent⟩ ∧
       (s.halted = true ∨ s.power.frontEnd ≠ .live → t.power.gasp = .notSent ∧ t.wire.control = s.wire.control) ∧
       (s.halted = false → s.power.frontEnd = .live → t.power.gasp = .offered ∧
         ((t.wire.control.filter fun e => !e.inTx).head?.map fun e => (e.dst, e.body)) =
           some (some 0, .lastgasp ⟨s.own, 8, 1, t.fault.conds, s.power.startNumber, s.now, 1, 1, .sent⟩
             (s.holding || decide (s.hold.state = .yielding)))) := by
  have entered := stopEntered s
  have run := exec_batteryEmpty active
  revert entered run
  generalize enterStop { s with pins := { s.pins with battEmpty := true }, outs := [] } = u
  intro entered run
  refine answers_of run ?_
  obtain ⟨state, window, idle, rejoin⟩ := entered.powerOpen
  have only := openWindow_only u
  have shut : (clearNotices (openWindow u)).power.window.isNone = false := by
    show (openWindow u).power.window.isNone = false
    rw [window]
    rfl
  have inactive : (clearNotices (openWindow u)).active = false := by rw [State.active, shut, Bool.and_false]
  have silent (n : PortNo) : (clearNotices (openWindow u)).ringDrive n = false := by
    rw [State.ringDrive, shut, Bool.and_false]
  have record : (clearNotices (openWindow u)).call.record = none := openWindow_record u
  have fault : (clearNotices (openWindow u)).fault = _ := openWindow_fault u
  refine ⟨?_, state, window, idle, rejoin, fun n => ⟨silent n, tonePlayed_inactive inactive⟩, fun full => ?_, ?_,
    record,
    loopClosed_of_none record, ?_, only.hold.trans entered.hold, only.noise.trans entered.noise, ?_,
    entered.gaspUnsent, entered.gaspOffered⟩
  · exact (congrArg Pins.battEmpty only.pins).trans entered.battEmpty
  · obtain ⟨off, timer⟩ := entered.modem full
    exact ⟨(congrArg Sup.state only.sup).trans off, (congrArg Sup.readyTimer only.sup).trans timer⟩
  · rw [State.cond, fault]
    exact entered.mainsOff
  · rw [fault]
  · rw [fault]
    exact congrArg some entered.gaspRecord

/-- Settles O16. -/
theorem lastGaspWindow : Obligations.LastGaspWindow := by
  refine ⟨fun s calm => batteryEmpty_answers calm.active, fun s w phase window due => ?_, fun s => ?_⟩
  · have isDue : (decide (s.phase = .running) && dueWindowEnd s) = true := by
      rw [dueWindowEnd, window]
      exact Bool.and_eq_true_iff.mpr ⟨decide_eq_true phase, decide_eq_true due⟩
    refine answers_of (t := stopChip s) (congrArg Host.Outcome.next (if_pos isDue)) ?_
    exact ⟨rfl, rfl, rfl, rfl, rfl, rfl, rfl, rfl, rfl, rfl, rfl, rfl, rfl, rfl, rfl, fun n => ⟨rfl, rfl⟩⟩
  · refine answers_of (congrArg Host.Outcome.next (batteryTold_emptyFell s)) ⟨rfl, fun p hp => ?_⟩
    cases p <;> first | rfl | exact absurd (by decide) hp

end Sys2Proof.Machine
end

section
/-! PROOFS. The power controller's timers (R6, R14, R30, R34, R167, R171): the rejoin wait's end and the eligibility it
gives, and the front end as it becomes live. -/

namespace Sys2Proof.Machine

open Sys2Proof

/-! ## Eligibility computed afresh (R30, R34, R38) -/

/-- Where eligibility computed afresh leaves a settled station, the command's end does that and no more. -/
theorem finish_eligible {s : State} (calm : Calm (settleEligible s)) : finish s = settleEligible s := by
  have again := settleEligible_of calm.first.eligible
  have twice : finish s = finish (settleEligible s) := by
    rw [finish_eq, finish_eq, settleFirst, settleFirst, again]
  rw [twice, finish_of_calm calm]

/-- The hold controller as eligibility is gained (R34, R38). -/
def Hold.gainsEligibility (now : Tick) (h : Hold) : Hold :=
  { h with
    eligible := true
    deferral := if h.state = .seeking then some now else h.deferral
    degraded := if h.state = .holding then false else h.degraded }

/-- The station with its hold controller, its power controller and its outputs replaced. -/
def withPower (p : Power) (h : Hold) (o : List Out) (s : State) : State := { s with power := p, hold := h, outs := o }

theorem settleEligible_gains {s : State} (now_eligible : s.eligibleNow = true) (was : s.hold.eligible = false) :
    settleEligible s = withPower s.power (s.hold.gainsEligibility s.now) s.outs s := by
  rw [settleEligible, now_eligible, was, if_neg (by decide)]
  cases state : s.hold.state <;>
    simp [eligibleRules, State.modHold, Hold.gainsEligibility, withPower, state]

/-- A settled station whose rejoin wait has ended stays settled once its eligibility is computed. -/
theorem calm_rejoined {s : State} {h : Hold} {o : List Out} (calm : Calm s)
    (eligible : (withPower { s.power with rejoin := none } h o s).eligibleNow = h.eligible)
    (state : h.state = s.hold.state) (known : h.known = s.hold.known) (roster : h.roster = s.hold.roster)
    (lost : h.lost = s.hold.lost) (degraded : h.degraded = true → s.hold.degraded = true) :
    Calm (withPower { s.power with rejoin := none } h o s) := by
  have first := calm.first
  have rest := calm.rest
  let t := withPower { s.power with rejoin := none } h o s
  have holding : t.holding = s.holding := by rw [State.holding, State.holding, show t.hold = h from rfl, state]
  have halted : t.halted = s.halted := halted_congr state
  have idle : t.idleHolds = s.idleHolds := by
    show (_ && !(t.holding || decide (h.state = .claiming) || decide (h.state = .yielding))) = _
    rw [holding, state]
    rfl
  refine calm_of calm.active (.of_none eligible ?_ ?_ calm.dropped) calm.dropped ⟨⟨rest.head, ?_, ?_, ?_, rest.transfer,
    rest.outpulse, rest.loss, ?_, rest.tones⟩, ?_⟩
  · have kept := first.degraded
    show (t.holding && h.degraded && s.call.record.isNone) = false
    rw [holding]
    cases hd : h.degraded
    · simp
    · rwa [degraded hd] at kept
  · show t.computeHolder = h.known
    rw [computeHolder_congr (s := s) (t := t) rfl roster state rfl, known]
    exact first.holder
  · exact condsSettled_congr (s := s) rfl rfl (congrArg List.isEmpty lost) rfl rfl rfl rfl holding rest.conds
  · have settled := rest.reports
    simp only [reportsSettled, State.broadbandOf, State.peer] at settled ⊢
    rw [show (withPower { s.power with rejoin := none } h o s).holding = s.holding from holding,
      show (withPower { s.power with rejoin := none } h o s).halted = s.halted from halted]
    show (if s.holding then _ else match h.known with | some _ => _ | none => true) = true
    rw [known]
    simp only [withPower, roster]
    exact settled
  · have settled := rest.offer
    rw [offerSettled] at settled ⊢
    rw [show (withPower { s.power with rejoin := none } h o s).holding = s.holding from holding]
    exact settled
  · show t.lampWanted = s.fault.lamp
    rw [State.lampWanted, halted]
    exact rest.lamp
  · have settled := rest.idle
    rw [idleSettled] at settled ⊢
    rw [show (withPower { s.power with rejoin := none } h o s).idleHolds = s.idleHolds from idle]
    exact settled

theorem rejoinExpiry_answers {s : State} {t0 : Tick} (calm : Calm s) (rejoin : s.power.rejoin = some t0)
    (due : 1200000 ≤ elapsed s.now t0) :
    Answers .rejoinTimerExpiry s fun t =>
      t.power.rejoin = none ∧
        t.hold.eligible = (s.straps.modem && s.full && !s.cond .modemAbsent && !s.halted) ∧
        (s.hold.state = .seeking → t.hold.eligible = true → t.hold.deferral = some s.now) ∧
        (s.holding = true → t.holding = true ∧ t.hold.degraded = (s.hold.degraded && !t.hold.eligible)) := by
  let w : State := withPower { s.power with rejoin := none } s.hold [] s
  have isDue : dueRejoin s.quiet = true := by
    rw [dueRejoin, show s.quiet.power.rejoin = some t0 from rejoin]
    exact decide_eq_true due
  have step : rejoinExpiry s.quiet = w := if_pos isDue
  have run : exec .rejoinTimerExpiry s = .next (finish w) := by
    refine congrArg Host.Outcome.next ((running_active calm.active).trans ?_)
    rw [step]
  have was : s.hold.eligible = false := by
    rw [← calm.first.eligible, State.eligibleNow, rejoin]
    simp
  have eligible : w.eligibleNow = (s.straps.modem && s.full && !s.cond .modemAbsent && !s.halted) := by
    show (_ && _ && _ && true && _) = _
    rw [Bool.and_true]
    rfl
  refine answers_of run ?_
  cases gains : w.eligibleNow with
  | false =>
    have settled : Calm w := calm_rejoined calm (gains.trans was.symm) rfl rfl rfl rfl id
    rw [finish_of_calm settled, ← eligible, gains]
    exact ⟨rfl, was, fun _ h => absurd (was.symm.trans h) (by decide), fun holding => ⟨holding, by
      show s.hold.degraded = (s.hold.degraded && !s.hold.eligible)
      rw [was]
      simp⟩⟩
  | true =>
    have step := settleEligible_gains (s := w) gains was
    have settled : Calm (settleEligible w) := by
      rw [step]
      show Calm (withPower { s.power with rejoin := none } (s.hold.gainsEligibility s.now) [] s)
      refine calm_rejoined calm gains rfl rfl rfl rfl fun h => ?_
      have h : (if s.hold.state = .holding then false else s.hold.degraded) = true := h
      split at h
      · cases h
      · exact h
    rw [finish_eligible settled, step, ← eligible, gains]
    refine ⟨rfl, rfl, fun seeking _ => ?_, fun holding => ⟨holding, ?_⟩⟩
    · show (if s.hold.state = .seeking then some s.now else s.hold.deferral) = _
      rw [if_pos seeking]
    · show (if s.hold.state = .holding then false else s.hold.degraded) = (s.hold.degraded && !true)
      rw [if_pos (of_decide_eq_true holding)]
      simp

/-! ## The front end becomes live (R6, R14) -/

/-- The wire controller as the front end becomes live. -/
def liveWire (s : State) : Wire :=
  if s.wire.tx.isSome then s.wire
  else if s.pins.carrier then { s.wire with rx := some ⟨s.now, false⟩, round := none }
  else if s.wire.rx.isNone then s.wire.roundOpened else s.wire

theorem goLive_eq (s : State) :
    goLive s = { s with power := { s.power with frontEnd := .live }, wire := liveWire s } := by
  unfold goLive liveWire
  cases tx : s.wire.tx with
  | some x =>
    have still := contend_busy (s := s.modPower fun p => { p with frontEnd := .live })
      (.inr (show s.wire.tx.isSome = true by rw [tx]; rfl))
    simp [still]
    rfl
  | none =>
    cases carrier : s.pins.carrier with
    | true => simp [State.modWire, State.modPower]
    | false =>
      cases rx : s.wire.rx with
      | some r =>
        have still : contend (s.modPower fun p => { p with frontEnd := .live }) =
            s.modPower fun p => { p with frontEnd := .live } := if_neg (by
          simp [State.modPower, rx])
        simp [still]
        rfl
      | none =>
        have opens := contend_live (s := s.modPower fun p => { p with frontEnd := .live }) rfl tx carrier rx
        simp [opens]
        rfl

theorem liveWire_kept (s : State) : (liveWire s).data = s.wire.data ∧ (liveWire s).dropped = s.wire.dropped ∧
    (liveWire s).control.length = s.wire.control.length := by
  unfold liveWire
  split
  · exact ⟨rfl, rfl, rfl⟩
  · split
    · exact ⟨rfl, rfl, rfl⟩
    · split
      · exact ⟨rfl, rfl, List.length_map _⟩
      · exact ⟨rfl, rfl, rfl⟩

/-- What the station with a live front end shows of it at the end of the command. -/
theorem wireOpens_of {s t : State} (live : t.power.frontEnd = .live) (round : t.wire.round = (liveWire s).round)
    (rx : t.wire.rx = if t.hold.state = .halted ∧ s.hold.state ≠ .halted then none else (liveWire s).rx)
    (busy : s.wire.tx.isSome = true → t.hold.state = .halted → s.hold.state ≠ .halted → s.wire.rx = none) :
      WireOpens s t := by
  refine ⟨live, fun idle carrier => ?_, fun idle carrier none_heard => ?_, fun sending => ?_⟩
  · rw [round, rx]
    simp [liveWire, idle, carrier]
  · rw [round, rx]
    simp [liveWire, idle, carrier, none_heard, Wire.roundOpened]
  · rw [round, rx]
    simp only [liveWire, sending, if_true]
    refine ⟨?_, trivial⟩
    split
    · next h => exact (busy sending h.1 h.2).symm
    · rfl

/-! ## What the level rules read -/

/-- Two stations alike in all that the level rules but the idle timer's read. -/
structure Alike (s t : State) : Prop where
  phase : t.phase = s.phase := by rfl
  now : t.now = s.now := by rfl
  straps : t.straps = s.straps := by rfl
  cfg : t.cfg = s.cfg := by rfl
  pins : t.pins = s.pins := by rfl
  powerState : t.power.state = s.power.state := by rfl
  rejoin : t.power.rejoin = s.power.rejoin := by rfl
  tracked : t.noise.tracked = s.noise.tracked := by rfl
  data : t.wire.data = s.wire.data := by rfl
  state : t.hold.state = s.hold.state := by rfl
  known : t.hold.known = s.hold.known := by rfl
  roster : t.hold.roster = s.hold.roster := by rfl
  lost : t.hold.lost = s.hold.lost := by rfl
  degraded : t.hold.degraded = s.hold.degraded := by rfl
  eligible : t.hold.eligible = s.hold.eligible := by rfl
  sup : t.sup = s.sup := by rfl
  ports : t.ports = s.ports := by rfl
  call : t.call = s.call := by rfl
  fault : t.fault = s.fault := by rfl
  report : t.report = s.report := by rfl

section
variable {s t : State} (a : Alike s t)
include a

theorem Alike.holding : t.holding = s.holding := by rw [State.holding, State.holding, a.state]

theorem Alike.halted : t.halted = s.halted := halted_congr a.state

theorem Alike.full : t.full = s.full := by rw [State.full, State.full, a.powerState]

theorem Alike.cond (c : Cond) : t.cond c = s.cond c := by rw [State.cond, State.cond, a.fault]

theorem Alike.first (f : FirstSettled s) (dropped : ∀ d ∈ t.wire.dropped, inert d = true) : FirstSettled t := by
  refine .of_inert ?_ ?_ ?_ dropped
  · rw [State.eligibleNow, a.straps, a.full, a.cond, a.rejoin, a.halted, a.eligible]
    exact f.eligible
  · rw [a.holding, a.degraded, a.call]
    exact f.degraded
  · rw [computeHolder_congr a.straps a.roster a.state (by rw [a.call]), a.known]
    exact f.holder

theorem Alike.others (h : OthersSettled s) : OthersSettled t := by
  have loop : t.loopClosed = s.loopClosed := by simp only [State.loopClosed, a.call]
  refine ⟨headSettled_of_data a.data h.head, ?_, ?_, ?_, ?_, ?_, ?_, ?_, ?_⟩
  · exact condsSettled_congr (by rw [a.fault]) a.tracked (by rw [a.lost]) a.full (by rw [a.pins])
      (anyParked_congr a.cfg fun n => by rw [port_congr a.ports]) (anyShort_congr a.cfg fun n => by rw [a.pins])
      a.holding h.conds
  · have settled := h.reports
    simp only [reportsSettled, State.broadbandOf, State.peer] at settled ⊢
    rw [a.holding, a.halted, a.fault, a.report, a.known, a.roster]
    exact settled
  · have settled := h.offer
    rw [offerSettled] at settled ⊢
    rw [a.holding, a.sup, a.report]
    exact settled
  · have settled := h.transfer
    rw [transferSettled] at settled ⊢
    rw [a.sup, a.pins]
    exact settled
  · have settled := h.outpulse
    simp only [outpulseSettled, a.call] at settled ⊢
    exact settled
  · have settled := h.loss
    simp only [lossSettled, a.call, a.pins, loop] at settled ⊢
    exact settled
  · rw [State.lampWanted, a.halted, a.fault]
    exact h.lamp
  · exact tonesSettled_congr a.cfg (fun n => by rw [port_congr a.ports]) (dialTone_eq_of_fault a.fault) h.tones

end

/-- Where only the idle timer's rule has anything to do, and it sends no station to WATCH, a command's end writes the
idle timer alone. -/
theorem finish_others {s : State} (f : FirstSettled s) (h : OthersSettled s) (up : StaysUp s) :
    finish s = clearNotices (s.modPower fun p =>
      { p with idle := if s.idleHolds then some (p.idle.getD s.now) else none }) := by
  have cleared : OthersSettled (clearNotices s) :=
    ⟨h.head, h.conds, h.reports, h.offer, h.transfer, h.outpulse, h.loss, h.lamp, h.tones⟩
  rw [finish_eq, settleFirst_of f]
  exact settleRest_others cleared up

theorem staysUp_of_awake {s : State} (awake : Awake s) : StaysUp s := by
  intro idle
  obtain full | low := awake
  · simp [State.idleHolds, full] at idle
  · exact low

/-! ## A HALT offered (R11, R44) -/

/-- What a HALT handed over drops (R11). -/
def haltDrops (s : State) : List Body :=
  if s.wire.control.length < 8 then [] else if s.wire.control.any waitingBeacon then [.beacon] else [.halt]

theorem offerControl_halt (dst : Nat) (s : State) :
    offerControl dst .halt s = s.modWire fun w => { w with
      control := controlJoined w.control (newEntry (some dst) .halt s.now)
      dropped := w.dropped ++ haltDrops s } := by
  have beacon : (fun f : TxEntry => !f.inTx && decide (f.body = .beacon)) = waitingBeacon := rfl
  unfold offerControl haltDrops controlJoined
  rw [beacon, if_neg (by simp), if_neg (show ¬ Body.halt = .beacon from nofun)]
  simp only [Config.controlMax, noteDropped]
  by_cases room : s.wire.control.length < 8
  · simp [room, State.modWire]
  · by_cases beacon : s.wire.control.any waitingBeacon = true <;> simp only [room, beacon, State.modWire] <;> rfl

theorem haltDrops_inert {s : State} {d : Body} (hd : d ∈ haltDrops s) : inert d = true := by
  unfold haltDrops at hd
  split at hd
  · cases hd
  · split at hd <;> rw [List.mem_singleton.mp hd] <;> rfl

/-! ## The settle timer (R29, R32, R44, R171) -/

/-- The station as its front end becomes live, a HALT not yet offered. -/
def settledFront (s : State) : State :=
  { s with
    power := { s.power with frontEnd := .live }
    wire := liveWire s
    hold := { s.hold with noHolder := some s.now, listen := if s.halted then s.hold.listen else some s.now } }

theorem settleExpiry_eq {s : State} {t0 : Tick} (front : s.power.frontEnd = .settling t0)
    (due : 2000 ≤ elapsed s.now t0) :
    settleExpiry s = if s.halted then offerControl 0 .halt (settledFront s) else settledFront s := by
  have isDue : dueSettle s = true := by
    rw [dueSettle, front]
    exact decide_eq_true due
  rw [settleExpiry, if_pos isDue, goLive_eq]
  cases halted : s.halted with
  | true =>
    have halted' : (State.modHold (fun h => { h with noHolder := some s.now })
      { s with power := { s.power with frontEnd := .live }, wire := liveWire s }).halted = true := halted
    dsimp only
    rw [halted', if_pos rfl, if_pos rfl]
    congr 1
    simp [settledFront, State.modHold, halted]
  | false =>
    have halted' : (State.modHold (fun h => { h with noHolder := some s.now })
      { s with power := { s.power with frontEnd := .live }, wire := liveWire s }).halted = false := halted
    dsimp only
    rw [halted', if_neg (by decide), if_neg (by decide)]
    simp [settledFront, State.modHold, halted]

/-- A settled station whose front end has become live: the end of the command writes the idle timer alone. -/
theorem finish_settledFront {s u : State} (calm : Calm s) (awake : Awake s) (like : Alike s u)
    (dropped : ∀ d ∈ u.wire.dropped, inert d = true) :
    finish u = clearNotices (u.modPower fun p =>
      { p with idle := if u.idleHolds then some (p.idle.getD u.now) else none }) := by
  have up : StaysUp u := staysUp_of_awake (by
    rw [Awake, like.powerState, like.pins]
    exact awake)
  exact finish_others (like.first calm.first dropped) (like.others calm.rest.toOthersSettled) up

/-- The control queue with the HALT that resumes (R44). -/
def haltResumed (s : State) (w : Wire) : Wire :=
  if s.halted then { w with control := controlJoined w.control (newEntry (some 0) .halt s.now) } else w

theorem settleExpiry_answers {s : State} {t0 : Tick} (calm : Calm s) (awake : Awake s)
    (front : s.power.frontEnd = .settling t0) (due : 2000 ≤ elapsed s.now t0) :
    Answers .settleTimerExpiry s fun t =>
      t.power.frontEnd = .live ∧ t.wire = haltResumed s (liveWire s) ∧
        t.hold = (settledFront s).hold := by
  have step := settleExpiry_eq (s := s.quiet) front due
  obtain ⟨data, dropped, -⟩ := liveWire_kept s
  have none : (liveWire s).dropped = [] := dropped.trans calm.dropped
  have cleared : { liveWire s with dropped := [] } = liveWire s := by rw [← none]
  have run : exec .settleTimerExpiry s = .next (finish (settleExpiry s.quiet)) :=
    congrArg Host.Outcome.next (running_active calm.active)
  refine answers_of run ?_
  rw [step]
  cases halted : s.halted with
  | true =>
    rw [if_pos (show s.quiet.halted = true from halted), offerControl_halt]
    rw [finish_settledFront calm awake { data := data } (fun d hd => haltDrops_inert (by
      have hd : d ∈ (liveWire s).dropped ++ haltDrops (settledFront s.quiet) := hd
      rwa [none, List.nil_append] at hd))]
    refine ⟨rfl, ?_, rfl⟩
    rw [haltResumed, halted, if_pos rfl]
    exact congrArg (fun w : Wire => { w with control := controlJoined w.control (newEntry (some 0) .halt s.now) })
      cleared
  | false =>
    rw [if_neg (by rw [show s.quiet.halted = s.halted from rfl, halted]; decide)]
    rw [finish_settledFront calm awake { data := data } (by
      intro d hd
      have hd : d ∈ (liveWire s).dropped := hd
      rw [none] at hd
      cases hd)]
    refine ⟨rfl, ?_, rfl⟩
    rw [haltResumed, halted, if_neg (by decide), ← cleared]
    rfl

/-- Settles O17. -/
theorem powerTimers : Obligations.PowerTimers := by
  refine ⟨fun s t0 calm _ rejoin due => rejoinExpiry_answers calm rejoin due, fun s t0 calm awake _ front due => ?_⟩
  obtain ⟨t, run, live, wire, hold⟩ := settleExpiry_answers calm awake front due
  have state : t.hold.state = s.hold.state := by rw [hold]; rfl
  obtain ⟨-, -, length⟩ := liveWire_kept s
  have receive : t.wire.rx = (liveWire s).rx ∧ t.wire.round = (liveWire s).round := by
    rw [wire, haltResumed]
    split <;> exact ⟨rfl, rfl⟩
  obtain ⟨rx, round⟩ := receive
  have same_halt : ¬ (t.hold.state = .halted ∧ s.hold.state ≠ .halted) := by
    rintro ⟨now_halted, was_not⟩
    exact was_not (state ▸ now_halted)
  refine ⟨t, run, wireOpens_of live round (by rw [if_neg same_halt, rx]) fun _ now_halted was_not =>
    absurd ⟨now_halted, was_not⟩ same_halt, by rw [hold]; rfl, state, ?_, ?_, ?_, ?_⟩
  · intro carrier idle unheard room
    have opened : liveWire s = s.wire.roundOpened := by simp [liveWire, carrier, idle, unheard]
    rw [wire, haltResumed, opened]
    cases halted : s.halted with
    | true =>
      have short : s.wire.control.length < 8 := room.resolve_left (by simp [halted])
      rw [if_pos rfl, controlJoined_room _ (by rw [← opened, length]; exact short)]
      rfl
    | false =>
      rw [if_neg (by decide)]
      show s.wire.roundOpened = { s.wire.roundOpened with control := s.wire.roundOpened.control ++ [] }
      rw [List.append_nil]
  · intro sending
    have kept : liveWire s = s.wire := by simp [liveWire, sending]
    rw [wire, haltResumed, kept]
    split <;> rfl
  · intro halted
    rw [hold]
    simp [settledFront, halted]
  · intro halted room
    rw [wire, haltResumed, if_pos halted]
    show _ ∈ controlJoined _ _
    rw [controlJoined_room _ (by rw [length]; exact room)]
    exact List.mem_append_right _ (List.mem_singleton.mpr rfl)

end Sys2Proof.Machine
end

section
/-! PROOFS. Mains lost and back (R13, R38, R69 to R71, R75, R135, R166, R167): what the end of a command keeps of the
modem and the data queue, and the station in BATTERY and in FULL. -/

namespace Sys2Proof.Machine

open Sys2Proof

/-! ## What the rules after the notices keep of the modem and of the data queue -/

/-- The supervisor's state and READY timer are kept, and in OFF its transfers too. -/
structure SupKept (s t : State) : Prop where
  state : t.sup.state = s.sup.state
  readyTimer : t.sup.readyTimer = s.sup.readyTimer
  uplink : s.sup.state = .off → t.sup.uplink = s.sup.uplink
  upTransfer : s.sup.state = .off → t.sup.upTransfer = s.sup.upTransfer

theorem SupKept.of_eq {s t : State} (sup : t.sup = s.sup) : SupKept s t :=
  ⟨by rw [sup], by rw [sup], fun _ => by rw [sup], fun _ => by rw [sup]⟩

theorem SupKept.trans {s t u : State} (h : SupKept s t) (k : SupKept t u) : SupKept s u :=
  ⟨k.state.trans h.state, k.readyTimer.trans h.readyTimer,
    fun off => (k.uplink (h.state.trans off)).trans (h.uplink off),
    fun off => (k.upTransfer (h.state.trans off)).trans (h.upTransfer off)⟩

theorem supKept_addressHead (s : State) : SupKept s (addressHead s) := by
  unfold addressHead
  split
  · split
    · split
      · exact .of_eq rfl
      · split
        · split
          · exact ⟨rfl, rfl, fun off => if_neg (by simp [State.modWire, off]), fun _ => rfl⟩
          · exact .of_eq rfl
        · exact .of_eq rfl
    · exact .of_eq rfl
  · exact .of_eq rfl

theorem supKept_settleDataHead (s : State) : SupKept s (settleDataHead s) := by
  unfold settleDataHead
  generalize s.wire.data = l
  induction l generalizing s with
  | nil => exact .of_eq rfl
  | cons _ l ih => exact (supKept_addressHead s).trans (ih _)

theorem supKept_mailboxOffer (s : State) : SupKept s (mailboxOffer s) := by
  unfold mailboxOffer
  split
  · split
    · exact ⟨rfl, rfl, fun _ => rfl, fun _ => rfl⟩
    · exact .of_eq rfl
  · exact .of_eq rfl

theorem supKept_startTransfer (s : State) : SupKept s (startTransfer s) := by
  unfold startTransfer
  split
  · split
    · next begins =>
      have synced : s.sup.state = .synced := by
        simp only [Bool.and_eq_true, decide_eq_true_eq] at begins
        exact begins.1.1
      exact ⟨rfl, rfl, fun off => by simp [synced] at off, fun off => by simp [synced] at off⟩
    · exact .of_eq rfl
  · exact .of_eq rfl

theorem supKept_settleRest {s : State} (up : StaysUp s) : SupKept s (settleRest s) := by
  have middle : SupKept (settleDataHead s) (settleMiddle s) := by
    refine .of_eq ?_
    rw [settleMiddle_staysUp up, State.modPower_sup, (settleConds_only _).sup]
  have last (t : State) : SupKept (startTransfer t) (clearNotices (settleTones (settleLamp (settleLoss (startOutpulse
      (startTransfer t)))))) :=
    .of_eq (((clearNotices_only _).sup).trans (((settleTones_only _).sup).trans (((settleLamp_only _).sup).trans
      (((settleLoss_only _).sup).trans (startOutpulse_only _).sup))))
  have reports := SupKept.of_eq (settleReports_only (settleMiddle s)).sup
  rw [settleRest, settleLater]
  exact (supKept_settleDataHead s).trans <| middle.trans <| reports.trans <| (supKept_mailboxOffer _).trans <|
    (supKept_startTransfer _).trans (last _)

theorem sendReport_data (s : State) : (sendReport s).wire.data = s.wire.data := by
  unfold sendReport
  split
  · split
    · split
      · rw [offerControl_eq (b := .report _) _ _ nofun nofun]
        rfl
      · rfl
    · rfl
  · rfl

theorem takeIn_wire (s : State) : (takeIn s).wire = s.wire := rfl

theorem clearNotices_data (s : State) : (clearNotices s).wire.data = s.wire.data := rfl

/-- Where the head of the data queue is settled, the rules after the notices leave that queue. -/
theorem settleRest_data {s : State} (up : StaysUp s) (head : headSettled s = true) :
    (settleRest s).wire.data = s.wire.data := by
  have middle : (settleMiddle s).wire = s.wire := by
    rw [settleMiddle_staysUp up, settleDataHead_of head, State.modPower_wire, (settleConds_only s).wire]
  have reports (t : State) : (settleReports t).wire.data = t.wire.data := by
    unfold settleReports
    split
    · rw [takeIn_wire]
    · exact sendReport_data t
  rw [settleRest, clearNotices_data, (settleTones_only _).wire, settleLater, (settleLamp_only _).wire,
    (settleLoss_only _).wire, (startOutpulse_only _).wire, (startTransfer_only _).wire, (mailboxOffer_only _).wire,
    reports, middle]

/-! ## A level of mains that changes nothing else (R166, R167) -/

/-- No level rule reads the level of mains. -/
theorem calm_mains {s : State} (b : Bool) (calm : Calm s) :
    Calm { s with pins := { s.pins with mains := b }, outs := [] } := by
  have first := calm.first
  have rest := calm.rest
  exact calm_of calm.active (.of_none first.eligible first.degraded first.holder calm.dropped) calm.dropped
    ⟨⟨rest.head, rest.conds, rest.reports, rest.offer, rest.transfer, rest.outpulse, rest.loss, rest.lamp, rest.tones⟩,
      rest.idle⟩

/-- A command of the mains in a power state in which it means nothing changes the level alone. -/
theorem mains_level {s : State} {f : State → State} {c : Instr} {b : Bool} (calm : Calm s)
    (run : exec c s = .next (running f (s.tell fun p => { p with mains := b })))
    (still : f { s with pins := { s.pins with mains := b }, outs := [] } =
      { s with pins := { s.pins with mains := b }, outs := [] }) :
    Answers c s fun t => t.pins = { s.pins with mains := b } ∧ Only [.pins, .outs] s t := by
  have quiet : (s.tell fun p => { p with mains := b }).quiet =
    { s with pins := { s.pins with mains := b }, outs := [] } :=
    rfl
  have active : (s.tell fun p => { p with mains := b }).active = true := calm.active
  rw [running_active active, quiet, still, finish_of_calm (calm_mains b calm)] at run
  refine answers_of run ⟨rfl, fun p hp => ?_⟩
  cases p <;> first | rfl | exact absurd (by decide) hp

/-! ## Mains return (R69 to R71, R167, R171) -/

theorem computeHolder_of_holding {s t : State} (straps : t.straps = s.straps) (roster : t.hold.roster = s.hold.roster)
    (holding : t.holding = s.holding) (record : t.call.record.isSome = s.call.record.isSome) :
    t.computeHolder = s.computeHolder := by
  rw [State.computeHolder, State.computeHolder, candidates_eq, candidates_eq, holding, roster, record, State.own,
    State.own, straps]

/-- The power controller as FULL is entered (R167, R171). -/
def Power.returned (now : Tick) (p : Power) : Power :=
  { p with
    state := .full, idle := none, rejoin := some now
    frontEnd := if p.state = .watch then .settling now else p.frontEnd }

/-- The power to the modem as FULL is entered: the READY timer starts, and a HOLDING station trains its modem (R70,
R71). -/
def modemOn (s : State) : State := if s.holding then enterTraining (pwrOn s) else pwrOn s

theorem mainsRise_eq {s : State} (off : s.power.state = .battery ∨ s.power.state = .watch) :
    mainsRise s = modemOn (s.modPower (Power.returned s.now)) := by
  have rise (u : State) (power : u.modPower (fun p => { p with state := .full, idle := none, rejoin := some u.now }) =
      s.modPower (Power.returned s.now)) : enterFull u = modemOn (s.modPower (Power.returned s.now)) := by
    rw [enterFull, power]
    rfl
  obtain h | h := off
  · rw [mainsRise, h]
    refine rise s ?_
    simp [State.modPower, Power.returned, h]
  · rw [mainsRise, h]
    refine rise (wake s) ?_
    simp [wake, State.modPower, Power.returned, h]

theorem enterTraining_sup (s : State) : (enterTraining s).sup.state = (if s.pins.sync then .synced else .training) ∧
    (enterTraining s).sup.readyTimer = s.sup.readyTimer := by
  have synced (t : State) : (enterSynced t).sup.state = .synced ∧ (enterSynced t).sup.readyTimer =
    t.sup.readyTimer := by
    have sup := (setCond_only .trainFail false (t.modSup fun u =>
      { u with state := .synced, timer := none, failures := 0, step := 0, holdTime := 0, syncedAt := some t.now })).sup
    refine ⟨congrArg Sup.state sup, (congrArg Sup.readyTimer sup).trans rfl⟩
  unfold enterTraining
  dsimp only
  split
  · exact synced _
  · exact ⟨rfl, rfl⟩

theorem modemOn_sup (s : State) :
    (modemOn s).sup.readyTimer = (if s.straps.modem && !s.pins.ready then some s.now else none) ∧
      (s.holding = true → (modemOn s).sup.state = if s.pins.sync then .synced else .training) := by
  unfold modemOn
  split
  · exact ⟨(enterTraining_sup _).2, fun _ => (enterTraining_sup _).1⟩
  · next h => exact ⟨rfl, fun holding => absurd holding h⟩

theorem modemOn_only (s : State) : Only [.sup, .fault, .report] s (modemOn s) := by
  have on : Only [.sup, .fault, .report] s (pwrOn s) := (State.modSup_only _ s).mono (by decide)
  unfold modemOn
  split
  · exact (enterTraining_only _).after on (by decide)
  · exact on

theorem finish_modemOn {s : State} (calm : Calm s) (off : s.power.state ≠ .full) :
    (finish (modemOn (s.modPower (Power.returned s.now)))).hold = s.hold ∧
      (finish (modemOn (s.modPower (Power.returned s.now)))).pins = s.pins ∧
      (finish (modemOn (s.modPower (Power.returned s.now)))).power = s.power.returned s.now ∧
      (finish (modemOn (s.modPower (Power.returned s.now)))).cond .mainsOff = false ∧
      (finish (modemOn (s.modPower (Power.returned s.now)))).sup.readyTimer =
        (if s.straps.modem && !s.pins.ready then some s.now else none) ∧
      (s.holding = true → (finish (modemOn (s.modPower (Power.returned s.now)))).sup.state =
        if s.pins.sync then .synced else .training) := by
  have first := calm.first
  have only := modemOn_only (s.modPower (Power.returned s.now))
  have sup := modemOn_sup (s.modPower (Power.returned s.now))
  generalize modemOn (s.modPower (Power.returned s.now)) = m at only sup
  have power : m.power = s.power.returned s.now := only.power
  have hold : m.hold = s.hold := only.hold
  have wire : m.wire = s.wire := only.wire
  have ineligible : s.hold.eligible = false := by
    rw [← first.eligible, State.eligibleNow, State.full, decide_eq_false off]
    simp
  have noted : FirstSettled m := by
    refine .of_none ?_ ?_ ?_ (by rw [wire]; exact calm.dropped)
    · rw [State.eligibleNow, power, hold, ineligible]
      simp [Power.returned]
    · rw [State.holding, hold, only.call]
      exact first.degraded
    · rw [computeHolder_of_holding only.straps (congrArg Hold.roster hold) (by rw [State.holding, hold]; rfl)
        (by rw [only.call]), hold]
      exact first.holder
  have idle : (clearNotices m).idleHolds = false := by
    have state : (clearNotices m).power.state = .full := by
      show m.power.state = _
      rw [power]
      rfl
    simp [State.idleHolds, state]
  have up : StaysUp (clearNotices m) := fun h => absurd (idle.symm.trans h) (by decide)
  have settled : finish m = settleRest (clearNotices m) := by rw [finish_eq, settleFirst_of noted]
  have rest := settleRest_only up
  have kept := supKept_settleRest up
  rw [settled]
  refine ⟨rest.hold.trans hold, rest.pins.trans only.pins, ?_, ?_, kept.readyTimer.trans sup.1,
    fun holding => kept.state.trans (sup.2 holding)⟩
  · rw [settleRest_power up, idle, if_neg (by decide)]
    show { m.power with idle := none } = _
    rw [power]
    rfl
  · rw [settleRest_cond up]
    show (!(settleDataHead (clearNotices m)).full) = false
    rw [State.full, (settleDataHead_only _).power]
    show (!decide (m.power.state = .full)) = false
    rw [power]
    rfl

theorem mainsRise_answers {s : State} (calm : Calm s) (off : s.power.state = .battery ∨ s.power.state = .watch) :
    Answers .mainsPresentRise s fun t =>
       t.pins.mains = true ∧ t.power.state = .full ∧ t.power.rejoin = some s.now ∧ t.power.idle = none ∧
         t.cond .mainsOff = false ∧ t.hold.eligible = false ∧
         t.sup.readyTimer = (if s.straps.modem && !s.pins.ready then some s.now else none) ∧
         t.power.frontEnd = (if s.power.state = .watch then .settling s.now else s.power.frontEnd) ∧
         (s.holding = true → t.holding = true ∧ t.sup.state = (if s.pins.sync then .synced else .training)) := by
  let w : State := { s with pins := { s.pins with mains := true }, outs := [] }
  have calm' : Calm w := calm_mains true calm
  have not_full : w.power.state ≠ .full := by
    show s.power.state ≠ .full
    obtain h | h := off <;> rw [h] <;> nofun
  have run : exec .mainsPresentRise s = .next (finish (mainsRise w)) :=
    congrArg Host.Outcome.next (running_active (s := s.tell fun p => { p with mains := true }) calm.active)
  rw [mainsRise_eq (s := w) off] at run
  obtain ⟨hold, pins, power, mainsOff, timer, modem⟩ := finish_modemOn calm' not_full
  refine answers_of run ?_
  rw [power, hold, pins]
  refine ⟨rfl, rfl, rfl, rfl, mainsOff, ?_, timer, rfl, fun holding => ⟨?_, modem holding⟩⟩
  · show s.hold.eligible = false
    rw [← calm.first.eligible, State.eligibleNow, State.full, decide_eq_false not_full]
    simp
  · rw [State.holding, hold]
    exact holding

/-! ## Mains lost (R13, R38, R69, R70, R75, R166) -/

/-- A station in BATTERY after mains was lost: its modem is off, its data queue flushed, and it is not eligible. -/
structure Dark (s : State) : Prop where
  phase : s.phase = .running
  mains : s.pins.mains = false
  low : s.pins.battLow = false
  battery : s.power.state = .battery
  rejoin : s.power.rejoin = none
  off : s.sup.state = .off
  readyTimer : s.sup.readyTimer = none
  upTransfer : s.sup.upTransfer = none
  uplink : s.sup.uplink = []
  data : s.wire.data.all (·.inTx) = true
  absent : s.cond .modemAbsent = false
  ineligible : s.hold.eligible = false

theorem leaveHolding_sup (c : Option ClearCause) (s : State) :
    (leaveHolding c s).sup = { (goOff (endRecord c s)).sup with map := [] } := by
  unfold leaveHolding leaveReports
  have aborted : (abortTest (goOff (endRecord c s))).sup = (goOff (endRecord c s)).sup := (abortTest_only _).sup
  rw [← aborted]
  rfl

theorem leaveHolding_wire (s : State) : (leaveHolding none s).wire = s.wire := by
  have ended : (endRecord none s).wire = s.wire := by
    unfold endRecord
    split <;> rfl
  unfold leaveHolding leaveReports
  dsimp only
  rw [State.modFault_wire, State.modSup_wire, (abortTest_only _).wire, (goOff_only _).wire, ended]

theorem goOff_sup (s : State) : (goOff s).sup.state = .off ∧ (goOff s).sup.uplink = [] ∧
    (goOff s).sup.readyTimer = s.sup.readyTimer ∧ (goOff s).sup.upTransfer = s.sup.upTransfer := by
  unfold goOff withdrawOffer
  split <;> exact ⟨rfl, rfl, rfl, rfl⟩

section
variable {s : State} (h : Dark s)
include h

theorem Dark.modHold {f : Hold → Hold} (eligible : (f s.hold).eligible = s.hold.eligible) : Dark (s.modHold f) :=
  ⟨h.phase, h.mains, h.low, h.battery, h.rejoin, h.off, h.readyTimer, h.upTransfer, h.uplink, h.data, h.absent,
    eligible.trans h.ineligible⟩

theorem Dark.modWire {f : Wire → Wire} (data : (f s.wire).data = s.wire.data) : Dark (s.modWire f) :=
  ⟨h.phase, h.mains, h.low, h.battery, h.rejoin, h.off, h.readyTimer, h.upTransfer, h.uplink, by
    show (f s.wire).data.all _ = true
    rw [data]
    exact h.data, h.absent, h.ineligible⟩

theorem Dark.staysUp : StaysUp s := fun _ => h.low

theorem Dark.head : headSettled s = true := by
  have all := h.data
  unfold headSettled
  split
  · next e rest queue =>
    rw [queue, List.all_cons, Bool.and_eq_true] at all
    rw [all.1, Bool.or_true]
  · rfl

theorem Dark.eligibleNow : s.eligibleNow = s.hold.eligible := by
  rw [h.ineligible, State.eligibleNow, State.full, h.battery]
  simp

theorem Dark.leaveHolding : Dark (leaveHolding none s) := by
  have only := leaveHolding_only none s
  have sup := leaveHolding_sup none s
  have wire := leaveHolding_wire s
  obtain ⟨off, uplink, readyTimer, upTransfer⟩ := goOff_sup (endRecord none s)
  rw [(endRecord_only _ _).sup] at readyTimer upTransfer
  have conds := leaveHolding_conds none s
  generalize goOff (endRecord none s) = u at sup off uplink readyTimer upTransfer
  generalize Machine.leaveHolding none s = t at only sup wire conds ⊢
  constructor
  · rw [only.phase, h.phase]
  · rw [only.pins, h.mains]
  · rw [only.pins, h.low]
  · rw [only.power, h.battery]
  · rw [only.power, h.rejoin]
  · rw [sup, off]
  · rw [sup, readyTimer, h.readyTimer]
  · rw [sup, upTransfer, h.upTransfer]
  · rw [sup, uplink]
  · rw [wire]
    exact h.data
  · rw [State.cond, conds]
    exact h.absent
  · rw [only.hold, h.ineligible]

theorem Dark.enterYielding : Dark (enterYielding none s) := by
  have left : Dark ((Machine.leaveHolding none s).modHold fun q => { q with state := .yielding, degraded := false }) :=
    h.leaveHolding.modHold rfl
  rw [Machine.enterYielding, offerControl_eq (b := .yield) _ _ nofun nofun]
  exact left.modWire rfl

theorem Dark.yieldDone : Dark (yieldDone s) := by
  unfold Machine.yieldDone
  split
  · exact h.modHold rfl
  · exact h.modHold rfl

/-- What the notice of a dropped YIELD, or of a frame no block hears of, leaves. -/
theorem Dark.droppedNotice {b : Body} (hb : b = .yield ∨ inert b = true) : Dark (droppedNotice s b) := by
  obtain rfl | hi := hb
  · unfold Machine.droppedNotice
    dsimp only
    split
    · exact h.yieldDone
    · exact h
  · rw [droppedNotice_inert s hi]
    exact h

end

theorem Dark.settleNotices {s : State} (h : Dark s) (dropped : ∀ b ∈ s.wire.dropped, b = .yield ∨ inert b = true) :
    Dark (settleNotices s) := by
  have fold : ∀ (l : List Body) (t : State), Dark t → (∀ b ∈ l, b = .yield ∨ inert b = true) →
      Dark (l.foldl Machine.droppedNotice t) := by
    intro l
    induction l with
    | nil => exact fun t ht _ => ht
    | cons b l ih =>
      intro t ht told
      exact ih _ (ht.droppedNotice (told b (by simp))) fun c hc => told c (by simp [hc])
  exact fold _ _ (h.modWire rfl) dropped

/-- The rules after the notices leave the station so, and its hold controller as it is. -/
theorem Dark.settleRest {s : State} (h : Dark s) : Dark (settleRest s) ∧ (settleRest s).hold = s.hold ∧
    (settleRest s).cond .mainsOff = true := by
  have up := h.staysUp
  have rest := settleRest_only up
  have power := settleRest_power up
  have kept := supKept_settleRest up
  refine ⟨⟨rest.phase.trans h.phase, (congrArg Pins.mains rest.pins).trans h.mains,
    (congrArg Pins.battLow rest.pins).trans h.low, (congrArg Power.state power).trans h.battery,
    (congrArg Power.rejoin power).trans h.rejoin, kept.state.trans h.off, kept.readyTimer.trans h.readyTimer,
    (kept.upTransfer h.off).trans h.upTransfer, (kept.uplink h.off).trans h.uplink, ?_, ?_,
    (congrArg Hold.eligible rest.hold).trans h.ineligible⟩, rest.hold, ?_⟩
  · rw [settleRest_data up h.head]
    exact h.data
  · rw [settleRest_cond_other s (c := .modemAbsent) rfl]
    exact h.absent
  · rw [settleRest_cond up, settleDataHead_of h.head]
    show (!s.full) = true
    rw [State.full, h.battery]
    rfl

/-- The station as mains is lost in FULL, its neighbours not yet told (R13, R69, R70, R166). -/
def mainsLost (s : State) : State :=
  flushData (pwrOff (s.modPower fun p => { p with state := .battery, rejoin := none }))

theorem mainsFall_eq {s : State} (full : s.power.state = .full) : mainsFall s = mainsLost s :=
  if_pos (decide_eq_true full)

/-- What the loss of mains leaves of a station. -/
structure Lost (s v : State) : Prop where
  only : Only [.power, .wire, .sup, .fault, .report, .outs] s v
  power : v.power = { s.power with state := .battery, rejoin := none }
  control : v.wire.control = s.wire.control
  dropped : v.wire.dropped = s.wire.dropped
  data : v.wire.data.all (·.inTx) = true
  off : v.sup.state = .off
  readyTimer : v.sup.readyTimer = none
  upTransfer : v.sup.upTransfer = none
  uplink : v.sup.uplink = []
  absent : v.cond .modemAbsent = false

theorem flushQueue_all (q : List TxEntry) : (flushQueue q).all (·.inTx) = true := by
  simp [flushQueue, List.all_map, List.all_filter]

theorem lost_mainsLost (s : State) : Lost s (mainsLost s) := by
  have off := pwrOff_only (s.modPower fun p => { p with state := .battery, rejoin := none })
  have sup : (pwrOff (s.modPower fun p => { p with state := .battery, rejoin := none })).sup = _ :=
    (setCond_only _ _ _).sup
  have absent : (pwrOff (s.modPower fun p => { p with state := .battery, rejoin := none })).cond .modemAbsent = false :=
    setCond_cond_same _ _ _
  obtain ⟨state, uplink, -, -⟩ := goOff_sup (s.modPower fun p => { p with state := .battery, rejoin := none })
  rw [mainsLost]
  generalize pwrOff (s.modPower fun p => { p with state := .battery, rejoin := none }) = v at off sup absent
  have only : Only [.power, .wire, .sup, .fault, .report, .outs] s (flushData v) :=
    (State.modWire_only _ v).after (off.after ((State.modPower_only _ s).mono (by decide)) (by decide)) (by decide)
  have wire : v.wire = s.wire := off.wire
  refine ⟨only, off.power, ?_, ?_, flushQueue_all _, ?_, ?_, ?_, ?_, absent⟩
  · show v.wire.control = _
    rw [wire]
  · show v.wire.dropped = _
    rw [wire]
  · show v.sup.state = _
    rw [sup, State.modSup_sup, state]
  · show v.sup.readyTimer = _
    rw [sup, State.modSup_sup]
  · show v.sup.upTransfer = _
    rw [sup, State.modSup_sup]
  · show v.sup.uplink = _
    rw [sup, State.modSup_sup, uplink]

/-- The hold controller as eligibility is lost, but for a holder without a record (R34, R35, R38). -/
def Hold.losesEligibility (h : Hold) : Hold :=
  match h.state with
  | .seeking => { h with eligible := false, deferral := none }
  | .claiming =>
    { h with eligible := false, state := .seeking, follow := none, contest := none, listen := none, deferral := none }
  | .holding => { h with eligible := false, degraded := true }
  | _ => { h with eligible := false }

section
variable {s v : State} (h : Lost s v)
include h

theorem Lost.ineligible : v.eligibleNow = false := by
  rw [State.eligibleNow, State.full, h.power]
  simp

theorem Lost.dark (phase : s.phase = .running) (mains : s.pins.mains = false) (low : s.pins.battLow = false) (q : Hold)
    (eligible : q.eligible = false) : Dark { v with hold := q } :=
  ⟨h.only.phase.trans phase, (congrArg Pins.mains h.only.pins).trans mains,
    (congrArg Pins.battLow h.only.pins).trans low,
    congrArg Power.state h.power, congrArg Power.rejoin h.power, h.off, h.readyTimer, h.upTransfer, h.uplink, h.data,
    h.absent, eligible⟩

/-- Where the loss of eligibility leaves HOLDING or not as it was, and the record of a degraded holder, the hold rules
have nothing else to do. -/
theorem Lost.first (calm : Calm s) (q : Hold) (eligible : q.eligible = false)
    (holding : decide (q.state = .holding) = s.holding) (known : q.known = s.hold.known)
    (roster : q.roster = s.hold.roster)
    (degraded : q.degraded = s.hold.degraded ∨ s.holding = false ∨ s.call.record.isSome = true) :
    FirstSettled { v with hold := q } := by
  have first := calm.first
  refine .of_none ?_ ?_ ?_ (h.dropped.trans calm.dropped)
  · rw [State.eligibleNow, State.full, show ({ v with hold := q } : State).power = v.power from rfl, h.power, eligible]
    simp
  · have kept := first.degraded
    show (decide (q.state = .holding) && q.degraded && v.call.record.isNone) = false
    rw [holding, h.only.call]
    obtain same | away | record := degraded
    · rw [same]
      exact kept
    · rw [away]
      rfl
    · rw [Option.isNone_eq_false_iff.mpr record, Bool.and_false]
  · show State.computeHolder { v with hold := q } = q.known
    rw [computeHolder_of_holding (s := s) (t := { v with hold := q }) h.only.straps roster holding
      (by rw [h.only.call]),
      known]
    exact first.holder

theorem Lost.settleEligible (was : s.hold.eligible = true) (keeps : ¬ (s.holding = true ∧ s.call.record = none)) :
    settleEligible v = { v with hold := s.hold.losesEligibility } := by
  have hold := h.only.hold
  have call := h.only.call
  rw [Machine.settleEligible, h.ineligible, hold, was, if_neg (by decide)]
  unfold eligibleRules Hold.losesEligibility
  have state : (v.modHold fun h => { h with eligible := false }).hold.state = s.hold.state := by
    rw [State.modHold_hold, hold]
  rw [state]
  cases hs : s.hold.state <;> simp [State.modHold, hold, enterSeeking, hs]
  have record : s.call.record ≠ none := fun none => keeps ⟨by rw [State.holding, hs]; rfl, none⟩
  rw [call]
  exact fun none => absurd none record

/-- A holder without a record leaves the line (R38, R40). -/
theorem Lost.settleEligible_yields (was : s.hold.eligible = true) (holding : s.holding = true)
    (record : s.call.record = none) :
    Machine.settleEligible v = enterYielding none { v with hold := { s.hold with eligible := false } } := by
  have hold := h.only.hold
  have state : s.hold.state = .holding := of_decide_eq_true holding
  rw [Machine.settleEligible, h.ineligible, hold, was, if_neg (by decide)]
  have shape : (v.modHold fun h => { h with eligible := false }) =
    { v with hold := { s.hold with eligible := false } } := by
    rw [State.modHold, hold]
  rw [shape]
  simp only [eligibleRules, state]
  rw [if_pos (by rw [h.only.call, record]; rfl)]

end

theorem losesEligibility_eligible (h : Hold) : h.losesEligibility.eligible = false := by
  unfold Hold.losesEligibility
  split <;> rfl

theorem losesEligibility_holding (h : Hold) :
    decide (h.losesEligibility.state = .holding) = decide (h.state = .holding) := by
  unfold Hold.losesEligibility
  split
  · rfl
  · next claiming =>
    rw [claiming]
    rfl
  · rfl
  · rfl

theorem losesEligibility_kept (h : Hold) : h.losesEligibility.known = h.known ∧ h.losesEligibility.roster = h.roster ∧
    (h.state ≠ .holding → h.losesEligibility.degraded = h.degraded) := by
  unfold Hold.losesEligibility
  split
  · exact ⟨rfl, rfl, fun _ => rfl⟩
  · exact ⟨rfl, rfl, fun _ => rfl⟩
  · next holding => exact ⟨rfl, rfl, fun away => absurd holding away⟩
  · exact ⟨rfl, rfl, fun _ => rfl⟩

/-- The end of a command that lost mains, where the station does not yield: the hold controller is as it becomes
with the eligibility lost. -/
theorem Lost.finish {s v : State} (h : Lost s v) (calm : Calm s) (mains : s.pins.mains = false)
    (low : s.pins.battLow = false) (keeps : ¬ (s.hold.eligible = true ∧ s.holding = true ∧ s.call.record = none)) :
    Dark (finish v) ∧ (finish v).cond .mainsOff = true ∧
      (finish v).hold = if s.hold.eligible then s.hold.losesEligibility else s.hold := by
  obtain ⟨q, shape, step, eligible⟩ : ∃ q : Hold, q = (if s.hold.eligible then s.hold.losesEligibility else s.hold) ∧
      Machine.settleEligible v = { v with hold := q } ∧ q.eligible = false := by
    cases was : s.hold.eligible with
    | false =>
      refine ⟨s.hold, rfl, ?_, was⟩
      rw [settleEligible_of (by rw [h.ineligible, h.only.hold, was]), ← h.only.hold]
    | true =>
      exact ⟨s.hold.losesEligibility, rfl, h.settleEligible was fun y => keeps ⟨was, y⟩, losesEligibility_eligible _⟩
  have first : FirstSettled { v with hold := q } := by
    obtain ⟨known, roster, degraded⟩ := losesEligibility_kept s.hold
    cases was : s.hold.eligible with
    | false =>
      rw [was, if_neg (by decide)] at shape
      subst shape
      exact h.first calm _ eligible rfl rfl rfl (.inl rfl)
    | true =>
      rw [was, if_pos rfl] at shape
      subst shape
      refine h.first calm _ eligible (losesEligibility_holding _) known roster ?_
      by_cases holding : s.holding = true
      · refine .inr (.inr (Option.isSome_iff_ne_none.mpr fun none => keeps ⟨was, holding, none⟩))
      · exact .inl (degraded fun state => holding (decide_eq_true state))
  have settled : Machine.finish v = Machine.settleRest (clearNotices { v with hold := q }) := by
    have same := settleFirst_of first
    rw [settleFirst, settleEligible_of first.eligible] at same
    rw [finish_eq, settleFirst, step, same]
  have dark : Dark (clearNotices { v with hold := q }) := (h.dark calm.running mains low q eligible).modWire rfl
  obtain ⟨dark', hold, mainsOff⟩ := dark.settleRest
  rw [settled, ← shape]
  exact ⟨dark', mainsOff, hold⟩

/-! ## The holder that yields with its eligibility (R38, R40) -/

theorem enterYielding_state (s : State) : (enterYielding none s).hold.state = .yielding := by
  rw [enterYielding, (offerControl_only _ _ _).hold]
  rfl

theorem enterYielding_known (s : State) : (enterYielding none s).hold.known = s.hold.known := by
  rw [enterYielding, (offerControl_only _ _ _).hold]
  show (leaveHolding none s).hold.known = _
  rw [(leaveHolding_only none s).hold]

/-- What leaving the line drops is the YIELD that finds no room, or a BEACON that makes room for it (R11). -/
theorem enterYielding_drops {s : State} (none_dropped : s.wire.dropped = []) :
    ∀ b ∈ (enterYielding none s).wire.dropped, b = .yield ∨ inert b = true := by
  intro b hb
  rw [enterYielding, offerControl_eq (b := .yield) _ _ nofun nofun, State.modWire_wire] at hb
  have dropped : (State.modHold (fun h => { h with state := .yielding, degraded := false })
      (leaveHolding none s)).wire.dropped = [] := by
    rw [State.modHold_wire, leaveHolding_wire, none_dropped]
  rcases List.mem_append.mp hb with old | new
  · rw [dropped] at old
    cases old
  · exact (mem_controlDrops new).imp_right fun e => by rw [e]; rfl

/-- The first rules at a station without mains that leaves the line. -/
theorem settleFirst_yields {v w : State} (step : settleEligible v = enterYielding none w)
    (known : w.hold.known.isSome = true) : ∃ k x, settleFirst v =
      settleNotices ((enterYielding none w).modHold fun h => { h with known := k, noHolder := x }) := by
  have state := enterYielding_state w
  have settled : settleDegraded (enterYielding none w) = enterYielding none w :=
    settleDegraded_of (by rw [State.holding, state]; rfl)
  obtain ⟨k, x, noted⟩ := settleHolder_yielding state (by rw [enterYielding_known]; exact known)
  exact ⟨k, x, by rw [settleFirst, step, settled, noted]⟩

section
variable {s v : State} (h : Lost s v)
include h

theorem Lost.finish_yields (calm : Calm s) (mains : s.pins.mains = false)
    (low : s.pins.battLow = false) (was : s.hold.eligible = true) (holding : s.holding = true)
    (record : s.call.record = none) :
    Dark (Machine.finish v) ∧ (Machine.finish v).cond .mainsOff = true ∧
      (s.wire.control.length < 8 → (Machine.finish v).hold.state = .yielding ∧
        newEntry (some 0) .yield s.now ∈ (Machine.finish v).wire.control) := by
  let w : State := { v with hold := { s.hold with eligible := false } }
  have known : s.hold.known.isSome = true := by
    rw [← calm.first.holder]
    exact computeHolder_isSome_of_holding holding
  have none_dropped : w.wire.dropped = [] := h.dropped.trans calm.dropped
  obtain ⟨k, x, first⟩ := settleFirst_yields (w := w) (h.settleEligible_yields was holding record) known
  have dark : Dark (enterYielding none w) := (h.dark calm.running mains low _ rfl).enterYielding
  have noted : Dark (settleFirst v) := by
    rw [first]
    exact (dark.modHold (f := fun h => { h with known := k, noHolder := x }) rfl).settleNotices
      (enterYielding_drops none_dropped)
  obtain ⟨dark', hold, mainsOff⟩ := noted.settleRest
  refine ⟨dark', mainsOff, fun room => ?_⟩
  have record' : w.call.record = none := (congrArg Call.record h.only.call).trans record
  have room' : w.wire.control.length < 8 := by
    show v.wire.control.length < 8
    rw [h.control]
    exact room
  obtain ⟨left, off, queue⟩ := leaveHolding_read record'
  have entered := enterYielding_eq record' room'
  have told : settleFirst v = clearNotices ((enterYielding none w).modHold fun h =>
    { h with known := k, noHolder := x }) := by
    rw [first]
    refine settleNotices_inert fun b hb => ?_
    have none_told : (enterYielding none w).wire.dropped = [] := by
      rw [entered, State.modWire_wire]
      show (leaveHolding none w).wire.dropped = []
      rw [left.wire, none_dropped]
    rw [State.modHold_wire, none_told] at hb
    cases hb
  have state : (settleFirst v).hold.state = .yielding := by
    rw [told]
    exact enterYielding_state w
  have control : newEntry (some 0) .yield s.now ∈ (settleFirst v).wire.control := by
    rw [told, clearNotices_control, State.modHold_wire, entered, State.modWire_wire]
    show newEntry (some 0) .yield s.now ∈ w.wire.control ++ [newEntry (some 0) .yield v.now]
    rw [h.only.now]
    exact List.mem_append_right _ (List.mem_singleton.mpr rfl)
  have queue' : (settleFirst v).report.queue = [] := by
    rw [told, entered]
    exact queue
  have record'' : (settleFirst v).call.record = none := by
    rw [told, entered]
    show (leaveHolding none w).call.record = none
    rw [left.call, record']
  obtain ⟨-, -, -, -, kept⟩ := settleRest_yielding state noted.head noted.off queue' record''
  exact ⟨by rw [finish_eq, hold, state], by rw [finish_eq]; exact kept _ control nofun⟩

end

/-- Settles O14. -/
theorem mainsChanges : Obligations.MainsChanges := by
  refine ⟨fun s calm => ⟨fun full low => ?_, fun off => ?_⟩, fun s calm => ⟨mainsRise_answers calm, fun full => ?_⟩⟩
  · let w : State := { s with pins := { s.pins with mains := false }, outs := [] }
    have calm' : Calm w := calm_mains false calm
    have run : exec .mainsPresentFall s = .next (finish (mainsLost w)) := by
      rw [← mainsFall_eq (s := w) full]
      exact congrArg Host.Outcome.next (running_active (s := s.tell fun p => { p with mains := false }) calm.active)
    have lost := lost_mainsLost w
    generalize mainsLost w = v at run lost
    have shown {t : State} (dark : Dark t) : t.holdBack = true := by
      rw [State.holdBack, dark.phase, State.full, dark.battery]
      rfl
    by_cases yields : s.hold.eligible = true ∧ s.holding = true ∧ s.call.record = none
    · obtain ⟨was, holding, record⟩ := yields
      obtain ⟨dark, mainsOff, room⟩ := lost.finish_yields calm' rfl low was holding record
      have state : s.hold.state = .holding := of_decide_eq_true holding
      refine answers_of run ⟨dark.mains, dark.battery, dark.rejoin, dark.off, dark.readyTimer, dark.upTransfer,
        dark.uplink, dark.data, dark.absent, mainsOff, dark.ineligible, shown dark, fun _ claiming => ?_,
        fun _ seeking => ?_, fun _ _ isSome => ?_, fun _ _ _ room' => room room'⟩
      · exact absurd (state.symm.trans claiming) nofun
      · exact absurd (state.symm.trans seeking) nofun
      · rw [record] at isSome
        cases isSome
    · obtain ⟨dark, mainsOff, hold⟩ := lost.finish calm' rfl low yields
      refine answers_of run ⟨dark.mains, dark.battery, dark.rejoin, dark.off, dark.readyTimer, dark.upTransfer,
        dark.uplink, dark.data, dark.absent, mainsOff, dark.ineligible, shown dark, fun was claiming => ?_,
        fun was seeking => ?_, fun was holding _ => ?_, fun was holding record => absurd ⟨was, holding, record⟩ yields⟩
      · rw [hold, show w.hold = s.hold from rfl, was, if_pos rfl, Hold.losesEligibility, claiming]
        exact ⟨rfl, rfl⟩
      · rw [hold, show w.hold = s.hold from rfl, was, if_pos rfl, Hold.losesEligibility, seeking]
      · rw [State.holding, hold, show w.hold = s.hold from rfl, was, if_pos rfl, Hold.losesEligibility,
          show s.hold.state = .holding from of_decide_eq_true holding]
        exact ⟨rfl, rfl⟩
  · have still : mainsFall { s with pins := { s.pins with mains := false }, outs := [] } =
        { s with pins := { s.pins with mains := false }, outs := [] } := if_neg fun h => off (of_decide_eq_true h)
    exact mains_level calm rfl still
  · have still : mainsRise { s with pins := { s.pins with mains := true }, outs := [] } =
        { s with pins := { s.pins with mains := true }, outs := [] } := by
      rw [mainsRise, full]
    exact mains_level calm rfl still

end Sys2Proof.Machine
end

section
/-! PROOFS. The 10 s tap at a HALTED station (R14, R26, R44, R63): the roster entry of a lender expires at the tap, its
borrowed track goes, and the track's open quiet window with it. The wire was idle through that window, so a round opens,
which the HALT that sits rounds out counts: the control queue is not the old one with a HALT joined. -/

namespace Sys2Proof.Machine

open Sys2Proof

/-- Station 3, HALTED on mains power. It borrows slot A from station 5, which other stations have kept refreshing; the
slot's window is open over an idle wire. Station 5 is HALTED and due to expire. The HALT in the queue sits one round out
after a collision. -/
def haltedBorrower : State :=
  let b := State.atStart { lowPins with straps := ⟨3, true⟩, mains := true, ready := true } 0 []
  { b with
    phase := .running
    taps := ⟨false, false, true⟩
    now := 1000000
    power := { b.power with state := .full, frontEnd := .live }
    wire := { b.wire with control := [{ newEntry (some 0) .halt 900000 with collisions := 1, sitOut := 1 }] }
    hold := { b.hold with
      state := .halted, halt := some .rankClash
      roster := [⟨5, .listed .halted, 3, 0, none, none, none, none⟩] }
    noise := { b.noise with a := some ⟨400000, 1000000, 4, false, some ⟨5, 990000⟩, true, true⟩ }
    fault := { b.fault with conds := writeCond 0 .noiseTracked true, lamp := .double } }

theorem calm_haltedBorrower : Calm haltedBorrower := by
  unfold Calm
  decide +kernel

/-- The HALT that waited has counted a round. -/
theorem tap10s_haltedBorrower : ∃ t, exec .tap10s haltedBorrower = .next t ∧ t.wire.control.map (·.sitOut) = [0, 0] :=
  ⟨_, rfl, by decide +kernel⟩

theorem joined_haltedBorrower : (controlJoined haltedBorrower.wire.control
    (newEntry (some 0) .halt haltedBorrower.now)).map (·.sitOut) = [1, 0] := by decide +kernel

/-- Refutes O19: at the 10 s tap of a HALTED station the window of a track whose lender expires closes, a round opens,
and a HALT that sits rounds out counts it. -/
theorem not_slowTaps : ¬ Obligations.SlowTaps := by
  unfold Obligations.SlowTaps
  rintro ⟨-, -, slow⟩
  obtain ⟨t, run, -, -, -, -, -, -, -, -, -, -, control, -⟩ := slow haltedBorrower calm_haltedBorrower (.inl rfl) rfl
  obtain ⟨u, ran, counted⟩ := tap10s_haltedBorrower
  cases run.symm.trans ran
  rw [control rfl rfl, joined_haltedBorrower] at counted
  exact absurd counted (by decide)

end Sys2Proof.Machine
end

section
/-! PROOFS. A collision that drops a REQUEST (R16, R96, R134, R154): the statement about it asks for a settled
station, not for ports that hold what their states allow. At a PARKED port that waits for an answer the dropped
REQUEST clears the port; PORT_PARKED falls with it, a trigger that looks for its absence records the fault, and the
REPORT joins the control queue, which then is not what stood behind the dropped frame. -/

namespace Sys2Proof.Machine

open Sys2Proof

/-- Station 3 follows the holder, station 2, whose broadband is up. Its port 1 is PARKED and has a SEIZE outstanding,
which is in transmission after 15 collisions. Trigger 0 is set to the absence of PORT_PARKED. -/
def parkedCaller : State :=
  let b := State.atStart { lowPins with straps := ⟨3, false⟩, mains := true } 0 []
  { b with
    phase := .running
    now := 1000000
    cfg := { b.cfg with triggers := ⟨1#16 <<< condNo .portParked, false, true, 1, true⟩ :: b.cfg.triggers.tail }
    power := { b.power with state := .full, frontEnd := .live }
    wire := { b.wire with
      control := [{ newEntry (some 2) (.request .seize ⟨1, 0, 0, 0, 7⟩) 900000 with collisions := 15, inTx := true }]
      tx := some ⟨.control, [], some 990000⟩ }
    hold := { b.hold with
      state := .passive, known := some 2
      roster := [⟨2, .listed .holding, 0, 990000, none, none,
        some ⟨false, 0, false, false, true, 0, false, false, false⟩, none⟩] }
    ports := { b.ports with one := { Port.start with
      state := .parked, offHook := true, outReq := some ⟨.seize, 7, 2, 0, 990000, false⟩ } }
    fault := { b.fault with conds := writeCond 0 .portParked true } }

theorem calm_parkedCaller : Calm parkedCaller := by
  unfold Calm
  decide +kernel

/-- The frame has left its queue, and a REPORT has joined it. -/
theorem collision_parkedCaller : ∃ t, exec .collision parkedCaller = .next t ∧ t.wire.control.length = 1 :=
  ⟨_, rfl, by decide +kernel⟩

/-- Refutes O36: at its 16th collision a control frame leaves its queue, but the drop of a REQUEST can put a REPORT in
its place, where a port holds an outstanding request in a state that allows none. -/
theorem not_transmissionEnds : ¬ Obligations.TransmissionEnds := by
  unfold Obligations.TransmissionEnds
  rintro ⟨-, collision, -⟩
  obtain ⟨t, run, -, -, -, -, -, -, dropped, -⟩ := collision parkedCaller _ _ [] calm_parkedCaller (.inl rfl)
    rfl rfl rfl rfl
  obtain ⟨control, -⟩ := dropped (by decide) rfl (by decide)
  obtain ⟨u, ran, one⟩ := collision_parkedCaller
  cases run.symm.trans ran
  rw [control] at one
  exact absurd one (by decide)

end Sys2Proof.Machine
end

section
/-! PROOFS. Changes at the ports that the level rules hardly read (log 9, log 10): what a command that works on ports,
offers and the control queue leaves settled at a settled station. -/

namespace Sys2Proof.Machine

open Sys2Proof

/-! ## Steady changes -/

/-- From `s` to `u` ports, bindings, queues and the front end may have changed, but nothing that the level rules read
except the ports' being parked and the idle timer's conditions. -/
structure Steady (s u : State) : Prop where
  only : Only [.pins, .power, .wire, .ports, .call, .outs] s u
  pins : ∃ a b, u.pins = { s.pins with hook1 := a, hook2 := b }
  full : u.full = s.full
  rejoin : u.power.rejoin = s.power.rejoin
  data : u.wire.data = s.wire.data
  tone : ∀ n, (u.port n).tone = (s.port n).tone ∨ (u.port n).tone = s.dialTone ∨
    ((u.port n).tone ≠ .dial ∧ (u.port n).tone ≠ .stutter)
  record : u.call.record = s.call.record

section
variable {s u v : State}

theorem Steady.dialTone (h : Steady s u) : u.dialTone = s.dialTone := dialTone_eq_of_fault h.only.fault

theorem Steady.refl (s : State) : Steady s s :=
  ⟨.refl _ s, ⟨_, _, rfl⟩, rfl, rfl, rfl, fun _ => .inl rfl, rfl⟩

theorem Steady.trans (h : Steady s u) (k : Steady u v) : Steady s v := by
  obtain ⟨a, b, first⟩ := h.pins
  obtain ⟨c, d, second⟩ := k.pins
  refine ⟨h.only.trans k.only, ⟨c, d, by rw [second, first]⟩, k.full.trans h.full, k.rejoin.trans h.rejoin,
    k.data.trans h.data, fun n => ?_, k.record.trans h.record⟩
  obtain same | dial | other := k.tone n
  · rw [same]; exact h.tone n
  · exact .inr (.inl (dial.trans h.dialTone))
  · exact .inr (.inr other)

/-- A change of ports and bindings alone. -/
theorem Steady.of_ports (only : Only [.ports, .call] s u)
    (tone : ∀ n, (u.port n).tone = (s.port n).tone ∨ (u.port n).tone = s.dialTone ∨
      ((u.port n).tone ≠ .dial ∧ (u.port n).tone ≠ .stutter)) (record : u.call.record = s.call.record) :
        Steady s u := by
  refine ⟨only.mono (by decide), ⟨_, _, only.pins⟩, ?_, ?_, ?_, tone, record⟩
  · rw [State.full, State.full, only.power]
  · rw [only.power]
  · rw [only.wire]

theorem steady_modPort (n : PortNo) (f : Port → Port) (s : State)
    (tone : (f (s.port n)).tone = (s.port n).tone ∨ (f (s.port n)).tone = s.dialTone ∨
      ((f (s.port n)).tone ≠ .dial ∧ (f (s.port n)).tone ≠ .stutter)) : Steady s (s.modPort n f) := by
  refine .of_ports ((State.modPort_only n f s).mono (by decide)) (fun m => ?_) rfl
  by_cases same : m = n
  · subst same
    rw [State.port_modPort_same]
    exact tone
  · rw [State.port_modPort_other f s same]
    exact .inl rfl

theorem steady_dropBinding (n : PortNo) (s : State) : Steady s (dropBinding n s) :=
  .of_ports ((dropBinding_only n s).mono (by decide)) (fun _ => .inl rfl) rfl

theorem steady_clearPort (n : PortNo) (c : Option PortCause) (r : Option (Nat × Nat)) (s : State) :
    Steady s (clearPort n c r s) :=
  (steady_modPort n (Port.clear s.now c r) s (.inr (.inr ⟨nofun, nofun⟩))).trans (steady_dropBinding n _)

theorem steady_idlePort (n : PortNo) (s : State) : Steady s (idlePort n s) :=
  steady_modPort n _ s (.inr (.inr ⟨nofun, nofun⟩))

theorem steady_connectPort (n : PortNo) (c : CallRef) (s : State) : Steady s (connectPort n c s) :=
  steady_modPort n _ s (.inr (.inr ⟨nofun, nofun⟩))

theorem steady_useTag (s : State) : Steady s (useTag s) :=
  .of_ports ((useTag_only s).mono (by decide)) (fun n => by rw [port_useTag]; exact .inl rfl) rfl

theorem steady_offerControl (dst : Nat) {b : Body} (s : State) (hb : b ≠ .beacon) (hh : b ≠ .halt) :
    Steady s (offerControl dst b s) := by
  have only := offerControl_only dst b s
  refine ⟨only.mono (by decide), ⟨_, _, only.pins⟩, ?_, by rw [only.power], ?_, fun n => .inl ?_, by rw [only.call]⟩
  · rw [State.full, State.full, only.power]
  · rw [offerControl_eq dst s hb hh]; rfl
  · rw [port_congr only.ports]

theorem steady_quiet (s : State) : Steady s s.quiet :=
  ⟨fun p hp => by cases p <;> first | rfl | exact absurd (by decide) hp, ⟨_, _, rfl⟩, rfl, rfl, rfl,
    fun _ => .inl rfl, rfl⟩

theorem steady_wake (s : State) : Steady s (wake s) := by
  have only := wake_only s
  refine ⟨only.mono (by decide), ⟨_, _, only.pins⟩, ?_, ?_, by rw [only.wire], fun n => .inl ?_, by rw [only.call]⟩
  · unfold wake
    split
    · next asleep => simp [State.full, asleep]
    · rfl
  · unfold wake
    split <;> rfl
  · rw [port_congr only.ports]

/-- A hook input's level told (R90). -/
def hookTold (b : Bool) (n : PortNo) (s : State) : State := (s.tell fun p => setHook b p n).quiet

theorem steady_hookTold (b : Bool) (n : PortNo) (s : State) : Steady s (hookTold b n s) := by
  refine ⟨fun p hp => by cases p <;> first | rfl | exact absurd (by decide) hp, ?_, rfl, rfl, rfl, fun _ =>
    .inl rfl, rfl⟩
  cases n <;> exact ⟨_, _, rfl⟩

theorem calm_hookTold {b : Bool} {n : PortNo} (calm : Calm s) : Calm (hookTold b n s) := by
  have first := calm.first
  have rest := calm.rest
  cases n <;>
  exact calm_of calm.active (.of_none first.eligible first.degraded first.holder calm.dropped) calm.dropped
    ⟨⟨rest.head, rest.conds, rest.reports, rest.offer, rest.transfer, rest.outpulse, rest.loss, rest.lamp, rest.tones⟩,
      rest.idle⟩

/-! ## What stays settled through them -/

theorem Steady.holding (h : Steady s u) : u.holding = s.holding := by rw [State.holding, State.holding, h.only.hold]

theorem Steady.halted (h : Steady s u) : u.halted = s.halted := halted_congr (by rw [h.only.hold])

theorem Steady.eligible (h : Steady s u) (f : s.eligibleNow = s.hold.eligible) : u.eligibleNow = u.hold.eligible := by
  rw [State.eligibleNow, h.only.straps, h.full, h.rejoin, h.halted, State.cond, h.only.fault, h.only.hold]
  exact f

theorem Steady.computeHolder (h : Steady s u) : u.computeHolder = s.computeHolder :=
  computeHolder_congr h.only.straps (by rw [h.only.hold]) (by rw [h.only.hold]) (by rw [h.record])

theorem Steady.first (h : Steady s u) (f : FirstSettled s)
    (notices : ∀ b ∈ u.wire.dropped, droppedNotice (clearNotices u) b = clearNotices u) : FirstSettled u := by
  refine ⟨h.eligible f.eligible, ?_, ?_, notices⟩
  · rw [h.holding, h.record, h.only.hold]; exact f.degraded
  · rw [h.computeHolder, h.only.hold]; exact f.holder

theorem Steady.others (h : Steady s u) (o : OthersSettled s)
    (parked : ∀ n, (u.port n).state = .parked ↔ (s.port n).state = .parked) : OthersSettled u := by
  obtain ⟨a, b, pins⟩ := h.pins
  have only := h.only
  have loop : u.loopClosed = s.loopClosed := by simp only [State.loopClosed, h.record]
  have anyParked : u.anyParked = s.anyParked := by
    refine Bool.eq_iff_iff.mpr ?_
    simp only [State.anyParked, List.any_eq_true, decide_eq_true_eq, State.fittedPorts, only.cfg]
    exact exists_congr fun n => and_congr Iff.rfl (parked n)
  refine ⟨headSettled_of_data h.data o.head, ?_, ?_, ?_, ?_, ?_, ?_, ?_, ?_⟩
  · exact condsSettled_congr (by rw [only.fault]) (by rw [only.noise]) (by rw [only.hold]) h.full (by rw [pins])
      anyParked (anyShort_congr only.cfg fun n => by rw [pins]; cases n <;> rfl) h.holding o.conds
  · have settled := o.reports
    simp only [reportsSettled, State.broadbandOf, State.peer] at settled ⊢
    rw [h.holding, h.halted, only.fault, only.report, only.hold]
    exact settled
  · have settled := o.offer
    rw [offerSettled] at settled ⊢
    rw [h.holding, only.sup, only.report]
    exact settled
  · have settled := o.transfer
    rw [transferSettled] at settled ⊢
    rw [only.sup, pins]
    exact settled
  · have settled := o.outpulse
    simp only [outpulseSettled, h.record] at settled ⊢
    exact settled
  · have settled := o.loss
    simp only [lossSettled, h.record, pins, loop] at settled ⊢
    exact settled
  · rw [State.lampWanted, h.halted, only.fault]
    exact o.lamp
  · rw [List.all_eq_true]
    intro n hn
    have old := List.all_eq_true.mp o.tones n (by rwa [State.fittedPorts, only.cfg] at hn)
    simp only [toneSettled, h.dialTone] at old ⊢
    obtain same | dial | ⟨notDial, notStutter⟩ := h.tone n
    · rw [same]; exact old
    · rw [dial]; simp
    · simp [notDial, notStutter]

/-- A port off its hook, in a call or waiting for an answer keeps the station from WATCH (R168). -/
theorem staysUp_of_busy {n : PortNo} (busy : portIdle (u.port n) = false) : StaysUp u := by
  intro idle
  have no : u.idleHolds = false := by
    cases n
    · simp [State.idleHolds, show portIdle u.ports.one = false from busy]
    · simp [State.idleHolds, show portIdle u.ports.two = false from busy]
  rw [no] at idle
  cases idle

theorem portIdle_of_offHook {p : Port} (off : p.offHook = true) : portIdle p = false := by simp [portIdle, off]

theorem portIdle_of_outReq {p : Port} {q : OutReq} (request : p.outReq = some q) : portIdle p = false := by
  simp [portIdle, request]

theorem portIdle_of_callRef {p : Port} {c : CallRef} (ref : p.callRef = some c) : portIdle p = false := by
  simp [portIdle, ref]

theorem Steady.staysUp (h : Steady s u) (awake : Awake s) : StaysUp u := by
  intro idle
  obtain ⟨a, b, pins⟩ := h.pins
  obtain full | low := awake
  · have full' : u.full = true := by rw [h.full]; simp [State.full, full]
    have state : u.power.state = .full := of_decide_eq_true full'
    simp [State.idleHolds, state] at idle
  · rw [pins]; exact low

/-! ## The command's end after them -/

/-- The idle timer written as its conditions require, the notices handed on. -/
def idleWritten (u : State) : State :=
  clearNotices (u.modPower fun p => { p with idle := if u.idleHolds then some (p.idle.getD u.now) else none })

theorem idleWritten_only (u : State) : Only [.power, .wire] u (idleWritten u) := by
  intro p hp
  cases p <;> first | rfl | exact absurd (by decide) hp

theorem idleWritten_control (u : State) : (idleWritten u).wire.control = u.wire.control := rfl

theorem port_idleWritten (u : State) (n : PortNo) : (idleWritten u).port n = u.port n := rfl

theorem Steady.finish (h : Steady s u) (calm : Calm s) (up : StaysUp u)
    (parked : ∀ n, (u.port n).state = .parked ↔ (s.port n).state = .parked)
    (notices : ∀ b ∈ u.wire.dropped, droppedNotice (clearNotices u) b = clearNotices u) :
    finish u = idleWritten u :=
  finish_others (h.first calm.first notices) (h.others calm.rest.toOthersSettled parked) up

theorem no_notices (dropped : u.wire.dropped = []) :
    ∀ b ∈ u.wire.dropped, droppedNotice (clearNotices u) b = clearNotices u := by
  rw [dropped]; nofun

theorem inert_notices (dropped : ∀ d ∈ u.wire.dropped, inert d = true) :
    ∀ b ∈ u.wire.dropped, droppedNotice (clearNotices u) b = clearNotices u :=
  fun b hb => droppedNotice_inert _ (dropped b hb)

end

/-! ## A port that must not be parked -/

end Sys2Proof.Machine
end

section
/-! PROOFS. A station's own parties leave the line call (R38, R103, R117, R122): the LEAVE judged inside the holder, and
what a port and the control queue are left with. -/

namespace Sys2Proof.Machine

open Sys2Proof

/-! ## Changes of the calls carried along -/

section
variable {s u v : State}

/-- The same change of the call controller on both sides. -/
theorem Steady.modCall (h : Steady s u) (f : Call → Call) (same : u.call = s.call) :
    Steady (s.modCall f) (u.modCall f) := by
  refine ⟨fun p hp => ?_, h.pins, h.full, h.rejoin, h.data, h.tone, by simp [State.modCall, same]⟩
  have kept := h.only p
  cases p <;> first | exact kept (by decide) | exact absurd (by decide) hp

theorem Steady.abortTest (h : Steady s u) : Steady (abortTest s) (abortTest u) := by
  refine ⟨fun p hp => ?_, h.pins, h.full, h.rejoin, h.data, h.tone, h.record⟩
  have kept := h.only p
  cases p <;>
  first
  | exact kept (by decide)
  | exact absurd (by decide) hp
  | exact congrArg (fun m : FaultMon => { m with test := none }) (h.only .fault (by decide))

theorem Steady.noted (h : Steady s u) (n : Noted s) (dropped : ∀ d ∈ u.wire.dropped, inert d = true) : Noted u := by
  refine ⟨h.eligible n.eligible, ?_, ?_, dropped⟩
  · rw [h.holding, h.record, h.only.hold]; exact n.degraded
  · rw [h.computeHolder, h.holding, h.only.hold]; exact n.holder

theorem OthersSettled.holderNoted (o : OthersSettled s) (n : Noted s) : OthersSettled (holderNoted s) := by
  obtain same | ⟨holding, -⟩ := n.holder
  · have e : Machine.holderNoted s = s := by rw [Machine.holderNoted, same]; rfl
    rw [e]; exact o
  · have reports : reportsSettled (Machine.holderNoted s) = true := by
      have old := o.reports
      have holding' : (Machine.holderNoted s).holding = true := holding
      rw [reportsSettled, holding, if_pos rfl] at old
      rw [reportsSettled, holding', if_pos rfl]
      exact old
    exact ⟨o.head, o.conds, reports, o.offer, o.transfer, o.outpulse, o.loss, o.lamp, o.tones⟩

/-- The command's end where the known holder may have to be noted. -/
theorem finish_noted_others (n : Noted u) (o : OthersSettled u) (up : StaysUp u) :
    finish u = idleWritten (clearNotices (holderNoted u)) := by
  have settled := o.holderNoted n
  have cleared : OthersSettled (clearNotices (holderNoted u)) :=
    ⟨settled.head, settled.conds, settled.reports, settled.offer, settled.transfer, settled.outpulse, settled.loss,
      settled.lamp, settled.tones⟩
  rw [finish_noted n, settleRest_others cleared up]
  rfl

end

/-! ## The last party leaves a degraded holder (R38) -/

theorem enterYielding_ended {s : State} (record : s.call.record = none) :
    Only [.wire, .hold, .sup, .fault, .report, .outs] s (enterYielding none s) :=
  (offerControl_only _ _ _).after ((State.modHold_only _ _).after ((leaveHolding_read record).1.mono (by decide))
    (by decide)) (by decide)

theorem droppedNotice_yield {b : Body} (s : State) (hb : b = .yield ∨ inert b = true) :
    Only [.hold] s (droppedNotice s b) := by
  obtain rfl | inert := hb
  · show Only [.hold] s (if s.hold.state = .yielding then yieldDone s else s)
    split
    · exact yieldDone_only s
    · exact .refl _ s
  · rw [droppedNotice_inert s inert]
    exact .refl _ s

theorem settleNotices_yield {s : State} (dropped : ∀ b ∈ s.wire.dropped, b = .yield ∨ inert b = true) :
    Only [.wire, .hold] s (settleNotices s) := by
  have fold : ∀ (l : List Body) (t : State), (∀ b ∈ l, b = .yield ∨ inert b = true) →
      Only [.hold] t (l.foldl droppedNotice t) := by
    intro l
    induction l with
    | nil => exact fun t _ => .refl _ t
    | cons b l ih =>
      exact fun t h => (droppedNotice_yield t (h b (by simp))).trans (ih _ fun c hc => h c (by simp [hc]))
  exact ((State.modWire_only _ s).mono (by decide)).trans ((fold _ _ dropped).mono (by decide))

/-- What the first rules do at a degraded holder whose record has ended: it leaves the line, and its ports stay. -/
theorem settleFirst_degraded {s : State} (eligible : s.eligibleNow = s.hold.eligible) (holding : s.holding = true)
    (degraded : s.hold.degraded = true) (record : s.call.record = none) (known : s.hold.known.isSome = true)
    (dropped : s.wire.dropped = []) :
    Only [.wire, .hold, .sup, .fault, .report, .outs] s (settleFirst s) := by
  have yields : settleDegraded s = enterYielding none s := by
    rw [settleDegraded, holding, degraded, record]; rfl
  obtain ⟨k, x, noted⟩ := settleHolder_yielding (enterYielding_state s) (by rw [enterYielding_known]; exact known)
  rw [settleFirst, settleEligible_of eligible, yields, noted]
  have notices := settleNotices_yield (s := (enterYielding none s).modHold fun h =>
    { h with known := k, noHolder := x })
    (enterYielding_drops dropped)
  exact (enterYielding_ended record).trans (((State.modHold_only _ _).mono (by decide)).trans
    (notices.mono (by decide)))

/-! ## A port that has hung up (R103) -/

/-- `w` is the station `s` that turns to a port's hook: inputs and outputs apart, it differs in the break of that port
alone. -/
structure HookView (n : PortNo) (s w : State) : Prop where
  steady : Steady s w
  wire : w.wire = s.wire
  call : w.call = s.call
  tag : w.ports.tag = s.ports.tag
  port : ∃ b, w.port n = { s.port n with breakStart := b }
  other : ∀ m, m ≠ n → w.port m = s.port m

/-- `v` is the station `x` with its port `n` taken out of everything it was in. -/
structure HungUp (n : PortNo) (x v : State) : Prop where
  steady : Steady x v
  wire : v.wire = x.wire
  tag : v.ports.tag = x.ports.tag
  other : ∀ m, m ≠ n → v.port m = x.port m
  away : (v.port n).state ≠ .parked
  outReq : (v.port n).outReq = none
  bindings : ∀ b ∈ v.call.bindings, b ∈ x.call.bindings ∧ (b.connected = true → n ∉ b.locals)

section
variable {n : PortNo} {s w x v : State}

theorem HookView.own (view : HookView n s w) : w.own = s.own := by rw [State.own, view.steady.only.straps, State.own]

theorem HookView.state (view : HookView n s w) : (w.port n).state = (s.port n).state := by
  obtain ⟨b, port⟩ := view.port
  rw [port]

/-- Where the port is not parked, hanging up parks or releases no port. -/
theorem HungUp.parked (hung : HungUp n x v) (away : (s.port n).state ≠ .parked)
    (kept : ∀ m, m ≠ n → ((x.port m).state = .parked ↔ (s.port m).state = .parked)) (m : PortNo) :
    (v.port m).state = .parked ↔ (s.port m).state = .parked := by
  by_cases same : m = n
  · subst same
    simp [hung.away, away]
  · rw [hung.other m same]
    exact kept m same

theorem settleFirst_ports (f : FirstSettled v) : (settleFirst v).ports = v.ports := by
  rw [settleFirst_of f, (clearNotices_only v).ports]

theorem takeLeave_ofView (view : HookView n s w) (ref : Nat)
    (away : s.call.record = none ∨ s.holding = false ∨ ∀ r, s.call.record = some r → ref ≠ 0 ∧ ref ≠ r.id) :
    takeLeave w.own (portNo n) ref w = w :=
  takeLeave_ignored (by rw [view.call, view.steady.holding]; exact away)

/-- A LEAVE inside the station that fits no record changes nothing (R117). -/
theorem leftInside_ignored {ref : Nat} (calm : Calm s) (view : HookView n s w) (hung : HungUp n w v) (up : StaysUp v)
    (away : (s.port n).state ≠ .parked)
    (ignored : s.call.record = none ∨ s.holding = false ∨ ∀ r, s.call.record = some r → ref ≠ 0 ∧ ref ≠ r.id) :
    LeftInside n ref s (finish v) ∧ (settleFirst v).ports = v.ports := by
  have steady : Steady s v := view.steady.trans hung.steady
  have wire : v.wire = s.wire := hung.wire.trans view.wire
  have notices := no_notices (u := v) (by rw [wire, calm.dropped])
  refine ⟨?_, settleFirst_ports (steady.first calm.first notices)⟩
  rw [steady.finish calm up (hung.parked away fun m hm => by rw [view.other m hm]) notices]
  have tag : (idleWritten v).ports.tag = s.ports.tag := hung.tag.trans view.tag
  have control : (idleWritten v).wire.control = s.wire.control := by rw [idleWritten_control, wire]
  have record : (idleWritten v).call.record = s.call.record := steady.record
  refine ⟨tag, ?_⟩
  cases hr : s.call.record with
  | none => exact ⟨record.trans hr, control⟩
  | some r =>
    have unnamed : ¬(s.hold.state = .holding ∧ (ref = 0 ∨ ref = r.id)) := fun ⟨state, named⟩ => by
      obtain none | idle | other := ignored
      · rw [hr] at none; cases none
      · rw [holding_iff.mpr state] at idle; cases idle
      · obtain ⟨h0, hid⟩ := other r hr
        exact named.elim h0 hid
    simp only [if_neg unnamed]
    exact ⟨record.trans hr, control⟩

/-- The station after a party at the port has left inside it, before the command's end. -/
theorem steady_left {ref : Nat} {r : CallRecord} (view : HookView n s w) (hr : s.call.record = some r)
    (holding : s.holding = true) (named : ref = 0 ∨ ref = r.id)
    (hung : HungUp n (takeLeave w.own (portNo n) ref w) v) :
    Steady (removeParty s.own (portNo n) s) v ∧ v.wire = s.wire ∧ v.ports.tag = s.ports.tag ∧
      (v.port n).state ≠ .parked ∧ ∀ m, m ≠ n → v.port m = s.port m := by
  have taken := takeLeave_taken (st := w.own) (po := portNo n) (s := w) (by rw [view.call, hr])
    (by rw [view.steady.holding, holding]) named
  rw [taken, view.own] at hung
  exact ⟨(view.steady.modCall _ view.call).trans hung.steady, hung.wire.trans view.wire, hung.tag.trans view.tag,
    hung.away, fun m hm => (hung.other m hm).trans (view.other m hm)⟩

/-- What the command's end leaves where the record goes on, or ends at a holder that is not degraded. -/
theorem finish_left {z : State} (calm : Calm s) (only : Only [.call] s z) (rest : RestSettled z)
    (stays : s.hold.degraded = false ∨ z.call.record.isSome = true) (steady : Steady z v) (up : StaysUp v)
    (wire : v.wire = s.wire) (parked : ∀ m, (v.port m).state = .parked ↔ (z.port m).state = .parked) :
    finish v = idleWritten (clearNotices (holderNoted v)) ∧ (settleFirst v).ports = v.ports := by
  have dropped : v.wire.dropped = [] := by rw [wire, calm.dropped]
  have noted : Noted v := steady.noted (.setCall calm (only.mono (by decide)) stays) (by rw [dropped]; nofun)
  refine ⟨finish_noted_others noted (steady.others rest.toOthersSettled parked) up, ?_⟩
  rw [settleFirst_noted noted]
  rfl

/-- The last party of a degraded holder leaves: the line is yielded, and its ports stay as they are (R38). -/
theorem finish_left_degraded {z : State} (calm : Calm s) (only : Only [.call] s z) (holding : s.holding = true)
    (degraded : s.hold.degraded = true) (ended : z.call.record = none) (steady : Steady z v) (wire : v.wire = s.wire) :
    (settleFirst v).ports = v.ports ∧ (finish v).call.record = none ∧ (finish v).ports.tag = v.ports.tag ∧
      (s.wire.control.length < 8 → (finish v).hold.state = .yielding) := by
  have hold : v.hold = s.hold := steady.only.hold.trans only.hold
  have eligible : v.eligibleNow = v.hold.eligible := by
    refine steady.eligible ?_
    rw [only.hold, ← calm.first.eligible]
    exact eligibleNow_congr only.straps only.power (by rw [State.cond, State.cond, only.fault]) (by rw [only.hold])
  have holding' : v.holding = true := by rw [State.holding, hold]; exact holding
  have record : v.call.record = none := steady.record.trans ended
  have known : v.hold.known.isSome = true := by
    rw [hold, ← calm.first.holder]
    exact computeHolder_isSome_of_holding holding
  have dropped : v.wire.dropped = [] := by rw [wire, calm.dropped]
  have first := settleFirst_degraded eligible holding' (by rw [hold, degraded]) record known dropped
  refine ⟨first.ports, ?_, ?_, fun room => ?_⟩
  · rw [finish_eq]
    exact (settleRest_call (settleFirst v)).1 (by rw [first.call, record])
  · rw [finish_eq, settleRest_tag, first.ports]
  · have head : headSettled v = true :=
      headSettled_of_data (steady.data.trans (by rw [only.wire])) calm.rest.head
    exact (finish_yields ⟨eligible, holding', by rw [hold, degraded], record, known, head, by rw [dropped]; nofun,
      by rw [wire]; exact room⟩).state

/-- A LEAVE inside the station that fits the record is taken: the port is a party no more, the last to leave ends the
record, and at a degraded holder the line is then yielded (R38, R117, R122). -/
theorem leftInside_taken {ref : Nat} {r : CallRecord} (calm : Calm s) (view : HookView n s w)
    (hung : HungUp n (takeLeave w.own (portNo n) ref w) v) (away : (s.port n).state ≠ .parked)
    (hr : s.call.record = some r) (holding : s.holding = true) (named : ref = 0 ∨ ref = r.id) :
    LeftInside n ref s (finish v) ∧ (settleFirst v).ports = v.ports := by
  obtain ⟨steady, wire, tag, parkless, other⟩ := steady_left view hr holding named hung
  have only := removeParty_only s.own (portNo n) s
  have record := removeParty_record (st := s.own) (po := portNo n) hr
  have rest := calm.rest.removeParty s.own (portNo n) hr
  have named' : s.hold.state = .holding ∧ (ref = 0 ∨ ref = r.id) := ⟨holding_iff.mp holding, named⟩
  have parked (m : PortNo) :
      (v.port m).state = .parked ↔ ((removeParty s.own (portNo n) s).port m).state = .parked := by
    rw [port_congr only.ports]
    by_cases same : m = n
    · subst same
      simp [parkless, away]
    · rw [other m same]
  have up : StaysUp v := staysUp_of_holding (by rw [steady.holding, State.holding, only.hold]; exact holding)
  have gone : r.parties.all (isParty s.own (portNo n)) = true ↔
      (r.parties.filter fun p => !(decide (p.station = s.own) && decide (p.port = portNo n))) = [] := by
    simp [List.filter_eq_nil_iff, isParty]
  by_cases degraded : s.hold.degraded = true ∧ r.parties.all (isParty s.own (portNo n)) = true
  · obtain ⟨degraded, all⟩ := degraded
    rw [if_pos all] at record
    obtain ⟨ports, ended, tag', yields⟩ := finish_left_degraded calm only holding degraded record steady wire
    refine ⟨⟨tag'.trans tag, ?_⟩, ports⟩
    rw [hr]
    simp only [if_pos named', if_pos (gone.mp all)]
    exact ⟨ended, loopClosed_of_none ended, fun no => absurd (degraded.symm.trans no) (by decide), fun _ => yields⟩
  · have stays : s.hold.degraded = false ∨ (removeParty s.own (portNo n) s).call.record.isSome = true := by
      by_cases all : r.parties.all (isParty s.own (portNo n)) = true
      · exact .inl (Bool.eq_false_iff.mpr fun yes => degraded ⟨yes, all⟩)
      · exact .inr (by rw [record, if_neg all]; rfl)
    obtain ⟨ends, ports⟩ := finish_left calm only rest stays steady up wire parked
    rw [ends]
    have call : (idleWritten (clearNotices (holderNoted v))).call.record =
      (removeParty s.own (portNo n) s).call.record := steady.record
    have control : (idleWritten (clearNotices (holderNoted v))).wire.control = s.wire.control := by
      show v.wire.control = s.wire.control
      rw [wire]
    have state : (idleWritten (clearNotices (holderNoted v))).hold.state = s.hold.state := by
      show v.hold.state = s.hold.state
      rw [steady.only.hold, only.hold]
    refine ⟨⟨tag, ?_⟩, ports⟩
    rw [hr]
    simp only [if_pos named']
    by_cases all : r.parties.all (isParty s.own (portNo n)) = true
    · rw [if_pos all] at record
      rw [if_pos (gone.mp all)]
      have ended := call.trans record
      exact ⟨ended, loopClosed_of_none ended, fun _ => ⟨state.trans named'.1, control⟩,
        fun yes => absurd ⟨yes, all⟩ degraded⟩
    · rw [if_neg all] at record
      rw [if_neg fun e => all (gone.mpr e)]
      exact ⟨call.trans record, control⟩

/-- A LEAVE judged inside the station (R117). -/
theorem leftInside {ref : Nat} (calm : Calm s) (view : HookView n s w)
    (hung : HungUp n (takeLeave w.own (portNo n) ref w) v) (up : StaysUp v) (away : (s.port n).state ≠ .parked) :
    LeftInside n ref s (finish v) ∧ (settleFirst v).ports = v.ports := by
  by_cases taken : ∃ r, s.call.record = some r ∧ s.holding = true ∧ (ref = 0 ∨ ref = r.id)
  · obtain ⟨r, hr, holding, named⟩ := taken
    exact leftInside_taken calm view hung away hr holding named
  · have ignored : s.call.record = none ∨ s.holding = false ∨
        ∀ r, s.call.record = some r → ref ≠ 0 ∧ ref ≠ r.id := by
      cases hr : s.call.record with
      | none => exact .inl rfl
      | some r =>
        cases hh : s.holding with
        | false => exact .inr (.inl rfl)
        | true =>
          refine .inr (.inr fun q hq => ?_)
          cases hq
          exact not_or.mp fun named => taken ⟨r, hr, hh, named⟩
    rw [takeLeave_ofView view ref ignored] at hung
    exact leftInside_ignored calm view hung up away ignored

end

end Sys2Proof.Machine
end

section
/-! PROOFS. What a port sends as it goes on-hook, and what its on-hook does inside the station (R103, R117, R122,
R130). -/

namespace Sys2Proof.Machine

open Sys2Proof

/-! ## REQUESTs that no port waits on -/

theorem requestDropped_away {k : RequestKind} {tag : Nat} {n : PortNo} {s : State}
    (away : ∀ q, (s.port n).outReq = some q → q.kind ≠ k) : requestDropped k tag n s = s := by
  unfold requestDropped
  split
  · next q hq => exact if_neg fun h => away q hq h.2
  · rfl

theorem portOk_kind {p : Port} {q : OutReq} (ok : portOk p = true) (hq : p.outReq = some q) :
    q.kind = .offer ∨ q.kind = .seize ∨ q.kind = .answer := by
  obtain ⟨-, kind⟩ | ⟨-, kind⟩ := portOk_outReq ok hq
  · exact .inl kind
  · exact .inr kind

/-- A REQUEST of a kind that no port waits on, dropped, is nothing to hand on. -/
theorem request_notices {dst : Nat} {k : RequestKind} {m : RequestMsg} {y v : State}
    (none_dropped : y.wire.dropped = [])
    (wire : v.wire = (offerControl dst (.request k m) y).wire)
    (away : ∀ n q, (v.port n).outReq = some q → q.kind ≠ k) :
    ∀ b ∈ v.wire.dropped, droppedNotice (clearNotices v) b = clearNotices v := by
  intro b hb
  have dropped : v.wire.dropped = controlDrops y (.request k m) := by
    rw [wire, offerControl_eq (b := .request k m) dst y nofun nofun]
    show y.wire.dropped ++ _ = _
    rw [none_dropped, List.nil_append]
  rw [dropped] at hb
  obtain rfl | rfl := mem_controlDrops hb
  · exact eachPort_fixed fun n => requestDropped_away fun q hq => away n q hq
  · rfl

/-! ## The REPORT that a change of conditions brings (R154) -/

theorem mem_controlJoined_new {q : List TxEntry} {e x : TxEntry} (h : x ∈ controlJoined q e) : x ∈ q ∨ x = e := by
  unfold controlJoined at h
  split at h
  · simpa using h
  · dsimp only at h
    split at h
    · rw [List.mem_append, List.mem_singleton] at h
      exact h.imp_left List.mem_of_mem_eraseP
    · exact .inl h

theorem sendReport_joins {s : State} {x : TxEntry} (h : x ∈ (sendReport s).wire.control) :
    x ∈ s.wire.control ∨ ∃ r, x.body = .report r := by
  unfold sendReport at h
  split at h
  · split at h
    · split at h
      · next r _ =>
        rw [offerControl_eq (b := .report _) _ _ nofun nofun] at h
        have joined : x ∈ (if s.halted then s.wire.control else controlJoined s.wire.control _) := h
        split at joined
        · exact .inl joined
        · exact (mem_controlJoined_new joined).imp_right fun e => ⟨asSent r, by rw [e]; rfl⟩
      · exact .inl h
    · exact .inl h
  · exact .inl h

/-- The rules after the notices queue no control frame but a REPORT. -/
theorem settleRest_joins {s : State} (up : StaysUp s) (head : headSettled s = true) {x : TxEntry}
    (h : x ∈ (settleRest s).wire.control) : x ∈ s.wire.control ∨ ∃ r, x.body = .report r := by
  have middle : (settleMiddle s).wire = s.wire := by
    rw [settleMiddle_staysUp up, settleDataHead_of head, State.modPower_wire, (settleConds_only s).wire]
  rw [settleRest, clearNotices_control, (settleTones_only _).wire, settleLater, (settleLamp_only _).wire,
    (settleLoss_only _).wire, (startOutpulse_only _).wire, (startTransfer_only _).wire, (mailboxOffer_only _).wire] at h
  rw [← middle]
  unfold settleReports at h
  split at h
  · rw [takeIn_wire] at h
    exact .inl h
  · exact sendReport_joins h

/-! ## Hanging up -/

section
variable {n : PortNo} {s w x v : State}

/-- The command's end where what the port was in ended inside the station, without a frame. -/
theorem HungUp.finish (hung : HungUp n x v) (calm : Calm s) (steady : Steady s x) (wire : x.wire = s.wire)
    (up : StaysUp v) (away : (s.port n).state ≠ .parked)
    (kept : ∀ m, m ≠ n → ((x.port m).state = .parked ↔ (s.port m).state = .parked)) :
    finish v = idleWritten v ∧ (settleFirst v).ports = v.ports := by
  have settled : Steady s v := steady.trans hung.steady
  have notices := no_notices (u := v) (by rw [hung.wire, wire, calm.dropped])
  exact ⟨settled.finish calm up (hung.parked away kept) notices, settleFirst_ports (settled.first calm.first notices)⟩

theorem HungUp.nothingSent (hung : HungUp n x v) (wire : x.wire = s.wire) (tag : x.ports.tag = s.ports.tag)
    (ends : Machine.finish v = idleWritten v) : NothingSent s (Machine.finish v) := by
  rw [ends]
  refine ⟨?_, hung.tag.trans tag⟩
  rw [idleWritten_control, hung.wire, wire]

/-- The command's end where a LEAVE or an END was handed over. -/
theorem HungUp.sends {dst : Nat} {k : RequestKind} {m : RequestMsg} {y : State}
    (hung : HungUp n (offerControl dst (.request k m) y) v) (calm : Calm s) (ok : PortsOk s) (steady : Steady s y)
    (wire : y.wire = s.wire) (ports : ∀ m, m ≠ n → y.port m = s.port m) (up : StaysUp v)
    (away : (s.port n).state ≠ .parked) (kind : k = .leave ∨ k = .endCall) :
    (RequestHanded k dst m s (Machine.finish v) ∧ (Machine.finish v).ports.tag = y.ports.tag) ∧
      (settleFirst v).ports = v.ports := by
  have only := offerControl_only dst (.request k m) y
  have sent : Steady s (offerControl dst (.request k m) y) := steady.trans (steady_offerControl dst y nofun nofun)
  have settled : Steady s v := sent.trans hung.steady
  have same (p : PortNo) (hp : p ≠ n) : v.port p = s.port p := by
    rw [hung.other p hp, port_congr only.ports, ports p hp]
  have requests (p : PortNo) (q : OutReq) (hq : (v.port p).outReq = some q) : q.kind ≠ k := by
    by_cases at_n : p = n
    · subst at_n
      rw [hung.outReq] at hq
      cases hq
    · rw [same p at_n] at hq
      obtain e | e | e := portOk_kind (portsOk_port ok p) hq <;> obtain rfl | rfl := kind <;> simp [e]
  have notices := request_notices (by rw [wire, calm.dropped]) hung.wire requests
  refine ⟨?_, settleFirst_ports (settled.first calm.first notices)⟩
  rw [settled.finish calm up (hung.parked away fun p hp => by rw [port_congr only.ports, ports p hp]) notices]
  have handed : FrameHanded dst (.request k m) s (offerControl dst (.request k m) y) :=
    frameHanded_offerControl nofun nofun (by rw [wire]) steady.halted steady.only.now
  refine ⟨?_, ?_⟩
  · show v.wire.control = _
    rw [hung.wire]
    exact handed
  · show v.ports.tag = _
    rw [hung.tag, only.ports]

theorem HungUp.sendsRequest {dst : Nat} {k : RequestKind} {m : RequestMsg}
    (hung : HungUp n (sendRequest k dst m w) v) (calm : Calm s) (ok : PortsOk s) (view : HookView n s w)
      (up : StaysUp v)
    (away : (s.port n).state ≠ .parked) (kind : k = .leave ∨ k = .endCall) :
    (RequestHanded k dst { m with tag := s.ports.tag } s (Machine.finish v) ∧
      (Machine.finish v).ports.tag = nextTag s.ports.tag) ∧ (settleFirst v).ports = v.ports := by
  have tag : (useTag w).ports.tag = nextTag s.ports.tag := by
    show nextTag w.ports.tag = _
    rw [view.tag]
  rw [sendRequest, view.tag] at hung
  have sent := hung.sends calm ok (view.steady.trans (steady_useTag w)) view.wire
    (fun p hp => by rw [port_useTag, view.other p hp]) up away kind
  rw [tag] at sent
  exact sent

theorem HookView.kept (view : HookView n s w) :
    ∀ m, m ≠ n → ((w.port m).state = .parked ↔ (s.port m).state = .parked) :=
  fun m hm => by rw [view.other m hm]

/-- A port that sends nothing (R103). -/
theorem hung_silent (calm : Calm s) (view : HookView n s w) (hung : HungUp n w v) (up : StaysUp v)
    (away : (s.port n).state ≠ .parked) : NothingSent s (finish v) ∧ (settleFirst v).ports = v.ports := by
  obtain ⟨ends, ports⟩ := hung.finish calm view.steady view.wire up away view.kept
  exact ⟨hung.nothingSent view.wire view.tag ends, ports⟩

/-- A PARKED port's on-hook: it sends nothing, but the condition it ends may bring a REPORT (R103, R105, R154). -/
theorem hung_parked (calm : Calm s) (view : HookView n s w) (hung : HungUp n w v) (up : StaysUp v) :
    ((finish v).ports.tag = s.ports.tag ∧
      ∀ e ∈ (finish v).wire.control, e ∈ s.wire.control ∨ ∃ r, e.body = .report r) ∧
      (settleFirst v).ports = v.ports := by
  have settled : Steady s v := view.steady.trans hung.steady
  have wire : v.wire = s.wire := hung.wire.trans view.wire
  have first := settled.first calm.first (no_notices (by rw [wire, calm.dropped]))
  refine ⟨⟨?_, fun e he => ?_⟩, settleFirst_ports first⟩
  · rw [finish_eq, settleRest_tag, settleFirst_ports first, hung.tag, view.tag]
  · have head : headSettled (clearNotices v) = true := headSettled_of_data settled.data calm.rest.head
    rw [finish_eq, settleFirst_of first] at he
    have joined := settleRest_joins (s := clearNotices v) up head he
    rwa [clearNotices_control, wire] at joined

/-! ## The bindings that end inside the station (R130) -/

theorem steady_endLocal (connected : Bool) (s : State) (n : PortNo) : Steady s (endLocal connected s n) := by
  cases connected
  · exact steady_idlePort n s
  · exact steady_clearPort n none none s

theorem steady_endBinding (b : Binding) (s : State) : Steady s (endBinding b s) := by
  have fold : ∀ (l : List PortNo) (t : State), Steady t (l.foldl (endLocal b.connected) t) := by
    intro l
    induction l with
    | nil => exact fun t => .refl t
    | cons m l ih => exact fun t => (steady_endLocal b.connected t m).trans (ih _)
  rw [endBinding_eq]
  exact (fold _ s).trans (.of_ports ((State.modCall_only _ _).mono (by decide)) (fun _ => .inl rfl) rfl)

theorem tag_endBinding (b : Binding) (s : State) : (endBinding b s).ports.tag = s.ports.tag := by
  have local_tag (connected : Bool) (t : State) (n : PortNo) : (endLocal connected t n).ports.tag = t.ports.tag := by
    cases connected <;> cases n <;> rfl
  rw [endBinding_eq]
  exact foldl_read (P := fun t : State => t.ports.tag) (local_tag b.connected) b.locals s

/-- The port's on-hook ends its offer to the station's other port (R100, R103, R130). -/
theorem localOfferEnded {ref : Nat} (calm : Calm s) (ok : PortsOk s) (view : HookView n s w)
    (hung : HungUp n ((w.call.bindings.find? fun b => decide (b.ref = ref)).elim w fun b => endBinding b w) v)
    (up : StaysUp v) (away : (s.port n).state ≠ .parked) :
    LocalOfferEnded n ref s (finish v) ∧ (settleFirst v).ports = v.ports := by
  rw [view.call] at hung
  cases found : s.call.bindings.find? fun b => decide (b.ref = ref) with
  | none =>
    rw [found] at hung
    obtain ⟨sent, ports⟩ := hung_silent calm view hung up away
    obtain ⟨ends, -⟩ := hung.finish calm view.steady view.wire up away view.kept
    refine ⟨⟨sent, fun b hb => ?_, fun b hb => ?_⟩, ports⟩
    · rw [ends] at hb
      have listed : b ∈ w.call.bindings := (hung.bindings b hb).1
      rw [view.call] at listed
      simpa using List.find?_eq_none.mp found b listed
    · rw [found] at hb; cases hb
  | some b =>
    rw [found] at hung
    have listed := List.mem_of_find?_eq_some found
    have named : b.ref = ref := by simpa using List.find?_some found
    have only := endBinding_only b w
    have wire : (endBinding b w).wire = s.wire := by rw [only.wire, view.wire]
    have tag : (endBinding b w).ports.tag = s.ports.tag := (tag_endBinding b w).trans view.tag
    have port (m : PortNo) (hm : m ≠ n) : (endBinding b w).port m =
        if m ∈ b.locals then Port.ended b.connected s.now (s.port m) else s.port m := by
      rw [port_endBinding, view.other m hm, view.steady.only.now]
    have kept (m : PortNo) (hm : m ≠ n) :
        ((endBinding b w).port m).state = .parked ↔ (s.port m).state = .parked := by
      rw [port m hm]
      split
      · next here => exact (portKept_ended ok listed here).parked
      · exact Iff.rfl
    obtain ⟨ends, ports⟩ := HungUp.finish (x := endBinding b w) hung calm
      (view.steady.trans (steady_endBinding b w)) wire up away kept
    refine ⟨⟨HungUp.nothingSent (x := endBinding b w) hung wire tag ends, fun x hx => ?_,
      fun b' hb' off m hm other => ?_⟩,
      ports⟩
    · rw [ends] at hx
      rw [← named]
      exact mem_endBinding (hung.bindings x hx).1
    · rw [found] at hb'
      cases hb'
      rw [ends, port_idleWritten, hung.other m other]
      show ((endBinding b w).port m).state = _ ∧ ((endBinding b w).port m).pending = _ ∧
        ((endBinding b w).port m).ringOn = _
      rw [port m other, if_pos hm, off]
      exact ⟨rfl, rfl, rfl⟩

/-- An intercom call of the station's two ports ends at its other port (R103, R130). -/
theorem localCallEnded {m : PortNo} (calm : Calm s) (view : HookView n s w)
    (hung : HungUp n (clearPort m none none w) v) (up : StaysUp v) (away : (s.port n).state ≠ .parked) (other : m ≠ n)
    (connected : (s.port m).state ≠ .parked) :
    (NothingSent s (finish v) ∧ ((finish v).port m).state = .cleared ∧ ((finish v).port m).callRef = none ∧
      ((finish v).port m).tone = .busy ∧ ((finish v).port m).lastCause = none ∧
      ∀ b ∈ (finish v).call.bindings, b.connected = true → n ∉ b.locals ∧ m ∉ b.locals) ∧
      (settleFirst v).ports = v.ports := by
  have only := clearPort_only m none none w
  have wire : (clearPort m none none w).wire = s.wire := by rw [only.wire, view.wire]
  have tag : (clearPort m none none w).ports.tag = s.ports.tag := by
    rw [← view.tag]
    cases m <;> rfl
  have kept (p : PortNo) (hp : p ≠ n) :
      ((clearPort m none none w).port p).state = .parked ↔ (s.port p).state = .parked := by
    by_cases same : p = m
    · subst same
      rw [port_clearPort_same]
      simp [Port.clear, Port.setTone, connected]
    · rw [port_clearPort_other m w none none same, view.other p hp]
  obtain ⟨ends, ports⟩ := hung.finish calm (view.steady.trans (steady_clearPort m none none w)) wire up away kept
  refine ⟨⟨hung.nothingSent wire tag ends, ?_⟩, ports⟩
  rw [ends, port_idleWritten, hung.other m other, port_clearPort_same]
  refine ⟨rfl, rfl, rfl, rfl, fun b hb on => ?_⟩
  obtain ⟨listed, free⟩ := hung.bindings b hb
  refine ⟨free on, fun here => ?_⟩
  have filtered : b ∈ w.call.bindings.filter fun b => !(b.connected && b.locals.contains m) := listed
  have passed := (List.mem_filter.mp filtered).2
  simp [on, here] at passed

end

end Sys2Proof.Machine
end

section
/-! PROOFS. On-hook (R90, R91, R103): what the port does on its hook in each of its states. -/

namespace Sys2Proof.Machine

open Sys2Proof

section
variable {n : PortNo} {s w v : State}

/-! ## What a port hangs up from -/

theorem hangUp_silent (hs : (w.port n).state ≠ .waiting) (ho : (w.port n).state ≠ .offering)
    (hc : (w.port n).state ≠ .connected) : hangUp n w = w := by
  cases state : (w.port n).state with
  | waiting => exact absurd state hs
  | offering => exact absurd state ho
  | connected => exact absurd state hc
  | _ => simp only [hangUp, state]

theorem hangUp_waiting (state : (w.port n).state = .waiting) : hangUp n w =
    (w.port n).outReq.elim w fun q =>
      if q.held then w
      else if q.dst = w.own then takeLeave w.own (portNo n) 0 w
      else sendRequest .leave q.dst ⟨portNo n, w.portClass n, 0, 0, 0⟩ w := by
  cases request : (w.port n).outReq <;> simp only [hangUp, state, request, Option.elim]

theorem hangUp_offer {st target : Nat} (state : (w.port n).state = .offering)
    (pending : (w.port n).pending = some (.offered st target none)) : hangUp n w =
    (w.port n).outReq.elim w fun q =>
      if q.held then w
      else offerControl st (.request .endCall ⟨portNo n, w.portClass n, target, 0, q.tag⟩) w := by
  cases request : (w.port n).outReq <;> simp only [hangUp, state, pending, request, Option.elim]

theorem hangUp_granted {st target ref : Nat} (state : (w.port n).state = .offering)
    (pending : (w.port n).pending = some (.offered st target (some ref))) : hangUp n w =
    if st = w.own then (w.call.bindings.find? fun b => decide (b.ref = ref)).elim w fun b => endBinding b w
    else sendRequest .endCall st ⟨portNo n, w.portClass n, target, ref, 0⟩ w := by
  cases found : w.call.bindings.find? fun b => decide (b.ref = ref) <;>
    simp only [hangUp, state, pending, found, Option.elim]

theorem hangUp_unoffered (state : (w.port n).state = .offering)
    (pending : ∀ st target ref, (w.port n).pending ≠ some (.offered st target ref)) : hangUp n w = w := by
  cases held : (w.port n).pending with
  | none => simp only [hangUp, state, held]
  | some p =>
    cases p with
    | offered st target ref => exact absurd held (pending st target ref)
    | _ => simp only [hangUp, state, held]

theorem hangUp_outside {h id : Nat} (state : (w.port n).state = .connected)
    (ref : (w.port n).callRef = some (.outside h id)) : hangUp n w =
    if h = w.own then takeLeave w.own (portNo n) id w
    else sendRequest .leave h ⟨portNo n, w.portClass n, 0, id, 0⟩ w := by
  simp only [hangUp, state, ref]

theorem hangUp_intercom {st po ref l : Nat} (state : (w.port n).state = .connected)
    (call : (w.port n).callRef = some (.intercom st po ref l)) : hangUp n w =
    if st = w.own then
      (portOf po).elim w fun m => if m ≠ n ∧ holdsBinding l ref (w.port m) = true then clearPort m none none w else w
    else sendRequest .endCall st ⟨portNo n, w.portClass n, po, ref, 0⟩ w := by
  cases port : portOf po <;> simp only [hangUp, state, call, port, Option.elim]

theorem hangUp_uncalled (state : (w.port n).state = .connected) (ref : (w.port n).callRef = none) :
    hangUp n w = w := by
  simp only [hangUp, state, ref]

/-! ## Through a view of the hook -/

theorem HookView.pending (view : HookView n s w) : (w.port n).pending = (s.port n).pending := by
  obtain ⟨b, port⟩ := view.port
  rw [port]

theorem HookView.request (view : HookView n s w) : (w.port n).outReq = (s.port n).outReq := by
  obtain ⟨b, port⟩ := view.port
  rw [port]

theorem HookView.callRef (view : HookView n s w) : (w.port n).callRef = (s.port n).callRef := by
  obtain ⟨b, port⟩ := view.port
  rw [port]

theorem HookView.portClass (view : HookView n s w) : w.portClass n = (s.portCfg n).cls.toNat := by
  have cfg := view.steady.only.cfg
  cases n <;> simp only [State.portClass, State.portCfg, cfg]

/-- What the port's on-hook does, and that the command's end lets the ports be. -/
def HooksOff (v : State) (P : State → Prop) : Prop := P (finish v) ∧ (settleFirst v).ports = v.ports

variable (calm : Calm s) (ok : PortsOk s) (view : HookView n s w) (hung : HungUp n (hangUp n w) v) (up : StaysUp v)
include calm ok view hung up

theorem waiting_hooksOff (state : (s.port n).state = .waiting) : HooksOff v fun t =>
    ∀ q, (s.port n).outReq = some q →
      if q.held then NothingSent s t
      else if q.dst = s.own then LeftInside n 0 s t
      else RequestHanded .leave q.dst ⟨portNo n, (s.portCfg n).cls.toNat, 0, 0, s.ports.tag⟩ s t ∧
        t.ports.tag = nextTag s.ports.tag := by
  have away : (s.port n).state ≠ .parked := by rw [state]; nofun
  rw [hangUp_waiting (view.state.trans state), view.request] at hung
  cases request : (s.port n).outReq with
  | none =>
    rw [request] at hung
    exact ⟨nofun, (hung_silent calm view hung up away).2⟩
  | some q =>
    rw [request] at hung
    have hung : HungUp n (if q.held then w else if q.dst = w.own then takeLeave w.own (portNo n) 0 w
      else sendRequest .leave q.dst ⟨portNo n, w.portClass n, 0, 0, 0⟩ w) v := hung
    have both : HooksOff v fun t =>
        if q.held then NothingSent s t
        else if q.dst = s.own then LeftInside n 0 s t
        else RequestHanded .leave q.dst ⟨portNo n, (s.portCfg n).cls.toNat, 0, 0, s.ports.tag⟩ s t ∧
          t.ports.tag = nextTag s.ports.tag := by
      rw [view.own, view.portClass] at hung
      by_cases held : q.held = true
      · rw [if_pos held] at hung
        simp only [if_pos held]
        exact hung_silent calm view hung up away
      · rw [if_neg held] at hung
        by_cases own : q.dst = s.own
        · rw [if_pos own, ← view.own] at hung
          simp only [if_neg held, if_pos own]
          exact leftInside calm view hung up away
        · rw [if_neg own] at hung
          simp only [if_neg held, if_neg own]
          exact hung.sendsRequest calm ok view up away (.inl rfl)
    refine ⟨fun q' hq' => ?_, both.2⟩
    cases hq'
    exact both.1

theorem offer_hooksOff (state : (s.port n).state = .offering) {st target : Nat}
    (pending : (s.port n).pending = some (.offered st target none)) : HooksOff v fun t =>
    ∀ q, (s.port n).outReq = some q →
      if q.held then NothingSent s t
      else RequestHanded .endCall st ⟨portNo n, (s.portCfg n).cls.toNat, target, 0, q.tag⟩ s t ∧
        t.ports.tag = s.ports.tag := by
  have away : (s.port n).state ≠ .parked := by rw [state]; nofun
  rw [hangUp_offer (view.state.trans state) (view.pending.trans pending), view.request] at hung
  cases request : (s.port n).outReq with
  | none =>
    rw [request] at hung
    exact ⟨nofun, (hung_silent calm view hung up away).2⟩
  | some q =>
    rw [request] at hung
    have hung : HungUp n (if q.held then w
      else offerControl st (.request .endCall ⟨portNo n, w.portClass n, target, 0, q.tag⟩) w) v := hung
    have both : HooksOff v fun t =>
        if q.held then NothingSent s t
        else RequestHanded .endCall st ⟨portNo n, (s.portCfg n).cls.toNat, target, 0, q.tag⟩ s t ∧
          t.ports.tag = s.ports.tag := by
      rw [view.portClass] at hung
      by_cases held : q.held = true
      · rw [if_pos held] at hung
        simp only [if_pos held]
        exact hung_silent calm view hung up away
      · rw [if_neg held] at hung
        simp only [if_neg held]
        have sent := hung.sends calm ok view.steady view.wire view.other up away (.inr rfl)
        rwa [view.tag] at sent
    refine ⟨fun q' hq' => ?_, both.2⟩
    cases hq'
    exact both.1

theorem granted_hooksOff (state : (s.port n).state = .offering) {st target ref : Nat}
    (pending : (s.port n).pending = some (.offered st target (some ref))) : HooksOff v fun t =>
    if st = s.own then LocalOfferEnded n ref s t
    else RequestHanded .endCall st ⟨portNo n, (s.portCfg n).cls.toNat, target, ref, s.ports.tag⟩ s t ∧
      t.ports.tag = nextTag s.ports.tag := by
  have away : (s.port n).state ≠ .parked := by rw [state]; nofun
  rw [hangUp_granted (view.state.trans state) (view.pending.trans pending), view.own, view.portClass] at hung
  by_cases own : st = s.own
  · rw [if_pos own] at hung
    simp only [if_pos own]
    exact localOfferEnded calm ok view hung up away
  · rw [if_neg own] at hung
    simp only [if_neg own]
    exact hung.sendsRequest calm ok view up away (.inr rfl)

theorem outside_hooksOff (state : (s.port n).state = .connected) {h id : Nat}
    (ref : (s.port n).callRef = some (.outside h id)) : HooksOff v fun t =>
    if h = s.own then LeftInside n id s t
    else RequestHanded .leave h ⟨portNo n, (s.portCfg n).cls.toNat, 0, id, s.ports.tag⟩ s t ∧
      t.ports.tag = nextTag s.ports.tag := by
  have away : (s.port n).state ≠ .parked := by rw [state]; nofun
  rw [hangUp_outside (view.state.trans state) (view.callRef.trans ref), view.own, view.portClass] at hung
  by_cases own : h = s.own
  · rw [if_pos own, ← view.own] at hung
    simp only [if_pos own]
    exact leftInside calm view hung up away
  · rw [if_neg own] at hung
    simp only [if_neg own]
    exact hung.sendsRequest calm ok view up away (.inl rfl)

theorem intercom_hooksOff (state : (s.port n).state = .connected) {st po ref l : Nat}
    (call : (s.port n).callRef = some (.intercom st po ref l)) : HooksOff v fun t =>
    if st = s.own then
      NothingSent s t ∧
        ∀ m, portOf po = some m → m ≠ n → (s.port m).state = .connected →
          (s.port m).callRef = some (.intercom s.own (portNo n) ref l) →
          (t.port m).state = .cleared ∧ (t.port m).callRef = none ∧ (t.port m).tone = .busy ∧
            (t.port m).lastCause = none ∧
            ∀ b ∈ t.call.bindings, b.connected = true → n ∉ b.locals ∧ m ∉ b.locals
    else RequestHanded .endCall st ⟨portNo n, (s.portCfg n).cls.toNat, po, ref, s.ports.tag⟩ s t ∧
      t.ports.tag = nextTag s.ports.tag := by
  have away : (s.port n).state ≠ .parked := by rw [state]; nofun
  rw [hangUp_intercom (view.state.trans state) (view.callRef.trans call), view.own, view.portClass] at hung
  by_cases own : st = s.own
  · rw [if_pos own] at hung
    simp only [if_pos own]
    cases port : portOf po with
    | none =>
      rw [port] at hung
      obtain ⟨sent, ports⟩ := hung_silent calm view hung up away
      exact ⟨⟨sent, nofun⟩, ports⟩
    | some m =>
      rw [port] at hung
      have hung : HungUp n (if m ≠ n ∧ holdsBinding l ref (w.port m) = true then clearPort m none none w else w) v :=
        hung
      by_cases holds : m ≠ n ∧ holdsBinding l ref (w.port m) = true
      · rw [if_pos holds] at hung
        have busy : (s.port m).state ≠ .parked := fun parked => by
          have no := holds.2
          rw [view.other m holds.1] at no
          simp [holdsBinding, parked] at no
        obtain ⟨⟨sent, ended⟩, ports⟩ := localCallEnded calm view hung up away holds.1 busy
        refine ⟨⟨sent, fun k hk _ _ _ => ?_⟩, ports⟩
        cases hk
        exact ended
      · rw [if_neg holds] at hung
        obtain ⟨sent, ports⟩ := hung_silent calm view hung up away
        refine ⟨⟨sent, fun k hk other connected there => absurd ?_ holds⟩, ports⟩
        cases hk
        refine ⟨other, ?_⟩
        rw [view.other m other]
        simp [holdsBinding, connected, there]
  · rw [if_neg own] at hung
    simp only [if_neg own]
    exact hung.sendsRequest calm ok view up away (.inr rfl)

/-- What the port does on its hook, and what of the ports the command's end then leaves (R103). -/
theorem onHookDone : HooksOff v (OnHookDone n s) := by
  have silent (away : (s.port n).state ≠ .parked) (still : hangUp n w = w) :
      HooksOff v (NothingSent s) := by
    rw [still] at hung
    exact hung_silent calm view hung up away
  cases state : (s.port n).state with
  | parked =>
    rw [hangUp_silent (by rw [view.state, state]; nofun) (by rw [view.state, state]; nofun)
      (by rw [view.state, state]; nofun)] at hung
    obtain ⟨done, ports⟩ := hung_parked calm view hung up
    refine ⟨?_, ports⟩
    simp only [OnHookDone, state]
    exact ⟨nofun, fun _ => done, nofun, nofun, nofun, nofun, nofun⟩
  | waiting =>
    obtain ⟨done, ports⟩ := waiting_hooksOff calm ok view hung up state
    refine ⟨?_, ports⟩
    simp only [OnHookDone, state]
    exact ⟨nofun, nofun, fun q _ hq => done q hq, nofun, nofun, nofun, nofun⟩
  | offering =>
    cases pending : (s.port n).pending with
    | none =>
      obtain ⟨-, ports⟩ := silent (by rw [state]; nofun)
        (hangUp_unoffered (view.state.trans state) fun _ _ _ => by rw [view.pending, pending]; nofun)
      refine ⟨?_, ports⟩
      simp only [OnHookDone, state, pending]
      exact ⟨nofun, nofun, nofun, nofun, nofun, nofun, nofun⟩
    | some p =>
      cases p with
      | offered st target granted =>
        cases granted with
        | none =>
          obtain ⟨done, ports⟩ := offer_hooksOff calm ok view hung up state pending
          refine ⟨?_, ports⟩
          simp only [OnHookDone, state, pending]
          refine ⟨nofun, nofun, nofun, fun _ _ q _ hp hq => ?_, nofun, nofun, nofun⟩
          cases hp
          exact done q hq
        | some ref =>
          obtain ⟨done, ports⟩ := granted_hooksOff calm ok view hung up state pending
          refine ⟨?_, ports⟩
          simp only [OnHookDone, state, pending]
          refine ⟨nofun, nofun, nofun, nofun, fun _ _ _ _ hp => ?_, nofun, nofun⟩
          cases hp
          exact done
      | _ =>
        obtain ⟨-, ports⟩ := silent (by rw [state]; nofun)
          (hangUp_unoffered (view.state.trans state) fun _ _ _ => by rw [view.pending, pending]; nofun)
        refine ⟨?_, ports⟩
        simp only [OnHookDone, state, pending]
        exact ⟨nofun, nofun, nofun, nofun, nofun, nofun, nofun⟩
  | connected =>
    cases ref : (s.port n).callRef with
    | none =>
      obtain ⟨-, ports⟩ := silent (by rw [state]; nofun)
        (hangUp_uncalled (view.state.trans state) (view.callRef.trans ref))
      refine ⟨?_, ports⟩
      simp only [OnHookDone, state, ref]
      exact ⟨nofun, nofun, nofun, nofun, nofun, nofun, nofun⟩
    | some c =>
      cases c with
      | outside h id =>
        obtain ⟨done, ports⟩ := outside_hooksOff calm ok view hung up state ref
        refine ⟨?_, ports⟩
        simp only [OnHookDone, state, ref]
        refine ⟨nofun, nofun, nofun, nofun, nofun, fun _ _ _ hc => ?_, nofun⟩
        cases hc
        exact done
      | intercom st po k l =>
        obtain ⟨done, ports⟩ := intercom_hooksOff calm ok view hung up state ref
        refine ⟨?_, ports⟩
        simp only [OnHookDone, state, ref]
        refine ⟨nofun, nofun, nofun, nofun, nofun, nofun, fun _ _ _ _ _ hc => ?_⟩
        cases hc
        exact done
  | _ =>
    obtain ⟨done, ports⟩ := silent (by rw [state]; nofun) (hangUp_silent (by rw [view.state, state]; nofun)
      (by rw [view.state, state]; nofun) (by rw [view.state, state]; nofun))
    refine ⟨?_, ports⟩
    simp only [OnHookDone, state]
    exact ⟨fun _ => done, nofun, nofun, nofun, nofun, nofun, nofun⟩

end

end Sys2Proof.Machine
end

section
/-! PROOFS. Hook falls, hook rises and on-hooks at a settled station (R90, R91, R93, R103). -/

namespace Sys2Proof.Machine

open Sys2Proof

/-! ## Dial tone at the end of a command (R93, R148) -/

theorem tonePort_dial {n : PortNo} {s : State} (dial : (s.port n).tone = .dial ∨ (s.port n).tone = .stutter) :
    ((tonePort n s).port n).tone = s.dialTone := by
  rw [tonePort, State.port_modPort_same]
  split
  · rfl
  · next no =>
    by_contra differs
    exact no ⟨dial, differs⟩

/-- A fitted port that plays dial tone ends the command with the dial tone of that moment. -/
theorem settleRest_dial {n : PortNo} {s : State} (fitted : s.fitted n = true)
    (dial : (s.port n).tone = .dial ∨ (s.port n).tone = .stutter) :
    ((settleRest s).port n).tone = (settleRest s).dialTone := by
  obtain ⟨u, ended, ports, cfg⟩ : ∃ u, settleRest s = clearNotices (settleTones u) ∧ u.ports = s.ports ∧ u.cfg =
    s.cfg :=
    ⟨_, rfl, settleLater_ports s, (settleLater_only _).cfg.trans (settleMiddle_only s).cfg⟩
  have dial' : (u.port n).tone = .dial ∨ (u.port n).tone = .stutter := by rwa [port_congr ports]
  have tone : (clearNotices (settleTones u)).dialTone = u.dialTone := dialTone_eq_of_fault (settleTones_only u).fault
  rw [ended, tone]
  show ((settleTones u).port n).tone = u.dialTone
  have other : (tonePort .one u).dialTone = u.dialTone := dialTone_eq_of_fault (tonePort_only .one u).fault
  rw [settleTones_eq]
  cases n with
  | one =>
    split
    · rw [tonePort, State.port_modPort_other _ _ (by decide)]
      exact tonePort_dial dial'
    · exact tonePort_dial dial'
  | two =>
    have two : u.cfg.portCount = 2 := by
      rw [cfg]
      exact of_decide_eq_true fitted
    rw [if_pos two, tonePort_dial, other]
    rwa [tonePort, State.port_modPort_other _ _ (by decide)]

/-- A port that the first rules leave, at the command's end. -/
theorem port_ended {n : PortNo} {v : State} (ports : (settleFirst v).ports = v.ports) :
    ∃ t k a, (finish v).port n = { v.port n with tone := t, toneStep := k, toneAt := a } := by
  rw [finish_eq, ← port_congr ports]
  exact settleRest_port _ n

theorem port_ended_of_tone {n : PortNo} {v : State} (ports : (settleFirst v).ports = v.ports)
    (dial : (v.port n).tone ≠ .dial) (stutter : (v.port n).tone ≠ .stutter) : (finish v).port n = v.port n := by
  rw [← port_congr ports] at dial stutter
  rw [finish_eq, settleRest_port_of_tone dial stutter, port_congr ports]

theorem dialTone_ended {n : PortNo} {v : State} (ports : (settleFirst v).ports = v.ports) (fitted : v.fitted n = true)
    (cfg : (settleFirst v).cfg = v.cfg) (dial : (v.port n).tone = .dial ∨ (v.port n).tone = .stutter) :
    ((finish v).port n).tone = if (finish v).alert then .stutter else .dial := by
  rw [← port_congr ports] at dial
  have fitted' : (settleFirst v).fitted n = true := by
    cases n with
    | one => rfl
    | two =>
      rw [State.fitted, cfg]
      exact fitted
  rw [finish_eq]
  exact settleRest_dial fitted' dial

/-! ## The on-hook's own writes (R90, R91, R103) -/

section
variable {n : PortNo} {s w x y v : State}

/-- A port put on its hook: IDLE, its break and its pulse count gone. -/
def Port.hooked (now : Tick) (p : Port) : Port :=
  { p.toIdle now with offHook := false, breakStart := none, pulses := 0, pulseEnd := none }

theorem onHook_eq (n : PortNo) (w : State) :
    onHook n w = dropBinding n ((hangUp n w).modPort n (Port.hooked w.now)) := rfl

theorem port_onHook (n : PortNo) (w : State) : (onHook n w).port n = Port.hooked w.now ((hangUp n w).port n) := by
  rw [onHook_eq]
  exact State.port_modPort_same n (Port.hooked w.now) _

theorem hungUp_onHook (n : PortNo) (w : State) : HungUp n (hangUp n w) (onHook n w) := by
  refine ⟨?_, rfl, ?_, fun m hm => ?_, by rw [port_onHook]; nofun, by rw [port_onHook]; rfl, fun b hb => ?_⟩
  · exact (steady_modPort n (Port.hooked w.now) _ (.inr (.inr ⟨nofun, nofun⟩))).trans (steady_dropBinding n _)
  · cases n <;> rfl
  · exact State.port_modPort_other (Port.hooked w.now) _ hm
  · have kept := List.mem_filter.mp hb
    refine ⟨kept.1, fun on here => ?_⟩
    have passed := kept.2
    simp [on, here] at passed

/-- Hanging up leaves the port itself to the on-hook. -/
theorem port_hangUp (ok : PortsOk w) : (hangUp n w).port n = w.port n := by
  have sends (k : RequestKind) (dst : Nat) (m : RequestMsg) : (sendRequest k dst m w).port n = w.port n := by
    rw [sendRequest, port_congr (offerControl_only _ _ _).ports, port_useTag]
  have leaves (ref : Nat) : (takeLeave w.own (portNo n) ref w).port n = w.port n :=
    port_congr (takeLeave_only _ _ _ w).ports n
  cases state : (w.port n).state with
  | waiting =>
    rw [hangUp_waiting state]
    cases (w.port n).outReq with
    | none => rfl
    | some q =>
      show (if q.held then w else if q.dst = w.own then _ else _ : State).port n = _
      split
      · rfl
      · split
        · exact leaves 0
        · exact sends _ _ _
  | offering =>
    cases pending : (w.port n).pending with
    | none => rw [hangUp_unoffered state fun _ _ _ => by rw [pending]; nofun]
    | some p =>
      cases p with
      | offered st target granted =>
        cases granted with
        | none =>
          rw [hangUp_offer state pending]
          cases (w.port n).outReq with
          | none => rfl
          | some q =>
            show (if q.held then w else _ : State).port n = _
            split
            · rfl
            · exact port_congr (offerControl_only _ _ _).ports n
        | some ref =>
          rw [hangUp_granted state pending]
          split
          · cases found : w.call.bindings.find? fun b => decide (b.ref = ref) with
            | none => rfl
            | some b =>
              show (endBinding b w).port n = _
              rw [port_endBinding, if_neg]
              intro here
              have fits := List.all_eq_true.mp (List.all_eq_true.mp ok.2.2 b (List.mem_of_find?_eq_some found)) n here
              split at fits
              · rw [state] at fits; cases fits
              · rw [pending] at fits; simp at fits
          · exact sends _ _ _
      | _ => rw [hangUp_unoffered state fun _ _ _ => by rw [pending]; nofun]
  | connected =>
    cases ref : (w.port n).callRef with
    | none => rw [hangUp_uncalled state ref]
    | some c =>
      cases c with
      | outside h id =>
        rw [hangUp_outside state ref]
        split
        · exact leaves id
        · exact sends _ _ _
      | intercom st po k l =>
        rw [hangUp_intercom state ref]
        split
        · cases portOf po with
          | none => rfl
          | some m =>
            show (if m ≠ n ∧ holdsBinding l k (w.port m) = true then clearPort m none none w else w : State).port n = _
            split
            · next holds => exact port_clearPort_other m w none none (Ne.symm holds.1)
            · rfl
        · exact sends _ _ _
  | _ => rw [hangUp_silent (by rw [state]; nofun) (by rw [state]; nofun) (by rw [state]; nofun)]

/-! ## The off-hook of an idle port (R90, R93, R109) -/

/-- An idle port taken off its hook: dial tone, or fault tone at a HALTED station. -/
def Port.lifted (halted : Bool) (dialTone : Tone) (now : Tick) (p : Port) : Port :=
  if halted then
    ({ ({ p with offHook := true, breakStart := none, ringOn := false } : Port).stripped with
      state := .cleared, lastCause := some (.refused .halted), lastRef := none }).setTone .fault now
  else
    ({ ({ p with offHook := true, breakStart := none, ringOn := false } : Port).stripped with
      state := .dialing, firstDigit := some now }).setTone dialTone now

theorem modPort_modPort (n : PortNo) (f g : Port → Port) (s : State) :
    (s.modPort n f).modPort n g = s.modPort n fun p => g (f p) := by cases n <;> rfl

theorem offHook_idle (state : (y.port n).state = .idle) :
    offHook n y = (wake y).modPort n (Port.lifted y.halted y.dialTone y.now) := by
  have awake : (((wake y).modPort n fun p => { p with offHook := true, breakStart := none, ringOn := false }).halted) =
      y.halted := halted_congr (by rw [State.modPort_hold, (wake_only y).hold])
  rw [offHook, state]
  simp only [modPort_modPort]
  cases halted : y.halted <;> rfl

theorem hungUp_offHook (hung : HungUp n x y) (state : (y.port n).state = .idle) : HungUp n x (offHook n y) := by
  have tone : (Port.lifted y.halted y.dialTone y.now (y.port n)).tone = y.dialTone ∨
      ((Port.lifted y.halted y.dialTone y.now (y.port n)).tone ≠ .dial ∧
        (Port.lifted y.halted y.dialTone y.now (y.port n)).tone ≠ .stutter) := by
    cases y.halted
    · exact .inl rfl
    · exact .inr ⟨nofun, nofun⟩
  have ports (m : PortNo) : (wake y).port m = y.port m := port_congr (wake_only y).ports m
  have waked : (wake y).dialTone = y.dialTone := dialTone_eq_of_fault (wake_only y).fault
  rw [offHook_idle state]
  have lifted : ((wake y).modPort n (Port.lifted y.halted y.dialTone y.now)).port n =
      Port.lifted y.halted y.dialTone y.now (y.port n) := by rw [State.port_modPort_same, ports]
  refine ⟨hung.steady.trans ((steady_wake y).trans (steady_modPort n _ _ (.inr (by rw [ports, waked]; exact tone)))),
    (wake_only y).wire.trans hung.wire, ?_, fun m hm => ?_, ?_, ?_, fun b hb => hung.bindings b ?_⟩
  · rw [← hung.tag, ← (wake_only y).ports]
    cases n <;> rfl
  · rw [State.port_modPort_other _ _ hm, ports, hung.other m hm]
  · rw [lifted]
    cases y.halted <;> nofun
  · rw [lifted]
    cases y.halted <;> rfl
  · rwa [State.modPort_call, (wake_only y).call] at hb

end

end Sys2Proof.Machine
end

section
/-! PROOFS. Breaks of the loop (R90 to R93, R102, R103): dial pulses, flashes and on-hooks. -/

namespace Sys2Proof.Machine

open Sys2Proof

section
variable {n : PortNo} {s t w : State}

/-! ## Changes of the ports that leave a settled station settled -/

theorem calm_keepPorts (calm : Calm s) (only : Only [.ports, .call] s t)
    (kept : ∀ m, PortKept (s.port m) (t.port m)) (record : t.call.record = s.call.record) : Calm t := by
  have dropped : t.wire.dropped = [] := by rw [only.wire, calm.dropped]
  have active : t.active = true := by
    rw [State.active, only.phase, only.power]
    exact calm.active
  exact calm_of active (calm.first.keepPorts only calm.dropped (by rw [record])) dropped
    (calm.rest.keepPorts only kept record)

theorem calm_modPort {f : Port → Port} (calm : Calm s) (kept : PortKept (s.port n) (f (s.port n))) :
    Calm (s.modPort n f) := by
  refine calm_keepPorts calm ((State.modPort_only n f s).mono (by decide)) (fun m => ?_) rfl
  by_cases same : m = n
  · subst same
    rw [State.port_modPort_same]
    exact kept
  · rw [State.port_modPort_other f s same]
    exact .refl _

theorem portKept_break (b : Option Tick) (p : Port) : PortKept p { p with breakStart := b } := ⟨Iff.rfl, rfl, .inl rfl⟩

/-- The station with a break of the loop at the port begun or ended, its hook input told. -/
def withBreak (level : Bool) (n : PortNo) (b : Option Tick) (s : State) : State :=
  (hookTold level n s).modPort n fun p => { p with breakStart := b }

theorem calm_withBreak (calm : Calm s) (level : Bool) (n : PortNo) (b : Option Tick) : Calm (withBreak level n b s) :=
  calm_modPort (calm_hookTold calm) (portKept_break b _)

theorem port_withBreak (level : Bool) (n : PortNo) (b : Option Tick) (s : State) :
    (withBreak level n b s).port n = { s.port n with breakStart := b } :=
  State.port_modPort_same _ _ _

theorem withBreak_only (level : Bool) (n : PortNo) (b : Option Tick) (s : State) :
    Only [.pins, .ports, .outs] s (withBreak level n b s) := by
  intro p hp
  cases p <;> first | rfl | exact absurd (by decide) hp

theorem exec_hookRise (calm : Calm s) : exec (.hookRise n) s = .next (finish (hookRise n (hookTold true n s))) :=
  congrArg Host.Outcome.next (running_active (s := s.tell fun p => setHook true p n) calm.active)

theorem exec_hookFall (calm : Calm s) : exec (.hookFall n) s = .next (finish (hookFall n (hookTold false n s))) :=
  congrArg Host.Outcome.next (running_active (s := s.tell fun p => setHook false p n) calm.active)

theorem port_hookTold (b : Bool) (n m : PortNo) (s : State) : (hookTold b n s).port m = s.port m := rfl

theorem fitted_hookTold (b : Bool) (n m : PortNo) (s : State) : (hookTold b n s).fitted m = s.fitted m := by
  cases m <;> rfl

/-! ## Hook falls (R90) -/

theorem hookFall_begins (calm : Calm s) (fitted : s.fitted n = true) (off : (s.port n).offHook = true)
    (whole : (s.port n).breakStart = none) : Answers (.hookFall n) s fun t =>
      t.port n = { s.port n with breakStart := some s.now } ∧ hookLevel t.pins n = false ∧
        Only [.pins, .ports, .outs] s t := by
  have step : hookFall n (hookTold false n s) = withBreak false n (some s.now) s := by
    refine if_pos ?_
    rw [fitted_hookTold, port_hookTold, fitted, off, whole]
    rfl
  have run := exec_hookFall (n := n) calm
  rw [step, finish_of_calm (calm_withBreak calm false n _)] at run
  refine answers_of run ⟨port_withBreak false n _ s, ?_, withBreak_only false n _ s⟩
  cases n <;> rfl

theorem hookFall_idle (calm : Calm s) (on : (s.port n).offHook = false) :
    Answers (.hookFall n) s fun t => Only [.pins, .outs] s t := by
  have step : hookFall n (hookTold false n s) = hookTold false n s := by
    refine if_neg ?_
    rw [port_hookTold, on]
    simp
  have run := exec_hookFall (n := n) calm
  rw [step, finish_of_calm (calm_hookTold calm)] at run
  refine answers_of run fun p hp => ?_
  cases p <;> first | rfl | exact absurd (by decide) hp

/-! ## Dial pulses (R90, R91, R93) -/

theorem hookRise_ends {b : Tick} (fitted : s.fitted n = true) (off : (s.port n).offHook = true)
    (broken : (s.port n).breakStart = some b) : hookRise n (hookTold true n s) =
      if elapsed s.now b < 5600 then countPulse n (withBreak true n none s)
      else if elapsed s.now b ≤ 40000 then takeFlash n (withBreak true n none s)
      else offHook n (onHook n (hookTold true n s)) := by
  rw [hookRise, fitted_hookTold, port_hookTold, fitted, if_pos rfl, off, if_pos rfl, broken]
  have limits : ((Config.pulseLimit : Nat) : Int) = 5600 ∧ ((Config.flashLimit : Nat) : Int) = 40000 := ⟨rfl, rfl⟩
  simp only [limits.1, limits.2]
  rfl

/-- A dial pulse counted at the port, the first of them ending the dial tone. -/
def Port.pulsed (now : Tick) (p : Port) : Port :=
  if decide (p.state = .dialing) && p.firstDigit.isSome then
    ({ ({ p with pulses := min 11 (p.pulses + 1), pulseEnd := some now } : Port) with firstDigit := none }).setTone
      .silent now
  else { p with pulses := min 11 (p.pulses + 1), pulseEnd := some now }

theorem countPulse_eq (n : PortNo) (s : State) : countPulse n s = s.modPort n (Port.pulsed s.now) := rfl

theorem portKept_pulsed (now : Tick) (p : Port) : PortKept p (p.pulsed now) := by
  unfold Port.pulsed
  split
  · exact ⟨Iff.rfl, rfl, .inr ⟨nofun, nofun⟩⟩
  · exact ⟨Iff.rfl, rfl, .inl rfl⟩

theorem pulsed_read (now : Tick) (p : Port) : (p.pulsed now).breakStart = p.breakStart ∧
    (p.pulsed now).pulses = min 11 (p.pulses + 1) ∧ (p.pulsed now).pulseEnd = some now ∧
    (p.pulsed now).state = p.state ∧ (p.state = .dialing → (p.pulsed now).firstDigit = none) := by
  unfold Port.pulsed
  split
  · exact ⟨rfl, rfl, rfl, rfl, fun _ => rfl⟩
  · next no =>
    refine ⟨rfl, rfl, rfl, rfl, fun dialing => ?_⟩
    simpa [dialing] using no

theorem hookRise_pulse {b : Tick} (calm : Calm s) (fitted : s.fitted n = true) (off : (s.port n).offHook = true)
    (broken : (s.port n).breakStart = some b) (short : elapsed s.now b < 5600) : Answers (.hookRise n) s fun t =>
      (t.port n).breakStart = none ∧ (t.port n).pulses = min 11 ((s.port n).pulses + 1) ∧
        (t.port n).pulseEnd = some s.now ∧ (t.port n).state = (s.port n).state ∧
        ((s.port n).state = .dialing → (t.port n).firstDigit = none) ∧ Only [.pins, .ports, .outs] s t := by
  have run := exec_hookRise (n := n) calm
  have settled : Calm (countPulse n (withBreak true n none s)) := by
    rw [countPulse_eq]
    exact calm_modPort (calm_withBreak calm true n none) (portKept_pulsed _ _)
  rw [hookRise_ends fitted off broken, if_pos short, finish_of_calm settled] at run
  have port : (countPulse n (withBreak true n none s)).port n =
      Port.pulsed s.now { s.port n with breakStart := none } := by
    rw [countPulse_eq, State.port_modPort_same, port_withBreak]
    rfl
  refine answers_of run ?_
  rw [port]
  obtain ⟨whole, pulses, ended, state, first⟩ := pulsed_read s.now { s.port n with breakStart := none }
  refine ⟨whole, pulses, ended, state, first, (withBreak_only true n none s).trans ?_⟩
  rw [countPulse_eq]
  exact (State.modPort_only n _ _).mono (by decide)

end

end Sys2Proof.Machine
end

section
/-! PROOFS. Flashes, digits for the exchange, and the on-hook of a long break (R90 to R93, R102, R103, R123). -/

namespace Sys2Proof.Machine

open Sys2Proof

section
variable {n : PortNo} {s t w z : State}

/-! ## A digit or flash for the exchange (R102, R121, R123) -/

theorem staleFrame_inside (po ref : Nat) (z : State) : Only [.ports, .call] z (staleFrame z.own po ref z) ∧
    (staleFrame z.own po ref z).call.record = z.call.record := by
  unfold staleFrame
  split
  · exact ⟨.refl _ z, rfl⟩
  · refine ⟨(sendClear_inside rfl).after ((State.modCall_only _ z).mono (by decide)) (by decide), ?_⟩
    rw [sendClear_record]
    rfl

theorem takeDial_inside (po ref : Nat) (i : DialItem) (z : State) :
    Only [.ports, .call] z (takeDial z.own po ref i z) ∧
      (takeDial z.own po ref i z).call.record.isSome = z.call.record.isSome := by
  cases known : recordFor z.own po ref z with
  | true =>
    obtain ⟨r, hr, -, -⟩ := recordFor_iff.mp known
    rw [takeDial_taken known]
    exact ⟨(modRecord_only _ z).mono (by decide), by rw [modRecord_record hr, hr]; rfl⟩
  | false =>
    have stale : takeDial z.own po ref i z = staleFrame z.own po ref z := if_neg (by rw [known]; decide)
    rw [stale]
    obtain ⟨only, record⟩ := staleFrame_inside po ref z
    exact ⟨only, by rw [record]⟩

theorem firstSettled_sendDial (calm : Calm z) (i : DialItem) : FirstSettled (sendDial n i z) := by
  unfold sendDial
  split
  · next h id _ =>
    split
    · next own =>
      rw [← own]
      obtain ⟨only, record⟩ := takeDial_inside (portNo n) id i z
      rw [own]
      exact calm.first.keepPorts only calm.dropped record
    · have dial : inert (.dial ⟨id, portNo n, .listed i⟩) = true := rfl
      have steady := steady_offerControl h z (b := .dial ⟨id, portNo n, .listed i⟩) nofun nofun
      exact steady.first calm.first (inert_notices (offerControl_dropped_inert nofun nofun dial
        (by rw [calm.dropped]; nofun)))
  · exact calm.first

/-- A CLEAR leaves a port's break and pulse count (R90, R91). -/
theorem takeClear_hook (m : PortNo) (id : Nat) (c : ClearCause) (z : State) (n : PortNo) :
    ((takeClear m id c z).port n).breakStart = (z.port n).breakStart ∧
      ((takeClear m id c z).port n).pulses = (z.port n).pulses := by
  unfold takeClear
  split
  · split
    · by_cases same : n = m
      · subst same
        rw [port_clearPort_same]
        exact ⟨rfl, rfl⟩
      · rw [port_clearPort_other m z _ _ same]
        exact ⟨rfl, rfl⟩
    · exact ⟨rfl, rfl⟩
  · exact ⟨rfl, rfl⟩

theorem staleFrame_hook (po ref : Nat) (z : State) (n : PortNo) :
    ((staleFrame z.own po ref z).port n).breakStart = (z.port n).breakStart ∧
      ((staleFrame z.own po ref z).port n).pulses = (z.port n).pulses := by
  unfold staleFrame
  split
  · exact ⟨rfl, rfl⟩
  · unfold sendClear
    split
    · split
      · exact takeClear_hook _ _ _ _ _
      · exact ⟨rfl, rfl⟩
    · next away => exact absurd rfl away

theorem sendDial_hook (i : DialItem) (z : State) :
    ((sendDial n i z).port n).breakStart = (z.port n).breakStart ∧
      ((sendDial n i z).port n).pulses = (z.port n).pulses := by
  unfold sendDial
  split
  · next h id _ =>
    split
    · cases known : recordFor z.own (portNo n) id z with
      | true =>
        rw [takeDial_taken known, port_congr (modRecord_only _ z).ports]
        exact ⟨rfl, rfl⟩
      | false =>
        have stale : takeDial z.own (portNo n) id i z = staleFrame z.own (portNo n) id z :=
          if_neg (by rw [known]; decide)
        rw [stale]
        exact staleFrame_hook _ _ _ _
    · rw [port_congr (offerControl_only _ _ _).ports]
      exact ⟨rfl, rfl⟩
  · exact ⟨rfl, rfl⟩

/-! ## A pulse count closed (R91) -/

theorem portKept_count (p : Port) : PortKept p { p with pulses := 0, pulseEnd := none } := ⟨Iff.rfl, rfl, .inl rfl⟩

theorem calm_clearCount (calm : Calm z) (n : PortNo) : Calm (clearCount n z) :=
  calm_modPort calm (portKept_count _)

theorem port_clearCount (n : PortNo) (z : State) :
    (clearCount n z).port n = { z.port n with pulses := 0, pulseEnd := none } := State.port_modPort_same _ _ _

/-- An invalid digit clears a DIALING port and means nothing elsewhere (R93 to R95). -/
theorem takeDigit_invalid (n : PortNo) (z : State) : takeDigit n .invalid z =
    if (z.port n).state = .dialing then failDial n z else z := by
  cases state : (z.port n).state with
  | dialing =>
    cases digit : (z.port n).digit with
    | none => simp only [takeDigit, state, digit, firstDigit, if_true]
    | some st => simp only [takeDigit, state, digit, portDigit, if_true]
  | _ => simp [takeDigit, state]

/-! ## Flashes (R90 to R92) -/

/-- A flash with no pulse count open. -/
theorem takeFlash_alone (count : (z.port n).pulses = 0) : takeFlash n z =
    if (z.port n).state = .connected then sendDial n .flash z else z := by
  simp only [takeFlash, count, Nat.lt_irrefl, if_false]

theorem takeFlash_count (count : 0 < (z.port n).pulses) : takeFlash n z =
    if (z.port n).state = .dialing then failDial n (clearCount n z)
    else if (z.port n).state = .connected then sendDial n .flash (clearCount n z) else clearCount n z := by
  have state : ((clearCount n z).port n).state = (z.port n).state := by rw [port_clearCount]
  simp only [takeFlash, if_pos count, takeDigit_invalid, state]
  by_cases dialing : (z.port n).state = .dialing
  · have cleared : ((failDial n (clearCount n z)).port n).state = .cleared := by
      rw [failDial, port_clearPort_same]
      rfl
    simp [dialing, cleared]
  · simp [dialing, state]

/-- What a flash leaves of the port and of the first rules. -/
theorem finish_sendDial_hook (calm : Calm z) (i : DialItem) :
    ((finish (sendDial n i z)).port n).breakStart = (z.port n).breakStart ∧
      ((finish (sendDial n i z)).port n).pulses = (z.port n).pulses := by
  obtain ⟨x, k, a, port⟩ := port_ended (n := n) (settleFirst_ports (firstSettled_sendDial (n := n) calm i))
  rw [port]
  exact sendDial_hook i z

theorem hookRise_flash {b : Tick} (calm : Calm s) (fitted : s.fitted n = true) (off : (s.port n).offHook = true)
    (broken : (s.port n).breakStart = some b) (long : 5600 ≤ elapsed s.now b) (short : elapsed s.now b ≤ 40000) :
    Answers (.hookRise n) s fun t =>
      (t.port n).breakStart = none ∧ (0 < (s.port n).pulses → (t.port n).pulses = 0) ∧
        ((s.port n).state = .dialing → 0 < (s.port n).pulses →
          (t.port n).state = .cleared ∧ (t.port n).tone = .busy ∧ (t.port n).lastCause = none) ∧
        ((s.port n).state = .dialing → (s.port n).pulses = 0 → (t.port n).state = .dialing) := by
  have run := exec_hookRise (n := n) calm
  rw [hookRise_ends fitted off broken, if_neg (by omega), if_pos short] at run
  refine answers_of run ?_
  have settled := calm_withBreak calm true n none
  have port := port_withBreak true n none s
  obtain none_open | counted := Nat.eq_zero_or_pos (s.port n).pulses
  · have count : ((withBreak true n none s).port n).pulses = 0 := by rw [port]; exact none_open
    have whole : ((withBreak true n none s).port n).breakStart = none := by rw [port]
    have state : ((withBreak true n none s).port n).state = (s.port n).state := by rw [port]
    rw [takeFlash_alone count]
    split
    · next connected =>
      obtain ⟨ended, -⟩ := finish_sendDial_hook (n := n) settled .flash
      rw [state] at connected
      exact ⟨ended.trans whole, fun some_open => absurd none_open (by omega), fun _ some_open => absurd none_open
        (by omega),
        fun dialing => absurd (connected.symm.trans dialing) (by decide)⟩
    · rw [finish_of_calm settled, port]
      exact ⟨rfl, fun some_open => absurd none_open (by omega), fun _ some_open => absurd none_open (by omega),
        fun dialing _ => dialing⟩
  · have count : 0 < ((withBreak true n none s).port n).pulses := by rw [port]; exact counted
    have closed := calm_clearCount settled n
    have port' : (clearCount n (withBreak true n none s)).port n =
        { s.port n with breakStart := none, pulses := 0, pulseEnd := none } := by rw [port_clearCount, port]
    have state : ((withBreak true n none s).port n).state = (s.port n).state := by rw [port]
    rw [takeFlash_count count, state]
    split
    · have cleared := port_finish_clearPort n none none closed
      rw [failDial, cleared, port']
      exact ⟨rfl, fun _ => rfl, fun _ _ => ⟨rfl, rfl, rfl⟩, fun _ none_open => absurd none_open (by omega)⟩
    · next away =>
      split
      · obtain ⟨ended, pulses⟩ := finish_sendDial_hook (n := n) closed .flash
        rw [port'] at ended pulses
        exact ⟨ended, fun _ => pulses, fun dialing => absurd dialing away, fun dialing => absurd dialing away⟩
      · rw [finish_of_calm closed, port']
        exact ⟨rfl, fun _ => rfl, fun dialing => absurd dialing away, fun dialing => absurd dialing away⟩

/-! ## On-hooks (R90, R91, R103) -/

theorem hookView_hookTold (b : Bool) (n : PortNo) (s : State) : HookView n s (hookTold b n s) :=
  ⟨steady_hookTold b n s, rfl, rfl, rfl, ⟨_, rfl⟩, fun _ _ => rfl⟩

theorem hookView_quiet (n : PortNo) (s : State) : HookView n s s.quiet :=
  ⟨steady_quiet s, rfl, rfl, rfl, ⟨_, rfl⟩, fun _ _ => rfl⟩

theorem settleFirst_cfg (v : State) : (settleFirst v).cfg = v.cfg := by
  unfold settleFirst
  rw [(settleNotices_only _).cfg, (settleHolder_only _).cfg, (settleDegraded_only _).cfg, (settleEligible_only _).cfg]

/-- A hook rise after the on-hook's time: the on-hook, and a fresh off-hook (R90, log 29). -/
theorem hookRise_again {b : Tick} (calm : Calm s) (ok : PortsOk s) (fitted : s.fitted n = true)
    (off : (s.port n).offHook = true) (broken : (s.port n).breakStart = some b) (late : 40000 < elapsed s.now b) :
    Answers (.hookRise n) s fun t =>
      (t.port n).offHook = true ∧ (t.port n).breakStart = none ∧ (t.port n).callRef = none ∧
        (t.port n).pending = none ∧ (t.port n).outReq = none ∧ (t.port n).pulses = 0 ∧ (t.port n).digit = none ∧
        (s.halted = false → (t.port n).state = .dialing ∧ (t.port n).firstDigit = some s.now ∧
          (t.port n).tone = if t.alert then .stutter else .dial) ∧
        (s.halted = true → (t.port n).state = .cleared ∧ (t.port n).tone = .fault ∧
          (t.port n).lastCause = some (.refused .halted)) ∧
        OnHookDone n s t := by
  have run := exec_hookRise (n := n) calm
  rw [hookRise_ends fitted off broken, if_neg (by omega), if_neg (by omega)] at run
  refine answers_of run ?_
  have view := hookView_hookTold true n s
  generalize hookTold true n s = w at view
  have hooked := port_onHook n w
  have hung := hungUp_onHook n w
  have idle : ((onHook n w).port n).state = .idle := by rw [hooked]; rfl
  have halted : (onHook n w).halted = s.halted := halted_congr (by
    rw [(onHook_only n w).hold, view.steady.only.hold])
  have now : (onHook n w).now = s.now := (onHook_only n w).now.trans view.steady.only.now
  have lifted : (offHook n (onHook n w)).port n =
      Port.lifted s.halted (onHook n w).dialTone s.now (Port.hooked w.now ((hangUp n w).port n)) := by
    rw [offHook_idle idle, State.port_modPort_same, port_congr (wake_only _).ports, hooked, halted, now]
  have hung' := hungUp_offHook hung idle
  have busy : portIdle ((offHook n (onHook n w)).port n) = false := by
    rw [lifted]
    refine portIdle_of_offHook ?_
    cases s.halted <;> rfl
  obtain ⟨done, ports⟩ := onHookDone calm ok view hung' (staysUp_of_busy busy)
  obtain ⟨x, k, a, port⟩ := port_ended (n := n) ports
  have fitted' : (offHook n (onHook n w)).fitted n = true := by
    cases n with
    | one => rfl
    | two =>
      rw [State.fitted, (offHook_only _ _).cfg, (onHook_only _ _).cfg, view.steady.only.cfg]
      exact fitted
  cases halt : s.halted with
  | false =>
    rw [halt] at lifted
    have tone := dialTone_ended (n := n) ports fitted' (settleFirst_cfg _) (by
      rw [lifted]
      exact dialTone_cases _)
    rw [port, lifted] at tone ⊢
    exact ⟨rfl, rfl, rfl, rfl, rfl, rfl, rfl, fun _ => ⟨rfl, rfl, tone⟩, nofun, done⟩
  | true =>
    rw [halt] at lifted
    rw [port_ended_of_tone (n := n) ports (by rw [lifted]; nofun) (by rw [lifted]; nofun), lifted]
    exact ⟨rfl, rfl, rfl, rfl, rfl, rfl, rfl, nofun, fun _ => ⟨rfl, rfl, rfl⟩, done⟩

theorem onHook_kept (n : PortNo) (w : State) : Only [.wire, .ports, .call] w (onHook n w) := by
  rw [onHook_eq]
  exact (dropBinding_only n _).after ((State.modPort_only n _ _).after (hangUp_only n w) (by decide)) (by decide)

theorem onHook_answers {b : Tick} (calm : Calm s) (awake : Awake s) (ok : PortsOk s) (off : (s.port n).offHook = true)
    (broken : (s.port n).breakStart = some b) (late : 40000 < elapsed s.now b) :
    Answers (.onHook n) s fun t =>
      (t.port n).state = .idle ∧ (t.port n).offHook = false ∧ (t.port n).callRef = none ∧
        (t.port n).pending = none ∧ (t.port n).outReq = none ∧ (t.port n).tone = .silent ∧
        (t.port n).pulses = 0 ∧ (t.port n).digit = none ∧ (t.port n).lastCause = (s.port n).lastCause ∧
        OnHookDone n s t := by
  have due : dueOnHook n s.quiet = true := by
    show ((s.port n).offHook && (s.port n).breakStart.any _) = true
    rw [off, broken]
    exact decide_eq_true late
  have step : onHookEvent n s.quiet = onHook n s.quiet := if_pos due
  have run : exec (.onHook n) s = .next (finish (onHook n s.quiet)) := by
    refine congrArg Host.Outcome.next ((running_active calm.active).trans ?_)
    rw [step]
  have view := hookView_quiet n s
  have hung := hungUp_onHook n s.quiet
  have hooked := port_onHook n s.quiet
  rw [port_hangUp (show PortsOk s.quiet from ok)] at hooked
  have awake' : Awake (onHook n s.quiet) := by
    have only := onHook_kept n s.quiet
    rw [Awake, only.power, only.pins]
    exact awake
  obtain ⟨done, ports⟩ := onHookDone calm ok view hung (staysUp_of_awake awake')
  refine answers_of run ?_
  rw [port_ended_of_tone (n := n) ports (by rw [hooked]; nofun) (by rw [hooked]; nofun), hooked]
  exact ⟨rfl, rfl, rfl, rfl, rfl, rfl, rfl, rfl, rfl, done⟩

end

/-- Settles O43. -/
theorem hookBreaksAndOnHook : Obligations.HookBreaksAndOnHook := by
  refine ⟨?_, ?_⟩
  · intro s n calm ok fitted
    exact ⟨fun off whole => hookFall_begins calm fitted off whole, fun on => hookFall_idle calm on,
      fun b off broken short => hookRise_pulse calm fitted off broken short,
      fun b off broken long short => hookRise_flash calm fitted off broken long short,
      fun b off broken late => hookRise_again calm ok fitted off broken late⟩
  · intro s n b calm awake ok off broken late
    exact onHook_answers calm awake ok off broken late

end Sys2Proof.Machine
end

section
/-! PROOFS. A port's SEIZE, ANSWER and OFFER (R94 to R97, R99): refused at home, held in LISTEN, handed over, and
reported dropped. -/

namespace Sys2Proof.Machine

open Sys2Proof

/-! ## One action at each fitted port (log 9) -/

theorem port_eachPort {f : PortNo → State → State} {g : PortNo → Port → Port} {s : State}
    (same : ∀ m t, t.now = s.now → (f m t).port m = g m (t.port m))
    (other : ∀ m p t, p ≠ m → (f m t).port p = t.port p) (clock : ∀ m t, (f m t).now = t.now) (n : PortNo) :
    (s.eachPort f).port n = if s.fitted n then g n (s.port n) else s.port n := by
  by_cases two : s.cfg.portCount = 2
  · have each : s.eachPort f = f .two (f .one s) := by simp [State.eachPort, State.fittedPorts, two]
    rw [each]
    cases n with
    | one => rw [other .two .one _ (by decide), same .one s rfl, if_pos (show s.fitted .one = true from rfl)]
    | two =>
      rw [same .two _ (clock .one s), other .one .two _ (by decide), if_pos (by simp [State.fitted, two])]
  · have each : s.eachPort f = f .one s := by simp [State.eachPort, State.fittedPorts, two]
    rw [each]
    cases n with
    | one => rw [same .one s rfl, if_pos (show s.fitted .one = true from rfl)]
    | two => rw [other .one .two _ (by decide), if_neg (by simp [State.fitted, two])]

theorem steady_eachPort {f : PortNo → State → State} (each : ∀ m t, Steady t (f m t)) (s : State) :
    Steady s (s.eachPort f) := by
  unfold State.eachPort
  have fold : ∀ (l : List PortNo) (t : State), Steady t (l.foldl (fun s n => f n s) t) := by
    intro l
    induction l with
    | nil => exact fun t => .refl t
    | cons m l ih => exact fun t => (each m t).trans (ih _)
  exact fold _ s

/-! ## A REQUEST reported dropped (R96) -/

/-- The port waits for the answer to a request of this kind and tag. -/
def asks (k : RequestKind) (tag : Nat) (p : Port) : Bool :=
  p.outReq.any fun q => !q.held && decide (q.tag = tag) && decide (q.kind = k)

/-- The cause a request that failed leaves (R96). -/
def failCause (k : RequestKind) : PortCause := .refused (if k = .offer then .noStation else .noHolder)

def Port.unanswered (k : RequestKind) (tag : Nat) (now : Tick) (p : Port) : Port :=
  if asks k tag p then p.clear now (some (failCause k)) none else p

theorem requestDropped_eq (k : RequestKind) (tag : Nat) (n : PortNo) (s : State) :
    requestDropped k tag n s = if asks k tag (s.port n) then clearPort n (some (failCause k)) none s else s := by
  unfold requestDropped asks waitsFor
  cases request : (s.port n).outReq with
  | none => rfl
  | some q =>
    by_cases kind : q.kind = k
    · subst kind
      simp only [Option.any_some, and_true, decide_true, Bool.and_true]
      rfl
    · simp [kind]

theorem port_requestDropped (k : RequestKind) (tag : Nat) (n : PortNo) (s : State) :
    (requestDropped k tag n s).port n = Port.unanswered k tag s.now (s.port n) := by
  rw [requestDropped_eq, Port.unanswered]
  split
  · rw [port_clearPort_same]
  · rfl

theorem port_requestDropped_other (k : RequestKind) (tag : Nat) {n m : PortNo} (s : State) (other : m ≠ n) :
    (requestDropped k tag n s).port m = s.port m := by
  rw [requestDropped_eq]
  split
  · exact port_clearPort_other n s _ _ other
  · rfl

theorem steady_requestDropped (k : RequestKind) (tag : Nat) (n : PortNo) (s : State) :
    Steady s (requestDropped k tag n s) := by
  rw [requestDropped_eq]
  split
  · exact steady_clearPort n _ _ s
  · exact .refl s

/-- The ports told of a REQUEST that was dropped. -/
def dropTold (k : RequestKind) (tag : Nat) (s : State) : State := (clearNotices s).eachPort (requestDropped k tag)

theorem port_dropTold (k : RequestKind) (tag : Nat) (s : State) (n : PortNo) :
    (dropTold k tag s).port n = if s.fitted n then Port.unanswered k tag s.now (s.port n) else s.port n :=
  port_eachPort (g := fun _ => Port.unanswered k tag s.now) (s := clearNotices s)
    (fun m t ht => by rw [port_requestDropped, ht]; rfl) (fun m p t hp => port_requestDropped_other k tag t hp)
    (fun m t => (requestDropped_hold k tag m t).now) n

theorem dropTold_only (k : RequestKind) (tag : Nat) (s : State) : Only [.ports, .call] (clearNotices s)
    (dropTold k tag s) :=
  Only.eachPort (fun m t => requestDropped_hold k tag m t) _

theorem settleFirst_dropped {k : RequestKind} {m : RequestMsg} {v : State} (eligible : v.eligibleNow = v.hold.eligible)
    (degraded : (v.holding && v.hold.degraded && v.call.record.isNone) = false)
      (holder : v.computeHolder = v.hold.known)
    (dropped : v.wire.dropped = [.request k m]) : settleFirst v = dropTold k m.tag v := by
  rw [settleFirst, settleEligible_of eligible, settleDegraded_of degraded, settleHolder, if_pos holder, settleNotices,
    dropped]
  rfl

/-! ## A port at its line -/

/-- `w` is the station `s` with the port `n`, not parked, moved to what it now asks for. -/
structure LineView (n : PortNo) (s w : State) : Prop where
  steady : Steady s w
  wire : w.wire = s.wire
  call : w.call = s.call
  tag : w.ports.tag = s.ports.tag
  ringing : w.ports.ringing = s.ports.ringing
  other : ∀ m, m ≠ n → w.port m = s.port m
  away : (s.port n).state ≠ .parked

section
variable {n : PortNo} {s w u v : State}

theorem LineView.own (view : LineView n s w) : w.own = s.own := by rw [State.own, view.steady.only.straps, State.own]

theorem LineView.portClass (view : LineView n s w) : w.portClass n = (s.portCfg n).cls.toNat := by
  have cfg := view.steady.only.cfg
  cases n <;> simp only [State.portClass, State.portCfg, cfg]

theorem LineView.parked (view : LineView n s w) (other : ∀ m, m ≠ n → u.port m = w.port m)
    (away : (u.port n).state ≠ .parked) (m : PortNo) : (u.port m).state = .parked ↔ (s.port m).state = .parked := by
  by_cases same : m = n
  · subst same
    simp [away, view.away]
  · rw [other m same, view.other m same]

/-- The command's end after a change at the port alone. -/
theorem LineView.finish (view : LineView n s w) (calm : Calm s) (steady : Steady w u) (wire : u.wire = w.wire)
    (other : ∀ m, m ≠ n → u.port m = w.port m) (away : (u.port n).state ≠ .parked) (up : StaysUp u) :
    finish u = idleWritten u :=
  (view.steady.trans steady).finish calm up (view.parked other away)
    (no_notices (by rw [wire, view.wire, calm.dropped]))

theorem refusePort_ends {c : RefuseCause} {ref : Nat × Nat} (view : LineView n s w) (calm : Calm s)
    (up : StaysUp (refusePort n c ref w)) : Machine.finish (refusePort n c ref w) = idleWritten
      (refusePort n c ref w) :=
  view.finish calm (steady_clearPort n _ _ w) (refusePort_only n c ref w).wire
    (fun m hm => port_clearPort_other n w _ _ hm) (by rw [refusePort, port_clearPort_same]; nofun) up

theorem await_ends {st : PortState} {q : Pending × OutReq} (view : LineView n s w) (calm : Calm s)
    (away : st ≠ .parked) : Machine.finish (w.modPort n (Port.await w.now st q)) =
      idleWritten (w.modPort n (Port.await w.now st q)) := by
  have port : (w.modPort n (Port.await w.now st q)).port n = Port.await w.now st q (w.port n) :=
    State.port_modPort_same _ _ _
  refine view.finish calm (steady_modPort n _ w (.inr (.inr ⟨nofun, nofun⟩))) rfl
    (fun m hm => State.port_modPort_other _ _ hm) (by rw [port]; exact away) (staysUp_of_busy (n := n) ?_)
  rw [port]
  exact portIdle_of_outReq rfl

end

/-! ## A REQUEST handed over, or dropped for want of room (R11, R94, R96, R99) -/

section
variable {n : PortNo} {s w : State} {k : RequestKind} {dst target : Nat} {pend : Pending}

/-- The state a port waits in for the answer to a request. -/
def waitState (k : RequestKind) : PortState := if k = .offer then .offering else .waiting

/-- The port waits for the answer to a request that is made now. -/
def asking (n : PortNo) (k : RequestKind) (pend : Pending) (dst target : Nat) (w : State) : State :=
  w.modPort n (Port.await w.now (waitState k) (pend, ⟨k, w.ports.tag, dst, target, w.now, false⟩))

theorem port_asking : (asking n k pend dst target w).port n =
    Port.await w.now (waitState k) (pend, ⟨k, w.ports.tag, dst, target, w.now, false⟩) (w.port n) :=
  State.port_modPort_same _ _ _

theorem tag_asking : (asking n k pend dst target w).ports.tag = w.ports.tag := by cases n <;> rfl

/-- The REQUEST of a port that asks. -/
def askFrame (n : PortNo) (target : Nat) (s : State) : RequestMsg :=
  ⟨portNo n, (s.portCfg n).cls.toNat, target, 0, s.ports.tag⟩

/-- The station with the request out, its REQUEST handed over. -/
def asked (n : PortNo) (k : RequestKind) (pend : Pending) (dst target : Nat) (s w : State) : State :=
  offerControl dst (.request k (askFrame n target s)) (useTag (asking n k pend dst target w))

theorem sendRequest_asking (view : LineView n s w) :
    sendRequest k dst ⟨portNo n, w.portClass n, target, 0, 0⟩ (asking n k pend dst target w) =
      asked n k pend dst target s w := by
  rw [sendRequest, tag_asking, view.portClass, view.tag]
  rfl

theorem port_asked (m : PortNo) :
    (asked n k pend dst target s w).port m = (asking n k pend dst target w).port m := by
  rw [asked, port_congr (offerControl_only _ _ _).ports, port_useTag]

theorem steady_asked : Steady w (asked n k pend dst target s w) :=
  (steady_modPort n (Port.await w.now (waitState k) (pend, ⟨k, w.ports.tag, dst, target, w.now, false⟩)) w
    (.inr (.inr ⟨nofun, nofun⟩))).trans ((steady_useTag _).trans
    (steady_offerControl dst _ nofun nofun))

theorem power_asked : (asked n k pend dst target s w).power = w.power := by
  rw [asked, (offerControl_only _ _ _).power]
  rfl

theorem waitState_away (k : RequestKind) : waitState k ≠ .parked := by
  unfold waitState
  split <;> nofun

/-- The command's end where the REQUEST was handed over, or dropped a waiting BEACON. -/
theorem asked_ends (calm : Calm s) (view : LineView n s w)
    (dropped : ∀ d ∈ (asked n k pend dst target s w).wire.dropped, inert d = true) :
    finish (asked n k pend dst target s w) = idleWritten (asked n k pend dst target s w) := by
  refine (view.steady.trans steady_asked).finish calm (staysUp_of_busy (n := n) ?_)
    (view.parked (fun m hm => ?_) ?_) (inert_notices dropped)
  · rw [port_asked, port_asking]
    exact portIdle_of_outReq rfl
  · rw [port_asked]
    exact State.port_modPort_other _ _ hm
  · rw [port_asked, port_asking]
    exact waitState_away k

/-- The command's end where the REQUEST was dropped: the port is CLEARED at that moment (R96). -/
theorem asked_dropped (calm : Calm s) (ok : PortsOk s) (view : LineView n s w) (hook : (w.port n).offHook = true)
    (fitted : s.fitted n = true)
    (dropped : (asked n k pend dst target s w).wire.dropped = [.request k (askFrame n target s)]) :
    finish (asked n k pend dst target s w) = idleWritten (dropTold k s.ports.tag (asked n k pend dst target s w)) ∧
      (dropTold k s.ports.tag (asked n k pend dst target s w)).port n =
        Port.clear s.now (some (failCause k)) none ((asking n k pend dst target w).port n) := by
  have steady : Steady s (asked n k pend dst target s w) := view.steady.trans steady_asked
  have told : Steady (asked n k pend dst target s w) (dropTold k s.ports.tag (asked n k pend dst target s w)) :=
    Steady.trans ⟨(clearNotices_only _).mono (by decide), ⟨_, _, rfl⟩, rfl, rfl, rfl, fun _ => .inl rfl, rfl⟩
      (steady_eachPort (fun m t => steady_requestDropped k s.ports.tag m t) _)
  have fitted' : (asked n k pend dst target s w).fitted n = true := by
    cases n with
    | one => rfl
    | two =>
      rw [State.fitted, steady.only.cfg]
      exact fitted
  have port : (dropTold k s.ports.tag (asked n k pend dst target s w)).port n =
      Port.clear s.now (some (failCause k)) none ((asking n k pend dst target w).port n) := by
    have asks_now : asks k s.ports.tag ((asking n k pend dst target w).port n) = true := by
      rw [port_asking, view.tag]
      simp [asks, Port.await, Port.setTone]
    rw [port_dropTold, if_pos fitted', port_asked, Port.unanswered, if_pos asks_now, steady.only.now]
  have parked (m : PortNo) : ((dropTold k s.ports.tag (asked n k pend dst target s w)).port m).state = .parked ↔
      (s.port m).state = .parked := by
    by_cases same : m = n
    · subst same
      rw [port]
      simp [Port.clear, Port.setTone, view.away]
    · have unasked : (asking n k pend dst target w).port m = s.port m :=
        (State.port_modPort_other _ _ same).trans (view.other m same)
      rw [port_dropTold, port_asked, unasked]
      split
      · unfold Port.unanswered
        split
        · next waits =>
          obtain ⟨q, request, -⟩ := Option.any_eq_true _ _ |>.mp waits
          obtain ⟨state, -⟩ | ⟨state, -⟩ := portOk_outReq (portsOk_port ok m) request <;>
            simp [state, Port.clear, Port.setTone]
        · exact Iff.rfl
      · exact Iff.rfl
  refine ⟨?_, port⟩
  have first := settleFirst_dropped (steady.eligible calm.first.eligible)
    (by rw [steady.holding, steady.record, steady.only.hold]; exact calm.first.degraded)
    (by rw [steady.computeHolder, steady.only.hold]; exact calm.first.holder) dropped
  have others := (steady.trans told).others calm.rest.toOthersSettled parked
  rw [finish_eq, first]
  refine settleRest_others others (staysUp_of_busy (n := n) ?_)
  show portIdle ((dropTold k s.ports.tag (asked n k pend dst target s w)).port n) = false
  rw [port, port_asking]
  exact portIdle_of_offHook hook

theorem tag_requestDropped (k : RequestKind) (tag : Nat) (m : PortNo) (t : State) :
    (requestDropped k tag m t).ports.tag = t.ports.tag := by
  rw [requestDropped_eq]
  split
  · cases m <;> rfl
  · rfl

theorem tag_dropTold (k : RequestKind) (tag : Nat) (t : State) : (dropTold k tag t).ports.tag = t.ports.tag :=
  foldl_read (P := fun t : State => t.ports.tag) (fun t m => tag_requestDropped k tag m t) _ (clearNotices t)

theorem handed_asked (view : LineView n s w) :
    FrameHanded dst (.request k (askFrame n target s)) s (asked n k pend dst target s w) := by
  have steady : Steady s (useTag (asking n k pend dst target w)) :=
    (view.steady.trans (steady_modPort n (Port.await w.now (waitState k)
      (pend, ⟨k, w.ports.tag, dst, target, w.now, false⟩)) w (.inr (.inr ⟨nofun, nofun⟩)))).trans (steady_useTag _)
  exact frameHanded_offerControl (t := useTag (asking n k pend dst target w)) nofun nofun
    (congrArg Wire.control view.wire) steady.halted steady.only.now

theorem tag_asked (view : LineView n s w) : (asked n k pend dst target s w).ports.tag = nextTag s.ports.tag := by
  rw [asked, (offerControl_only _ _ _).ports]
  show nextTag (asking n k pend dst target w).ports.tag = _
  rw [tag_asking, view.tag]

/-- There is room for a frame in the control queue, or a waiting BEACON gives its own (R11). -/
def roomFor (s : State) : Prop := s.wire.control.length < 8 ∨ ∃ e ∈ s.wire.control, e.body = .beacon ∧ e.inTx = false

theorem dropped_asked (calm : Calm s) (view : LineView n s w) : (asked n k pend dst target s w).wire.dropped =
    controlDrops s (.request k (askFrame n target s)) := by
  have steady : Steady s (useTag (asking n k pend dst target w)) :=
    (view.steady.trans (steady_modPort n (Port.await w.now (waitState k)
      (pend, ⟨k, w.ports.tag, dst, target, w.now, false⟩)) w (.inr (.inr ⟨nofun, nofun⟩)))).trans (steady_useTag _)
  have wire : (useTag (asking n k pend dst target w)).wire = s.wire := view.wire
  rw [asked, offerControl_eq (b := .request k (askFrame n target s)) _ _ nofun nofun]
  show (useTag (asking n k pend dst target w)).wire.dropped ++ controlDrops
    (useTag (asking n k pend dst target w)) _ = _
  rw [controlDrops, steady.halted, wire, calm.dropped, List.nil_append, controlDrops]

theorem controlDrops_room {b : Body} (awake : s.halted = false) (room : roomFor s) :
    ∀ d ∈ controlDrops s b, d = .beacon := by
  rw [controlDrops, awake, if_neg (by decide)]
  obtain short | ⟨e, he, body, waits⟩ := room
  · rw [if_pos short]; nofun
  · split
    · nofun
    · rw [if_pos (List.any_eq_true.mpr ⟨e, he, by simp [waitingBeacon, body, waits]⟩)]
      exact fun d hd => List.mem_singleton.mp hd

theorem controlDrops_full {b : Body} (full : ¬ roomFor s) : controlDrops s b = [b] := by
  obtain ⟨long, none⟩ := not_or.mp full
  have unplaced : ¬(s.wire.control.any waitingBeacon = true) := by
    intro some_waits
    obtain ⟨e, he, waits⟩ := List.any_eq_true.mp some_waits
    simp only [waitingBeacon, Bool.and_eq_true, Bool.not_eq_true', decide_eq_true_eq] at waits
    exact none ⟨e, he, waits.2, waits.1⟩
  rw [controlDrops, if_neg long, if_neg unplaced, ite_self]

/-- A port's request to another station (R11, R94, R96, R99). -/
theorem requestMade (calm : Calm s) (ok : PortsOk s) (view : LineView n s w) (hook : (w.port n).offHook = true)
    (fitted : s.fitted n = true) (awake : s.halted = false)
    (pending : pend = if k = .offer then .offered dst target none else .exchange) :
    RequestMade k n dst target s (finish (asked n k pend dst target s w)) := by
  have drops := dropped_asked (n := n) (k := k) (pend := pend) (dst := dst) (target := target) calm view
  by_cases room : roomFor s
  · have ends := asked_ends (n := n) (k := k) (pend := pend) (dst := dst) (target := target) calm view fun d hd => by
      rw [drops] at hd
      rw [controlDrops_room awake room d hd]
      rfl
    rw [ends]
    refine ⟨tag_asked view, handed_asked view, ?_⟩
    have held : s.wire.control.length < 8 ∨ ∃ e ∈ s.wire.control, e.body = .beacon ∧ e.inTx = false := room
    rw [if_pos held, port_idleWritten, port_asked, port_asking]
    refine ⟨rfl, ?_, ?_, rfl, rfl⟩
    · show some _ = some _
      rw [view.tag, view.steady.only.now]
    · show (if waitState k = .offering then some pend else none) = _
      rw [pending, waitState]
      by_cases offer : k = .offer <;> simp [offer]
  · obtain ⟨ends, port⟩ := asked_dropped (n := n) (k := k) (pend := pend) (dst := dst)
      (target := target) calm ok view hook
      fitted (by rw [drops, controlDrops_full room])
    rw [ends]
    refine ⟨(tag_dropTold _ _ _).trans (tag_asked view), ?_, ?_⟩
    · show (dropTold k s.ports.tag (asked n k pend dst target s w)).wire.control = _
      rw [(dropTold_only _ _ _).wire]
      exact handed_asked view
    · have full : ¬(s.wire.control.length < 8 ∨ ∃ e ∈ s.wire.control, e.body = .beacon ∧ e.inTx = false) := room
      rw [if_neg full, port_idleWritten, port]
      exact ⟨rfl, rfl, rfl, rfl, rfl⟩

theorem controlDrops_alone {b : Body} (lost : b ∈ controlDrops s b) : controlDrops s b = [b] := by
  unfold controlDrops at lost ⊢
  split_ifs at lost ⊢ <;> simp_all

/-- Off its hook a port stays so, and the front end as it was, whatever becomes of its request. -/
theorem asked_hook (calm : Calm s) (ok : PortsOk s) (view : LineView n s w) (hook : (w.port n).offHook = true)
    (fitted : s.fitted n = true) : ∃ y, finish (asked n k pend dst target s w) = idleWritten y ∧
      ((y.port n).offHook = (w.port n).offHook ∧ (y.port n).pulses = (w.port n).pulses) ∧ y.power = w.power := by
  have drops := dropped_asked (n := n) (k := k) (pend := pend) (dst := dst) (target := target) calm view
  by_cases lost : .request k (askFrame n target s) ∈ controlDrops s (.request k (askFrame n target s))
  · obtain ⟨ends, port⟩ := asked_dropped (n := n) (k := k) (pend := pend) (dst := dst)
      (target := target) calm ok view hook
      fitted (by rw [drops, controlDrops_alone lost])
    refine ⟨_, ends, ?_, ?_⟩
    · rw [port, port_asking]
      exact ⟨rfl, rfl⟩
    · rw [(dropTold_only _ _ _).power]
      exact power_asked
  · have ends := asked_ends (n := n) (k := k) (pend := pend) (dst := dst) (target := target) calm view fun d hd => by
      rw [drops] at hd
      obtain rfl | rfl := mem_controlDrops hd
      · exact absurd hd lost
      · rfl
    refine ⟨_, ends, ?_, power_asked⟩
    rw [port_asked, port_asking]
    exact ⟨rfl, rfl⟩

end

end Sys2Proof.Machine
end

section
/-! PROOFS. A SEIZE or ANSWER of the holder's own port (R97, R110 to R116): judged inside the station without a
frame. -/

namespace Sys2Proof.Machine

open Sys2Proof

section
variable {n : PortNo} {s w z v : State} {k : RequestKind}

/-! ## The same judgement before and after the port's own change -/

theorem steady_createCall (steady : Steady s w) (same : w.call = s.call) (st po : Nat) :
    Steady (createCall st po s) (createCall st po w) := by
  have record : freshRecord' st po w = freshRecord' st po s := by
    simp only [freshRecord', State.privateFlag, same, steady.only.now, steady.only.cfg]
  rw [createCall, createCall, record]
  exact steady.abortTest.modCall _ same

theorem steady_modRecord (steady : Steady s w) (same : w.call = s.call) (f : CallRecord → CallRecord) :
    Steady (modRecord f s) (modRecord f w) := steady.modCall _ same

/-! ## The command's end after a judgement inside the station -/

theorem HolderSettled.noted (h : HolderSettled z) : Noted z :=
  ⟨h.eligible, by rw [Bool.and_assoc, h.degraded, Bool.and_false], .inr ⟨h.holding, h.known⟩, h.dropped⟩

/-- The station as it ends the command: the holder noted, the idle timer written. -/
def insideDone (v : State) : State := idleWritten (clearNotices (holderNoted v))

theorem insideDone_only (v : State) : Only [.power, .wire, .hold] v (insideDone v) :=
  (idleWritten_only _).after ((clearNotices_only _).after ((State.modHold_only _ v).mono (by decide)) (by decide))
    (by decide)

theorem insideDone_call (v : State) : (insideDone v).call = v.call := (insideDone_only v).call

theorem insideDone_fault (v : State) : (insideDone v).fault = v.fault := (insideDone_only v).fault

theorem port_insideDone (v : State) (m : PortNo) : (insideDone v).port m = v.port m :=
  port_congr (insideDone_only v).ports m

theorem insideDone_control (v : State) : (insideDone v).wire.control = v.wire.control := by
  rw [insideDone, idleWritten_control, clearNotices_control, holderNoted, State.modHold_wire]

theorem idleWritten_power (v : State) :
    (idleWritten v).power.state = v.power.state ∧ (idleWritten v).power.frontEnd = v.power.frontEnd := ⟨rfl, rfl⟩

theorem insideDone_power (v : State) :
    (insideDone v).power.state = v.power.state ∧ (insideDone v).power.frontEnd = v.power.frontEnd := by
  have power : (clearNotices (holderNoted v)).power = v.power := by
    rw [(clearNotices_only _).power, holderNoted, State.modHold_power]
  rw [insideDone, ← power]
  exact idleWritten_power _

theorem inside_ends (h : HolderSettled z) (o : OthersSettled z) (steady : Steady z v) (dropped : v.wire.dropped = [])
    (parked : ∀ m, (v.port m).state = .parked ↔ (z.port m).state = .parked) : finish v = insideDone v :=
  finish_noted_others (steady.noted h.noted (by rw [dropped]; nofun)) (steady.others o parked)
    (staysUp_of_holding (steady.holding.trans h.holding))

/-- A port answered with a GRANT by its own station. -/
theorem granted_ends {id : Nat} {zs : State} (calm : Calm s) (view : LineView n s w) (h : HolderSettled zs)
    (o : OthersSettled zs) (only : Only [.call, .fault] s zs) (steady : Steady zs z) (wire : z.wire = s.wire)
    (ports : z.ports = (useTag w).ports) :
    finish (connectPort n (.outside s.own id) z) = insideDone (connectPort n (.outside s.own id) z) := by
  have connected := port_connectPort_same n z (.outside s.own id)
  refine inside_ends h o (steady.trans (steady_connectPort n _ z)) ?_ fun m => ?_
  · rw [(connectPort_only _ _ _).wire, wire, calm.dropped]
  · rw [port_congr only.ports]
    refine view.parked (fun p hp => ?_) ?_ m
    · rw [port_connectPort_other n z _ hp, port_congr ports, port_useTag]
    · obtain ⟨timed, port⟩ := connected
      rw [port]
      nofun

theorem LineView.tagged (view : LineView n s w) : Steady s (useTag w) := view.steady.trans (steady_useTag w)

theorem port_granted {id : Nat} (own : z.own = s.own) (now : z.now = s.now) :
    (connectPort n (.outside s.own id) z).port n = Port.connect s.now (.outside s.own id) false (z.port n) := by
  have timed : decide (s.own ≠ z.own) = false := by rw [own]; simp
  have port : (connectPort n (.outside s.own id) z).port n =
      Port.connect z.now (.outside s.own id) (decide (s.own ≠ z.own)) (z.port n) := State.port_modPort_same _ _ _
  rw [port, timed, now]

theorem makeSeize_inside {z : State} {x : Verdict} (view : LineView n s w) (holding : s.holding = true)
    (known : s.hold.known = some s.own)
    (judged : judgeHolding k s.own (portNo n) (s.portCfg n).cls.toNat (useTag w) = (z, x)) :
    makeSeize n k w = takeAnswer n k s.own x z := by
  have hold : w.hold = s.hold := view.steady.only.hold
  have holding' : (useTag w).holding = true := view.tagged.holding.trans holding
  have answer := judge_of_holding holding' judged
  rw [makeSeize, hold, known]
  simp only [view.own, if_true, view.portClass, answer]

/-- The port's hook, its pulse count and the front end are as they were. -/
structure HookKept (n : PortNo) (w t : State) : Prop where
  hook : (t.port n).offHook = (w.port n).offHook
  pulses : (t.port n).pulses = (w.port n).pulses
  state : t.power.state = w.power.state
  front : t.power.frontEnd = w.power.frontEnd

/-- What a GRANT inside the station leaves of its port and the record. -/
structure GrantedInside (n : PortNo) (s w t : State) (r : CallRecord) : Prop where
  port : t.port n = Port.connect s.now (.outside s.own r.id) false (w.port n)
  record : t.call.record = some r
  control : t.wire.control = s.wire.control
  kept : HookKept n w t

/-- What a refusal inside the station leaves of its port and the record. -/
structure RefusedInside (n : PortNo) (c : RefuseCause) (ref : Nat × Nat) (s w t : State) : Prop where
  port : t.port n = Port.clear s.now (some (.refused c)) (some ref) (w.port n)
  record : t.call.record = s.call.record
  control : t.wire.control = s.wire.control
  kept : HookKept n w t

theorem RefusedInside.outcome {c : RefuseCause} {ref : Nat × Nat} {t : State} (h : RefusedInside n c ref s w t) :
    (t.wire.control = s.wire.control ∧ (t.port n).state = .cleared ∧ (t.port n).outReq = none ∧
      (t.port n).tone = .busy ∧ (t.port n).lastCause = some (.refused c) ∧ (t.port n).lastRef = some ref ∧
      t.call.record = s.call.record) ∧ HookKept n w t := by
  refine ⟨⟨h.control, ?_⟩, h.kept⟩
  rw [h.port]
  exact ⟨rfl, rfl, rfl, rfl, rfl, h.record⟩

theorem GrantedInside.outcome {r : CallRecord} {t : State} (h : GrantedInside n s w t r) :
    (t.wire.control = s.wire.control ∧ (t.port n).state = .connected ∧
      (t.port n).callRef = some (.outside s.own r.id) ∧ (t.port n).outReq = none ∧ (t.port n).seq = 0 ∧
      (t.port n).silence = none ∧ (t.port n).tone = .silent ∧ t.call.record = some r) ∧ HookKept n w t := by
  refine ⟨⟨h.control, ?_⟩, h.kept⟩
  rw [h.port]
  exact ⟨rfl, rfl, rfl, rfl, rfl, rfl, h.record⟩

theorem refusedInside {c : RefuseCause} {ref : Nat × Nat} (calm : Calm s) (view : LineView n s w)
    (holding : s.holding = true) : RefusedInside n c ref s w (finish (refusePort n c ref (useTag w))) := by
  have steady : Steady s (refusePort n c ref (useTag w)) := view.tagged.trans (steady_clearPort n _ _ _)
  have wire : (refusePort n c ref (useTag w)).wire = s.wire := (refusePort_only n c ref _).wire.trans view.wire
  have port : (refusePort n c ref (useTag w)).port n = Port.clear s.now (some (.refused c)) (some ref) (w.port n) := by
    rw [refusePort, port_clearPort_same, view.tagged.only.now, port_useTag]
  have power : (refusePort n c ref (useTag w)).power = w.power := (refusePort_only n c ref _).power
  have ends : finish (refusePort n c ref (useTag w)) = insideDone (refusePort n c ref (useTag w)) := by
    refine inside_ends (Calm.holderSettled calm holding) calm.rest.toOthersSettled steady (by rw [wire, calm.dropped])
      (view.parked (fun m hm => ?_) ?_)
    · rw [refusePort, port_clearPort_other n _ _ _ hm, port_useTag]
    · rw [port]
      nofun
  obtain ⟨state, front⟩ := insideDone_power (refusePort n c ref (useTag w))
  rw [ends]
  refine ⟨(port_insideDone _ n).trans port, ?_, ?_, ?_, ?_, ?_, ?_⟩
  · rw [insideDone_call, steady.record]
  · rw [insideDone_control, wire]
  · rw [port_insideDone, port]
    rfl
  · rw [port_insideDone, port]
    rfl
  · rw [state, power]
  · rw [front, power]

theorem grantedInside {zs : State} {r : CallRecord} (calm : Calm s) (view : LineView n s w) (h : HolderSettled zs)
    (rest : RestSettled zs) (only : Only [.call, .fault] s zs) (steady : Steady zs z)
      (moved : Only [.call, .fault] (useTag w) z)
    (record : z.call.record = some r) :
    GrantedInside n s w (finish (connectPort n (.outside s.own r.id) z)) r ∧
      (finish (connectPort n (.outside s.own r.id) z)).call = z.call ∧
      (finish (connectPort n (.outside s.own r.id) z)).fault = z.fault := by
  have wire : z.wire = s.wire := moved.wire.trans view.wire
  have own : z.own = s.own := by rw [State.own, moved.straps]; exact view.own
  have ends := granted_ends (id := r.id) calm view h rest.toOthersSettled only steady wire moved.ports
  have port := port_granted (n := n) (id := r.id) own (moved.now.trans view.tagged.only.now)
  rw [port_congr moved.ports, port_useTag] at port
  have same := connectPort_only n (.outside s.own r.id) z
  have power : (connectPort n (.outside s.own r.id) z).power = w.power := same.power.trans moved.power
  obtain ⟨state, front⟩ := insideDone_power (connectPort n (.outside s.own r.id) z)
  rw [ends]
  refine ⟨⟨(port_insideDone _ n).trans port, ?_, ?_, ?_, ?_, ?_, ?_⟩, ?_, ?_⟩
  · rw [insideDone_call, same.call, record]
  · rw [insideDone_control, same.wire, wire]
  · rw [port_insideDone, port]
    rfl
  · rw [port_insideDone, port]
    rfl
  · rw [state, power]
  · rw [front, power]
  · rw [insideDone_call, same.call]
  · rw [insideDone_fault, same.fault]

theorem takeAnswer_granted {id : Nat} {x : State} (hk : k = .seize ∨ k = .answer) :
    takeAnswer n k s.own (granted x id) z = connectPort n (.outside s.own id) z := by
  obtain rfl | rfl := hk <;> rfl

theorem takeAnswer_refused {c : RefuseCause} {st po : Nat} :
    takeAnswer n k s.own (refused c st po) z = refusePort n c (st, po) z := rfl

/-! ## The judgement (R111 to R116) -/

theorem HolderSettled.createCall {st po : Nat} (h : HolderSettled z) : HolderSettled (createCall st po z) :=
  ⟨h.eligible, by rw [show (Machine.createCall st po z).call.record.isNone = false from rfl, Bool.and_false], h.holding,
    h.known, h.dropped⟩

/-- A request of its own port that makes the record (R110, R114). -/
theorem created_inside (calm : Calm s) (view : LineView n s w) (holding : s.holding = true) :
    GrantedInside n s w (finish (connectPort n (.outside s.own (nextId s.call.lastId))
        (createCall s.own (portNo n) (useTag w)))) (freshRecord' s.own (portNo n) s) ∧
      (finish (connectPort n (.outside s.own (nextId s.call.lastId))
        (createCall s.own (portNo n) (useTag w)))).call.lastId = nextId s.call.lastId ∧
      (finish (connectPort n (.outside s.own (nextId s.call.lastId))
        (createCall s.own (portNo n) (useTag w)))).fault.test = none := by
  have same : (useTag w).call = s.call := view.call
  have steady := steady_createCall view.tagged same s.own (portNo n)
  have made : (createCall s.own (portNo n) (useTag w)).call.record = some (freshRecord' s.own (portNo n) s) := by
    show some (freshRecord' s.own (portNo n) (useTag w)) = _
    simp only [freshRecord', State.privateFlag, same, view.tagged.only.now, view.tagged.only.cfg]
  obtain ⟨granted, call, fault⟩ := grantedInside (r := freshRecord' s.own (portNo n) s) calm view
    (HolderSettled.createCall (Calm.holderSettled calm holding)) (restSettled_createCall calm.rest)
    ((createCall_only _ _ s).mono (by decide)) steady ((createCall_only _ _ _).mono (by decide)) made
  have id : (freshRecord' s.own (portNo n) s).id = nextId s.call.lastId := rfl
  rw [id] at granted call fault
  refine ⟨granted, ?_, ?_⟩
  · rw [call, createCall, State.modCall_call]
    show nextId (useTag w).call.lastId = _
    rw [same]
  · rw [fault, createCall, State.modCall_fault, abortTest, State.modFault_fault]

/-- A request of its own port that changes the record that there is (R115, R116). -/
theorem changed_inside {f g : CallRecord → CallRecord} {r : CallRecord} (calm : Calm s) (view : LineView n s w)
    (holding : s.holding = true) (hr : s.call.record = some r) (alike : g = f) (id : (f r).id = r.id)
    (seized : (f r).seized = r.seized) (loss : (f r).loss = r.loss) (queue : (f r).queue = r.queue)
    (outpulse : (f r).outpulse = r.outpulse) :
    GrantedInside n s w (finish (connectPort n (.outside s.own r.id) (modRecord g (useTag w)))) (f r) := by
  subst alike
  have same : (useTag w).call = s.call := view.call
  have changed := grantedInside (r := g r) calm view ((Calm.holderSettled calm holding).modRecord hr)
    (RestSettled.modRecord calm.rest hr seized loss queue outpulse) ((modRecord_only g s).mono (by decide))
    (steady_modRecord view.tagged same g) ((modRecord_only g _).mono (by decide))
    (modRecord_record (by rw [same, hr]))
  rw [id] at changed
  exact changed.1

/-- A party that asks again begins a new stream (R116). -/
theorem regranted_party (st po : Nat) (now : Tick) : (fun p : Party =>
    if isParty st po p then { p with seq := 0, playout := Playout.fresh, silence := now } else p) =
      fun p => if p.station = st ∧ p.port = po then ⟨st, po, 0, ⟨[], none, [], 0⟩, now⟩ else p := by
  funext p
  by_cases same : p.station = st ∧ p.port = po
  · obtain ⟨rfl, rfl⟩ := same
    simp only [isParty, decide_true, Bool.and_self, and_self, if_true]
    rfl
  · have no : isParty st po p = false := by simpa [isParty] using same
    rw [no, if_neg same]
    rfl

/-- A request judged inside the station. -/
theorem judgedInside (hk : k = .seize ∨ k = .answer) (calm : Calm s) (view : LineView n s w)
    (fitted : s.fitted n = true)
    (holding : s.holding = true) (known : s.hold.known = some s.own) :
    JudgedInside k n s (finish (makeSeize n k w)) ∧ HookKept n w (finish (makeSeize n k w)) := by
  have tagged := view.tagged
  have there : ¬(s.own ≠ (useTag w).own ∧ ((useTag w).peer s.own).isNone = true) := fun e => e.1 view.own.symm
  have port : (useTag w).portKnown s.own (portNo n) = true := by
    have own : (useTag w).own = s.own := view.own
    have fits : (useTag w).fitted n = true := by
      cases n with
      | one => rfl
      | two =>
        rw [State.fitted, tagged.only.cfg]
        exact fitted
    simp only [State.portKnown, portOf_portNo, own, fits, Bool.or_true]
  have classOf : (useTag w).classOf s.own = s.cfg.stationClass.toNat := by
    have own : (useTag w).own = s.own := view.own
    rw [State.classOf, own, if_pos rfl, tagged.only.cfg]
  have effective : (useTag w).effective s.own (s.portCfg n).cls.toNat =
      max (s.portCfg n).cls.toNat s.cfg.stationClass.toNat := by rw [State.effective, classOf]
  have byClass : classRefusal s.own (portNo n) (s.portCfg n).cls.toNat (useTag w) =
      refused .cls s.own (if s.cfg.stationClass.toNat ≤ (s.portCfg n).cls.toNat then portNo n else 0) := by
    rw [classRefusal, classOf]
    split <;> rfl
  have own : (useTag w).own = s.own := view.own
  have refuses {c : RefuseCause} {st po : Nat}
      (judged : judgeHolding k s.own (portNo n) (s.portCfg n).cls.toNat (useTag w) = (useTag w, refused c st po)) :
      RefusedInside n c (st, po) s w (finish (makeSeize n k w)) := by
    rw [makeSeize_inside view holding known judged, takeAnswer_refused]
    exact refusedInside calm view holding
  unfold JudgedInside
  cases hr : s.call.record with
  | none =>
    have degraded : s.hold.degraded = false := by
      have none_held := calm.first.degraded
      rwa [holding, hr, Bool.true_and, Option.isNone_none, Bool.and_true] at none_held
    have judged := judgeHolding_noRecord (k := k) (cls := (s.portCfg n).cls.toNat) there port
      (show (useTag w).call.record = none by rw [← hr]; exact congrArg Call.record view.call)
      (show (useTag w).hold.degraded = false by rw [tagged.only.hold, degraded])
    have ringing : (useTag w).ports.ringing = s.ports.ringing := view.ringing
    have line : (useTag w).cond .lineDead = s.cond .lineDead := by rw [State.cond, State.cond, tagged.only.fault]
    rw [effective, byClass, ringing, line, tagged.only.cfg, own, show (useTag w).call = s.call from view.call] at judged
    dsimp only
    generalize (if s.cfg.stationClass.toNat ≤ (s.portCfg n).cls.toNat then portNo n else 0) = x at judged ⊢
    split_ifs at judged ⊢ with passes above
    · rw [makeSeize_inside view holding known judged, takeAnswer_granted hk]
      obtain ⟨granted, lastId, test⟩ := created_inside calm view holding
      refine ⟨⟨granted.control, ?_, lastId, ?_, test⟩, granted.kept⟩
      · rw [granted.port]
        exact ⟨rfl, rfl, rfl, rfl, rfl, rfl, granted.record⟩
      · rw [State.loopClosed, granted.record]
        rfl
    · exact hr ▸ (refuses judged).outcome
    · exact hr ▸ (refuses judged).outcome
  | some r =>
    have judged := judgeHolding_record (k := k) (cls := (s.portCfg n).cls.toNat) there port
      (show (useTag w).call.record = some r by rw [← hr]; exact congrArg Call.record view.call)
    rw [effective, byClass, tagged.only.cfg, tagged.only.hold, own] at judged
    dsimp only
    generalize (if s.cfg.stationClass.toNat ≤ (s.portCfg n).cls.toNat then portNo n else 0) = x at judged ⊢
    split_ifs at judged ⊢ with there degraded priv above full
    · rw [makeSeize_inside view holding known judged, takeAnswer_granted hk]
      have now : (useTag w).now = s.now := tagged.only.now
      rw [regrant, regranted_party, now]
      exact (changed_inside calm view holding hr rfl rfl rfl rfl rfl rfl).outcome
    · exact hr ▸ (refuses judged).outcome
    · exact hr ▸ (refuses judged).outcome
    · exact hr ▸ (refuses judged).outcome
    · exact hr ▸ (refuses judged).outcome
    · rw [makeSeize_inside view holding known judged, takeAnswer_granted hk]
      have now : (useTag w).now = s.now := tagged.only.now
      rw [joinCall, now]
      exact (changed_inside calm view holding hr rfl rfl rfl rfl rfl rfl).outcome

end

end Sys2Proof.Machine
end

section
/-! PROOFS. Off-hook (R90, R93, R97, R99, R109, R129, R171): what a port does as it goes off its hook. -/

namespace Sys2Proof.Machine

open Sys2Proof

section
variable {n : PortNo} {s w v : State} {k : RequestKind}

/-! ## A request for the line (R97) -/

theorem hookKept_of {y t : State} (ends : t = idleWritten y)
    (hook : (y.port n).offHook = (w.port n).offHook ∧ (y.port n).pulses = (w.port n).pulses)
    (power : y.power = w.power) : HookKept n w t := by
  obtain ⟨state, front⟩ := idleWritten_power y
  rw [ends]
  exact ⟨hook.1, hook.2, by rw [state, power], by rw [front, power]⟩

/-- A SEIZE or ANSWER held in LISTEN (R97). -/
theorem line_held (calm : Calm s) (view : LineView n s w) (listen : s.hold.state = .listen) :
    (finish (requestLine n k w)).port n =
      Port.await s.now .waiting (.exchange, ⟨k, 0, 0, 0, s.now, true⟩) (w.port n) ∧
      HookKept n w (finish (requestLine n k w)) := by
  have held : requestLine n k w = w.modPort n (Port.await w.now .waiting (.exchange, ⟨k, 0, 0, 0, w.now, true⟩)) :=
    if_pos (by rw [view.steady.only.hold, listen])
  have port : (w.modPort n (Port.await w.now .waiting (.exchange, ⟨k, 0, 0, 0, w.now, true⟩))).port n =
      Port.await w.now .waiting (.exchange, ⟨k, 0, 0, 0, w.now, true⟩) (w.port n) := State.port_modPort_same _ _ _
  have ends := await_ends (st := .waiting) (q := (.exchange, ⟨k, 0, 0, 0, w.now, true⟩)) view calm nofun
  rw [held, ends]
  refine ⟨?_, hookKept_of rfl ?_ rfl⟩
  · rw [port_idleWritten, port, view.steady.only.now]
  · rw [port]
    exact ⟨rfl, rfl⟩

theorem requestLine_made (view : LineView n s w) (away : s.hold.state ≠ .listen) :
    requestLine n k w = makeSeize n k w := if_neg (by rw [view.steady.only.hold]; exact away)

theorem makeSeize_unknown (view : LineView n s w) (known : s.hold.known = none) :
    makeSeize n k w = refusePort n .noHolder (s.own, 0) w := by
  rw [makeSeize, view.steady.only.hold, known, view.own]

theorem makeSeize_other {h : Nat} (view : LineView n s w) (hk : k ≠ .offer) (known : s.hold.known = some h)
    (other : h ≠ s.own) : makeSeize n k w = asked n k .exchange h 0 s w := by
  rw [makeSeize, view.steady.only.hold, known]
  simp only [view.own, if_neg other]
  rw [← sendRequest_asking view, asking, waitState, if_neg hk]

/-- A request refused for want of a holder (R97). -/
theorem line_unknown (calm : Calm s) (view : LineView n s w) (known : s.hold.known = none)
    (up : StaysUp (refusePort n .noHolder (s.own, 0) w)) :
    (finish (makeSeize n k w)).port n =
      Port.clear s.now (some (.refused .noHolder)) (some (s.own, 0)) (w.port n) ∧
      NothingSent s (finish (makeSeize n k w)) ∧ HookKept n w (finish (makeSeize n k w)) := by
  have port : (refusePort n .noHolder (s.own, 0) w).port n =
      Port.clear s.now (some (.refused .noHolder)) (some (s.own, 0)) (w.port n) := by
    rw [refusePort, port_clearPort_same, view.steady.only.now]
  have wire : (refusePort n .noHolder (s.own, 0) w).wire = s.wire := (refusePort_only _ _ _ w).wire.trans view.wire
  have tag : (refusePort n .noHolder (s.own, 0) w).ports.tag = s.ports.tag := by
    rw [← view.tag]
    cases n <;> rfl
  rw [makeSeize_unknown view known, refusePort_ends view calm up]
  refine ⟨(port_idleWritten _ n).trans port, ⟨?_, tag⟩, hookKept_of rfl ?_ (refusePort_only _ _ _ w).power⟩
  · rw [idleWritten_control, wire]
  · rw [port]
    exact ⟨rfl, rfl⟩

/-- From `w` to `v` the port has put its request away, or left it waiting, and nothing else has changed but the port. -/
structure PutAway (n : PortNo) (w v : State) : Prop where
  steady : Steady w v
  wire : v.wire = w.wire
  power : v.power = w.power
  other : ∀ m, m ≠ n → v.port m = w.port m
  away : (v.port n).state ≠ .parked
  hook : (v.port n).offHook = (w.port n).offHook ∧ (v.port n).pulses = (w.port n).pulses

theorem PutAway.of_tagged {p : Port} (only : Only [.ports, .call] (useTag w) v) (steady : Steady (useTag w) v)
    (other : ∀ m, m ≠ n → v.port m = (useTag w).port m) (port : v.port n = p) (away : p.state ≠ .parked)
    (hook : p.offHook = (w.port n).offHook ∧ p.pulses = (w.port n).pulses) : PutAway n w v := by
  subst port
  exact ⟨(steady_useTag w).trans steady, only.wire, only.power, fun m hm => by rw [other m hm, port_useTag], away, hook⟩

/-- What a station that knows itself as the holder, and does not hold the line, does with its own port's request
(R112): it refuses, or HALTED leaves it out. -/
theorem line_unheld (view : LineView n s w) (known : s.hold.known = some s.own) (away : s.holding = false) :
    PutAway n w (makeSeize n k w) := by
  have hold : (useTag w).hold = s.hold := view.steady.only.hold
  have own : (useTag w).own = s.own := view.own
  have refuses (c : RefuseCause) : PutAway n w (refusePort n c (s.own, 0) (useTag w)) :=
    .of_tagged (p := Port.clear w.now (some (.refused c)) (some (s.own, 0)) (w.port n)) (refusePort_only _ _ _ _)
      (steady_clearPort n _ _ _)
      (fun m hm => by rw [refusePort, port_clearPort_other n _ _ _ hm])
      (by rw [refusePort, port_clearPort_same, port_useTag]; rfl) nofun ⟨rfl, rfl⟩
  have judged (z : State) (x : Option Verdict) (h : judge k s.own (portNo n) (w.portClass n) (useTag w) = (z, x)) :
      makeSeize n k w = x.elim
        (z.modPort n (Port.await w.now .waiting (.exchange, ⟨k, w.ports.tag, s.own, 0, w.now, false⟩)))
        fun v => takeAnswer n k s.own v z := by
    rw [makeSeize, show w.hold = s.hold from hold, known]
    simp only [view.own, if_true, h]
    cases x <;> rfl
  cases state : s.hold.state with
  | holding => rw [holding_iff.mpr state] at away; cases away
  | halted =>
    rw [judged (useTag w) none (by rw [judge, hold, state]), Option.elim]
    generalize await : (Pending.exchange, OutReq.mk k w.ports.tag s.own 0 w.now false) = q
    exact .of_tagged (p := Port.await w.now .waiting q (w.port n)) ((State.modPort_only _ _ _).mono (by decide))
      (steady_modPort n (Port.await w.now .waiting q) _ (.inr (.inr ⟨nofun, nofun⟩)))
      (fun m hm => State.port_modPort_other _ _ hm)
      ((State.port_modPort_same n (Port.await w.now .waiting q) _).trans (by rw [port_useTag])) nofun ⟨rfl, rfl⟩
  | yielding =>
    rw [judged (useTag w) (some (refused .handover s.own 0)) (by rw [judge, hold, state, own])]
    exact refuses .handover
  | _ =>
    rw [judged (useTag w) (some (refused .noHolder s.own 0)) (by rw [judge, hold, state, own])]
    exact refuses .noHolder

theorem PutAway.kept (put : PutAway n w v) (view : LineView n s w) (calm : Calm s) (hook : (w.port n).offHook = true) :
    HookKept n w (finish v) :=
  hookKept_of (view.finish calm put.steady put.wire put.other put.away
    (staysUp_of_busy (n := n) (portIdle_of_offHook (put.hook.1.trans hook)))) put.hook put.power

/-! ## An intercom offer answered (R99, R102, R129) -/

/-- The other ports that ring for the offer. -/
def ringingToo (n : PortNo) (st po ref : Nat) (w : State) : List PortNo :=
  w.fittedPorts.filter fun m => decide (m ≠ n) && decide ((w.port m).pending = some (.offerFrom st po ref))

/-- The station with the other ports idle again, and the entry the answering port's alone. -/
def answeredHere (n : PortNo) (st po ref : Nat) (w : State) : State :=
  connectPort n (.intercom st po ref w.own)
    (((ringingToo n st po ref w).foldl (fun s m => idlePort m s) w).modCall fun c =>
      { c with bindings := c.bindings.map fun b => if b.ref = ref then { b with locals := [n], connected := true }
        else b })

/-- The station's other port connected too, where it made the offer (R99, R129). -/
def answeredBoth (n : PortNo) (po ref : Nat) (w u : State) : State :=
  (portOf po).elim u fun m =>
    if holdsBinding w.own ref (u.port m) then connectPort m (.intercom w.own (portNo n) ref w.own) u else u

theorem acceptOffer_eq (n : PortNo) (st po ref : Nat) (w : State) : acceptOffer n st po ref w =
    if st = w.own then answeredBoth n po ref w (answeredHere n st po ref w)
    else sendRequest .accept st ⟨portNo n, w.portClass n, po, ref, 0⟩ (answeredHere n st po ref w) := by
  unfold acceptOffer answeredBoth answeredHere ringingToo
  cases portOf po <;> rfl

section
variable {st po ref : Nat}

theorem foldl_idlePort_only (l : List PortNo) (t : State) : Only [.ports] t (l.foldl (fun s m => idlePort m s) t) :=
  Only.foldl (fun s m => idlePort_only m s) l t

theorem steady_answeredHere : Steady w (answeredHere n st po ref w) := by
  have fold : ∀ (l : List PortNo) (t : State), Steady t (l.foldl (fun s m => idlePort m s) t) := by
    intro l
    induction l with
    | nil => exact fun t => .refl t
    | cons m l ih => exact fun t => (steady_idlePort m t).trans (ih _)
  exact (fold _ w).trans (Steady.trans (.of_ports ((State.modCall_only _ _).mono (by decide)) (fun _ => .inl rfl) rfl)
    (steady_connectPort n _ _))

theorem answeredHere_only : Only [.ports, .call] w (answeredHere n st po ref w) :=
  (connectPort_only _ _ _).after ((State.modCall_only _ _).after ((foldl_idlePort_only _ w).mono (by decide))
    (by decide)) (by decide)

theorem toIdle_twice (now : Tick) (p : Port) : (p.toIdle now).toIdle now = p.toIdle now := rfl

theorem port_foldl_idlePort (l : List PortNo) (t : State) (m : PortNo) :
    (l.foldl (fun s m => idlePort m s) t).port m = if m ∈ l then (t.port m).toIdle t.now else t.port m :=
  port_foldl (op := fun s m => idlePort m s) (g := Port.toIdle t.now)
    (fun s n hs => by rw [port_idlePort_same, hs]) (fun s n m hm => port_idlePort_other n s hm) (fun _ _ => rfl)
    (toIdle_twice t.now) m l t rfl

theorem mem_ringingToo {m : PortNo} : m ∈ ringingToo n st po ref w ↔
    m ∈ w.fittedPorts ∧ m ≠ n ∧ (w.port m).pending = some (.offerFrom st po ref) := by
  simp [ringingToo]

theorem port_connectPort_intercom (n : PortNo) (st po ref l : Nat) (x : State) :
    (connectPort n (.intercom st po ref l) x).port n =
      Port.connect x.now (.intercom st po ref l) (decide (st ≠ x.own)) (x.port n) :=
  State.port_modPort_same n (Port.connect x.now (.intercom st po ref l) (decide (st ≠ x.own))) x

theorem port_answeredHere_same (view : LineView n s w) : (answeredHere n st po ref w).port n =
    Port.connect s.now (.intercom st po ref s.own) (decide (st ≠ s.own)) (w.port n) := by
  have only := foldl_idlePort_only (ringingToo n st po ref w) w
  have port : ((ringingToo n st po ref w).foldl (fun s m => idlePort m s) w).port n = w.port n := by
    rw [port_foldl_idlePort, if_neg fun here => (mem_ringingToo.mp here).2.1 rfl]
  have now : ((ringingToo n st po ref w).foldl (fun s m => idlePort m s) w).now = s.now :=
    only.now.trans view.steady.only.now
  have own : ((ringingToo n st po ref w).foldl (fun s m => idlePort m s) w).own = s.own := by
    rw [State.own, only.straps]
    exact view.own
  rw [answeredHere]
  generalize (ringingToo n st po ref w).foldl (fun s m => idlePort m s) w = x at *
  rw [port_connectPort_intercom, view.own]
  show Port.connect x.now (.intercom st po ref s.own) (decide (st ≠ x.own)) (x.port n) = _
  rw [now, own, port]

theorem port_answeredHere_other (view : LineView n s w) {m : PortNo} (other : m ≠ n) :
    (answeredHere n st po ref w).port m =
      if m ∈ ringingToo n st po ref w then (s.port m).toIdle s.now else s.port m := by
  rw [answeredHere, port_connectPort_other n _ _ other]
  show ((ringingToo n st po ref w).foldl (fun s m => idlePort m s) w).port m = _
  rw [port_foldl_idlePort, view.other m other, view.steady.only.now]

/-- What the answered offer leaves of a port that was not answering. -/
theorem answeredHere_kept (ok : PortsOk s) (view : LineView n s w) {m : PortNo} (other : m ≠ n) :
    (((answeredHere n st po ref w).port m).state = .parked ↔ (s.port m).state = .parked) ∧
      ((answeredHere n st po ref w).port m = s.port m ∨
        ((answeredHere n st po ref w).port m).outReq = none ∧ ((answeredHere n st po ref w).port m).state = .idle) := by
  rw [port_answeredHere_other view other]
  split
  · next here =>
    obtain ⟨-, -, pending⟩ := mem_ringingToo.mp here
    rw [view.other m other] at pending
    refine ⟨?_, .inr ⟨rfl, rfl⟩⟩
    rw [portOk_ringing (portsOk_port ok m) pending]
    simp [Port.toIdle, Port.setTone]
  · exact ⟨Iff.rfl, .inl rfl⟩

theorem tag_answeredHere : (answeredHere n st po ref w).ports.tag = w.ports.tag := by
  have fold (t : State) (m : PortNo) : (idlePort m t).ports.tag = t.ports.tag := by cases m <;> rfl
  have folded := foldl_read (P := fun t : State => t.ports.tag) fold (ringingToo n st po ref w) w
  rw [← folded, answeredHere]
  generalize (ringingToo n st po ref w).foldl (fun s m => idlePort m s) w = x
  cases n <;> rfl

/-- The entries after an offer of `ref` is answered at the port: its own holds that port alone, CONNECTED (R129). -/
def answeredBindings (n : PortNo) (ref : Nat) (l : List Binding) : List Binding :=
  l.map fun b => if b.ref = ref then { b with locals := [n], connected := true } else b

theorem bindings_answeredHere (view : LineView n s w) :
    (answeredHere n st po ref w).call.bindings = answeredBindings n ref s.call.bindings := by
  have only := foldl_idlePort_only (ringingToo n st po ref w) w
  rw [answeredHere, (connectPort_only _ _ _).call, State.modCall_call, only.call, view.call]
  rfl

/-- What an answered offer leaves of the answering port, the other ringing ports and the entries. -/
structure OfferAnswered (n : PortNo) (st po ref : Nat) (s w t : State) : Prop where
  port : ∃ p, t.port n = Port.connect s.now (.intercom st po ref s.own) (decide (st ≠ s.own)) p
  others : ∀ m ∈ s.fittedPorts, m ≠ n → (s.port m).pending = some (.offerFrom st po ref) →
    (t.port m).state = .idle ∧ (t.port m).pending = none ∧ (t.port m).ringOn = false
  bindings : t.call.bindings = answeredBindings n ref s.call.bindings
  kept : HookKept n w t

theorem idle_answeredHere (view : LineView n s w) {m : PortNo} (fitted : m ∈ s.fittedPorts) (other : m ≠ n)
    (pending : (s.port m).pending = some (.offerFrom st po ref)) :
    (answeredHere n st po ref w).port m = (s.port m).toIdle s.now := by
  rw [port_answeredHere_other view other, if_pos (mem_ringingToo.mpr ⟨?_, other, ?_⟩)]
  · rwa [State.fittedPorts, view.steady.only.cfg]
  · rw [view.other m other, pending]

/-- An offer of another station answered: an ACCEPT is handed over (R99, R102, R129). -/
theorem offer_accepted (calm : Calm s) (ok : PortsOk s) (view : LineView n s w) (hook : (w.port n).offHook = true)
    (other : st ≠ s.own) :
    OfferAnswered n st po ref s w (finish (acceptOffer n st po ref w)) ∧
      RequestHanded .accept st ⟨portNo n, (s.portCfg n).cls.toNat, po, ref, s.ports.tag⟩ s
        (finish (acceptOffer n st po ref w)) ∧
      (finish (acceptOffer n st po ref w)).ports.tag = nextTag s.ports.tag := by
  have same := port_answeredHere_same (st := st) (po := po) (ref := ref) view
  have kept (m : PortNo) (hm : m ≠ n) := answeredHere_kept (st := st) (po := po) (ref := ref) ok view hm
  have idle (m : PortNo) (hf : m ∈ s.fittedPorts) (hm : m ≠ n) := idle_answeredHere (st := st) (po := po) (ref := ref)
    view hf hm
  have bindings := bindings_answeredHere (st := st) (po := po) (ref := ref) view
  have tag : (answeredHere n st po ref w).ports.tag = s.ports.tag := tag_answeredHere.trans view.tag
  have only := answeredHere_only (n := n) (st := st) (po := po) (ref := ref) (w := w)
  have steady := steady_answeredHere (n := n) (st := st) (po := po) (ref := ref) (w := w)
  rw [acceptOffer_eq, view.own, if_neg other, view.portClass]
  generalize answeredHere n st po ref w = u at *
  have wire : (useTag u).wire = s.wire := only.wire.trans view.wire
  have sent : sendRequest .accept st ⟨portNo n, (s.portCfg n).cls.toNat, po, ref, 0⟩ u =
      offerControl st (.request .accept ⟨portNo n, (s.portCfg n).cls.toNat, po, ref, s.ports.tag⟩) (useTag u) := by
    rw [sendRequest, tag]
  rw [sent]
  generalize frame : (RequestMsg.mk (portNo n) (s.portCfg n).cls.toNat po ref s.ports.tag) = m
  have ports (p : PortNo) : (offerControl st (.request .accept m) (useTag u)).port p = u.port p := by
    rw [port_congr (offerControl_only _ _ _).ports, port_useTag]
  have tagged : Steady s (useTag u) := (view.steady.trans steady).trans (steady_useTag u)
  have settled : Steady s (offerControl st (.request .accept m) (useTag u)) :=
    tagged.trans (steady_offerControl st _ nofun nofun)
  have ends : finish (offerControl st (.request .accept m) (useTag u)) =
      idleWritten (offerControl st (.request .accept m) (useTag u)) := by
    refine settled.finish calm (staysUp_of_busy (n := n) ?_) (fun p => ?_)
      (request_notices (by rw [wire, calm.dropped]) rfl fun p q hq => ?_)
    · rw [ports, same]
      exact portIdle_of_callRef rfl
    · rw [ports]
      by_cases at_n : p = n
      · subst at_n
        rw [same]
        simp [Port.connect, Port.setTone, view.away]
      · exact (kept p at_n).1
    · rw [ports] at hq
      by_cases at_n : p = n
      · subst at_n
        rw [same] at hq
        cases hq
      · obtain unmoved | ⟨free, -⟩ := (kept p at_n).2
        · rw [unmoved] at hq
          obtain e | e | e := portOk_kind (portsOk_port ok p) hq <;> simp [e]
        · rw [free] at hq
          cases hq
  have sentOnly := offerControl_only st (.request .accept m) (useTag u)
  rw [ends]
  refine ⟨⟨⟨w.port n, ?_⟩, fun p hf hp pending => ?_, ?_, hookKept_of rfl ?_ ?_⟩, ?_, ?_⟩
  · rw [port_idleWritten, ports, same]
  · rw [port_idleWritten, ports, idle p hf hp pending]
    exact ⟨rfl, rfl, rfl⟩
  · rw [(idleWritten_only _).call, sentOnly.call]
    exact bindings
  · rw [ports, same]
    exact ⟨rfl, rfl⟩
  · rw [sentOnly.power]
    exact only.power
  · rw [RequestHanded, FrameHanded, idleWritten_control]
    exact frameHanded_offerControl (t := useTag u) nofun nofun (congrArg Wire.control wire)
      tagged.halted tagged.only.now
  · rw [(idleWritten_only _).ports, sentOnly.ports]
    exact congrArg nextTag tag

/-- The other port of an intercom call of the station's own two ports, once the offer is answered (R99, R102). -/
def Port.answeredAcross (own n ref : Nat) (now : Tick) (p : Port) : Port :=
  Port.connect now (.intercom own n ref own) false p

/-- A port of the station that is connected, or not, as its own offer is answered. -/
theorem port_answeredBoth {u : State} (own : w.own = s.own) (own' : u.own = s.own) (now : u.now = s.now) (m : PortNo) :
    (answeredBoth n po ref w u).port m =
      if po = portNo m ∧ holdsBinding s.own ref (u.port m) = true then
        Port.answeredAcross s.own (portNo n) ref s.now (u.port m) else u.port m := by
  have apart : decide (s.own ≠ u.own) = false := by rw [own']; simp
  unfold answeredBoth
  rw [own]
  cases port : portOf po with
  | none =>
    rw [if_neg]
    · rfl
    · rintro ⟨rfl, -⟩
      rw [portOf_portNo] at port
      cases port
  | some p =>
    have named := portNo_of_portOf port
    show (if holdsBinding s.own ref (u.port p) then connectPort p (.intercom s.own (portNo n) ref s.own) u
      else u).port m = _
    by_cases same : m = p
    · subst same
      by_cases holds : holdsBinding s.own ref (u.port m) = true
      · rw [if_pos holds, if_pos ⟨named, holds⟩, port_connectPort_intercom, apart, now]
        rfl
      · rw [if_neg holds, if_neg fun h => holds h.2]
    · have no : ¬(po = portNo m ∧ holdsBinding s.own ref (u.port m) = true) := fun h => by
        have back := portOf_portNo m
        rw [← h.1, port] at back
        cases back
        exact same rfl
      rw [if_neg no]
      split
      · exact port_connectPort_other p u _ same
      · rfl

theorem answeredBoth_only (u : State) : Only [.ports] u (answeredBoth n po ref w u) := by
  unfold answeredBoth
  cases portOf po with
  | none => exact .refl _ u
  | some m =>
    show Only [.ports] u (if _ then _ else _)
    split
    · exact connectPort_only _ _ u
    · exact .refl _ u

theorem steady_answeredBoth (u : State) : Steady u (answeredBoth n po ref w u) := by
  unfold answeredBoth
  cases portOf po with
  | none => exact .refl u
  | some m =>
    show Steady u (if _ then _ else _)
    split
    · exact steady_connectPort _ _ u
    · exact .refl u

theorem tag_answeredBoth (u : State) : (answeredBoth n po ref w u).ports.tag = u.ports.tag := by
  unfold answeredBoth
  cases portOf po with
  | none => rfl
  | some m =>
    show (if _ then _ else _ : State).ports.tag = _
    split
    · cases m <;> rfl
    · rfl

theorem holdsBinding_busy {st ref : Nat} {p : Port} (holds : holdsBinding st ref p = true) :
    p.state ≠ .parked ∧ p.state ≠ .idle := by
  constructor <;> intro state <;> simp [holdsBinding, state] at holds

/-- An offer of the station's own other port answered inside it (R99, R102, R129, log 46). -/
theorem offer_answered_inside (calm : Calm s) (ok : PortsOk s) (view : LineView n s w)
    (hook : (w.port n).offHook = true) :
    OfferAnswered n s.own po ref s w (finish (acceptOffer n s.own po ref w)) ∧
      NothingSent s (finish (acceptOffer n s.own po ref w)) ∧
      ∀ m target, po = portNo m → m ≠ n → (s.port m).state = .offering →
        (s.port m).pending = some (.offered s.own target (some ref)) →
        ∃ p, (finish (acceptOffer n s.own po ref w)).port m = Port.answeredAcross s.own (portNo n) ref s.now p := by
  have same := port_answeredHere_same (st := s.own) (po := po) (ref := ref) view
  have kept (m : PortNo) (hm : m ≠ n) := answeredHere_kept (st := s.own) (po := po) (ref := ref) ok view hm
  have idle (m : PortNo) (hf : m ∈ s.fittedPorts) (hm : m ≠ n) := idle_answeredHere (st := s.own) (po := po)
    (ref := ref)
    view hf hm
  have other (m : PortNo) (hm : m ≠ n) := port_answeredHere_other (st := s.own) (po := po) (ref := ref) view hm
  have bindings := bindings_answeredHere (st := s.own) (po := po) (ref := ref) view
  have tag : (answeredHere n s.own po ref w).ports.tag = s.ports.tag := tag_answeredHere.trans view.tag
  have only := answeredHere_only (n := n) (st := s.own) (po := po) (ref := ref) (w := w)
  have steady := steady_answeredHere (n := n) (st := s.own) (po := po) (ref := ref) (w := w)
  rw [acceptOffer_eq, view.own, if_pos rfl]
  have apart (m : PortNo) (offering : (s.port m).state = .offering) : m ∉ ringingToo n s.own po ref w := fun here => by
    obtain ⟨-, away, pending⟩ := mem_ringingToo.mp here
    rw [view.other m away] at pending
    rw [portOk_ringing (portsOk_port ok m) pending] at offering
    cases offering
  generalize answeredHere n s.own po ref w = u at *
  have own : u.own = s.own := by rw [State.own, only.straps]; exact view.own
  have now : u.now = s.now := only.now.trans view.steady.only.now
  have port := port_answeredBoth (n := n) (po := po) (ref := ref) view.own own now
  have settled : Steady s (answeredBoth n po ref w u) := (view.steady.trans steady).trans (steady_answeredBoth u)
  have across := answeredBoth_only (n := n) (po := po) (ref := ref) (w := w) u
  have wire : (answeredBoth n po ref w u).wire = s.wire := across.wire.trans (only.wire.trans view.wire)
  have answering : ∃ p : Port, (answeredBoth n po ref w u).port n =
      Port.connect s.now (.intercom s.own po ref s.own) (decide (s.own ≠ s.own)) p ∧ p.offHook = (w.port n).offHook ∧
        p.pulses = (w.port n).pulses := by
    rw [port, same]
    split
    · next own_offer =>
      refine ⟨_, ?_, rfl, rfl⟩
      rw [own_offer.1, show decide (s.own ≠ s.own) = false by simp]
      rfl
    · exact ⟨_, rfl, rfl, rfl⟩
  obtain ⟨p, connected, hooked⟩ := answering
  have ends : finish (answeredBoth n po ref w u) = idleWritten (answeredBoth n po ref w u) := by
    refine settled.finish calm (staysUp_of_busy (n := n) ?_) (fun m => ?_) (no_notices (by rw [wire, calm.dropped]))
    · rw [connected]
      exact portIdle_of_callRef rfl
    · by_cases at_n : m = n
      · subst at_n
        rw [connected]
        simp [Port.connect, Port.setTone, view.away]
      · rw [port]
        obtain ⟨parked, unmoved⟩ := kept m at_n
        split
        · next joins =>
          obtain ⟨busy, -⟩ := holdsBinding_busy joins.2
          rw [← parked]
          simp [Port.answeredAcross, Port.connect, Port.setTone, busy]
        · exact parked
  rw [ends]
  refine ⟨⟨⟨p, connected⟩, fun m hf hm pending => ?_, ?_, hookKept_of rfl ?_ ?_⟩, ⟨?_, ?_⟩,
    fun m target named hm offering pending => ?_⟩
  · rw [port_idleWritten, port, idle m hf hm pending, if_neg fun joins => (holdsBinding_busy joins.2).2 rfl]
    exact ⟨rfl, rfl, rfl⟩
  · rw [(idleWritten_only _).call, across.call]
    exact bindings
  · rw [connected]
    exact hooked
  · rw [across.power]
    exact only.power
  · rw [idleWritten_control, wire]
  · rw [(idleWritten_only _).ports, tag_answeredBoth, tag]
  · have holds : holdsBinding s.own ref (u.port m) = true := by
      rw [other m hm, if_neg (apart m offering)]
      simp [holdsBinding, offering, pending]
    refine ⟨u.port m, ?_⟩
    rw [port_idleWritten, port, if_pos ⟨named, holds⟩]

end

end

end Sys2Proof.Machine
end

section
/-! PROOFS. Off-hook, assembled (R90, R93, R97, R99, R109, R129, R171). -/

namespace Sys2Proof.Machine

open Sys2Proof

section
variable {n : PortNo} {s w : State} {k : RequestKind}

/-! ## A port off its hook asks for the line (R97) -/

/-- What becomes of the SEIZE or ANSWER of a port off its hook. -/
structure LineAsked (k : RequestKind) (n : PortNo) (s w t : State) : Prop where
  kept : HookKept n w t
  held : s.hold.state = .listen → t.port n = Port.await s.now .waiting (.exchange, ⟨k, 0, 0, 0, s.now, true⟩) (w.port n)
  made : ∀ h, s.hold.state ≠ .listen → s.hold.known = some h → h ≠ s.own → s.halted = false → RequestMade k n h 0 s t
  unknown : s.hold.state ≠ .listen → s.hold.known = none →
    t.port n = Port.clear s.now (some (.refused .noHolder)) (some (s.own, 0)) (w.port n) ∧ NothingSent s t
  inside : s.holding = true → s.hold.known = some s.own → JudgedInside k n s t

theorem not_listen_of_holding (holding : s.holding = true) : s.hold.state ≠ .listen := by
  rw [holding_iff.mp holding]
  nofun

theorem lineAsked (hk : k = .seize ∨ k = .answer) (calm : Calm s) (ok : PortsOk s) (view : LineView n s w)
    (hook : (w.port n).offHook = true) (fitted : s.fitted n = true) :
    LineAsked k n s w (finish (requestLine n k w)) := by
  have notOffer : k ≠ .offer := by
    obtain rfl | rfl := hk <;> nofun
  by_cases listen : s.hold.state = .listen
  · obtain ⟨port, kept⟩ := line_held (k := k) calm view listen
    exact ⟨kept, fun _ => port, fun _ away => absurd listen away, fun away => absurd listen away,
      fun holding => absurd listen (not_listen_of_holding holding)⟩
  · rw [requestLine_made view listen]
    cases known : s.hold.known with
    | none =>
      obtain ⟨port, sent, kept⟩ := line_unknown (k := k) calm view known (staysUp_of_busy (n := n) (by
        rw [refusePort, port_clearPort_same]
        exact portIdle_of_offHook hook))
      exact ⟨kept, fun is => absurd is listen, fun _ _ no => (by rw [known] at no; cases no), fun _ _ => ⟨port, sent⟩,
        fun _ no => (by rw [known] at no; cases no)⟩
    | some h =>
      by_cases own : h = s.own
      · subst own
        cases holding : s.holding with
        | true =>
          obtain ⟨judged, kept⟩ := judgedInside hk calm view fitted holding known
          exact ⟨kept, fun is => absurd is listen, fun _ _ no other =>
            (by rw [known] at no; cases no; exact absurd rfl other),
            fun _ no => (by rw [known] at no; cases no), fun _ _ => judged⟩
        | false =>
          have kept := (line_unheld (k := k) view known holding).kept view calm hook
          exact ⟨kept, fun is => absurd is listen, fun _ _ no other =>
            (by rw [known] at no; cases no; exact absurd rfl other),
            fun _ no => (by rw [known] at no; cases no), fun no => absurd (holding.symm.trans no) (by decide)⟩
      · rw [makeSeize_other view notOffer known own]
        obtain ⟨y, ends, off, power⟩ := asked_hook (k := k) (pend := .exchange) (dst := h)
          (target := 0) calm ok view hook
          fitted
        refine ⟨hookKept_of ends off power, fun is => absurd is listen, fun g _ hg _ awake => ?_,
          fun _ no => (by rw [known] at no; cases no), fun _ no => ?_⟩
        · rw [known] at hg
          cases hg
          exact requestMade calm ok view hook fitted awake (by rw [if_neg notOffer])
        · rw [known] at no
          cases no
          exact absurd rfl own

/-! ## The port raised (R90, R171) -/

/-- The station awake, the port off its hook. -/
def raised (n : PortNo) (s : State) : State :=
  (wake s).modPort n fun p => { p with offHook := true, breakStart := none, ringOn := false }

theorem port_raised (n : PortNo) (s : State) :
    (raised n s).port n = { s.port n with offHook := true, breakStart := none, ringOn := false } := by
  rw [raised, State.port_modPort_same, port_congr (wake_only s).ports]

theorem lineView_raised (ringing : (s.port n).state = .ringing) : LineView n s (raised n (hookTold true n s)) := by
  have awake := wake_only (hookTold true n s)
  refine ⟨(steady_hookTold true n s).trans ((steady_wake _).trans (steady_modPort n _ _ (.inl rfl))), awake.wire,
    awake.call,
    ?_, ?_, fun m hm => ?_, by rw [ringing]; nofun⟩
  · rw [← show (hookTold true n s).ports.tag = s.ports.tag from rfl, ← awake.ports]
    cases n <;> rfl
  · rw [← show (hookTold true n s).ports.ringing = s.ports.ringing from rfl, ← awake.ports]
    cases n <;> rfl
  · exact (State.port_modPort_other _ _ hm).trans (port_congr awake.ports m)

theorem hookRise_off (fitted : s.fitted n = true) (on : (s.port n).offHook = false) :
    hookRise n (hookTold true n s) = offHook n (hookTold true n s) := by
  rw [hookRise, fitted_hookTold, port_hookTold, fitted, if_pos rfl, on]
  exact if_neg (by decide)

theorem offHook_offer {st po ref : Nat} (ringing : (s.port n).state = .ringing)
    (pending : (s.port n).pending = some (.offerFrom st po ref)) :
    offHook n s = acceptOffer n st po ref (raised n s) := by
  simp only [offHook, ringing, pending, raised]

theorem offHook_line (ringing : (s.port n).state = .ringing)
    (pending : ∀ st po ref, (s.port n).pending ≠ some (.offerFrom st po ref)) :
    offHook n s = requestLine n .answer (raised n s) := by
  cases held : (s.port n).pending with
  | none => simp only [offHook, ringing, held, raised]
  | some p =>
    cases p with
    | offerFrom st po ref => exact absurd held (pending st po ref)
    | _ => simp only [offHook, ringing, held, raised]

/-- Off its hook, and awake where it slept (R90, R171). -/
theorem raised_kept {t : State} (kept : HookKept n (raised n (hookTold true n s)) t) : (t.port n).offHook = true ∧
    (s.power.state = .watch → t.power.state = .battery ∧ t.power.frontEnd = .settling s.now) := by
  obtain ⟨hook, -, state, front⟩ := kept
  rw [port_raised] at hook
  refine ⟨hook, fun asleep => ?_⟩
  have woken : (raised n (hookTold true n s)).power =
      { s.power with state := .battery, frontEnd := .settling s.now } := by
    show (wake (hookTold true n s)).power = _
    rw [wake, if_pos (show (hookTold true n s).power.state = .watch from asleep)]
    rfl
  rw [state, front, woken]
  exact ⟨rfl, rfl⟩

/-- The off-hook of an idle port (R93, R109). -/
theorem offHook_idle_answers (calm : Calm s) (idle : (s.port n).state = .idle) :
    HookKept n (raised n (hookTold true n s)) (finish (offHook n (hookTold true n s))) ∧
      (finish (offHook n (hookTold true n s))).port n = Port.lifted s.halted s.dialTone s.now (s.port n) := by
  have lifts := offHook_idle (y := hookTold true n s) idle
  have port : (offHook n (hookTold true n s)).port n = Port.lifted s.halted s.dialTone s.now (s.port n) := by
    rw [lifts, State.port_modPort_same, port_congr (wake_only _).ports]
    rfl
  have awake := wake_only (hookTold true n s)
  have hook : (Port.lifted s.halted s.dialTone s.now (s.port n)).offHook = true := by cases s.halted <;> rfl
  have tone : (Port.lifted s.halted s.dialTone s.now (s.port n)).tone = s.dialTone ∨
      ((Port.lifted s.halted s.dialTone s.now (s.port n)).tone ≠ .dial ∧
        (Port.lifted s.halted s.dialTone s.now (s.port n)).tone ≠ .stutter) := by
    cases s.halted
    · exact .inl rfl
    · exact .inr ⟨nofun, nofun⟩
  have away : (Port.lifted s.halted s.dialTone s.now (s.port n)).state ≠ .parked := by cases s.halted <;> nofun
  have steady : Steady s (offHook n (hookTold true n s)) := by
    rw [lifts]
    refine (steady_hookTold true n s).trans (.trans (steady_wake _) (steady_modPort n _ _ (.inr ?_)))
    rw [port_congr awake.ports, dialTone_eq_of_fault awake.fault]
    exact tone
  have other (m : PortNo) (hm : m ≠ n) : (offHook n (hookTold true n s)).port m = s.port m := by
    rw [lifts, State.port_modPort_other _ _ hm, port_congr awake.ports]
    rfl
  have ends : finish (offHook n (hookTold true n s)) = idleWritten (offHook n (hookTold true n s)) := by
    refine steady.finish calm (staysUp_of_busy (n := n) ?_) (fun m => ?_) (no_notices ?_)
    · rw [port]
      exact portIdle_of_offHook hook
    · by_cases same : m = n
      · subst same
        rw [port]
        simp [away, idle]
      · rw [other m same]
    · rw [lifts]
      exact (congrArg Wire.dropped awake.wire).trans calm.dropped
  refine ⟨hookKept_of ends ?_ ?_, by rw [ends, port_idleWritten, port]⟩
  · rw [port, port_raised]
    exact ⟨hook, by cases s.halted <;> rfl⟩
  · rw [lifts]
    rfl

end

/-- Settles O44. -/
theorem offHookTaken : Obligations.OffHookTaken := by
  intro s n calm ok fitted on
  have run := exec_hookRise (n := n) calm
  rw [hookRise_off fitted on] at run
  refine answers_of run ?_
  have hook := portOk_offHook (portsOk_port ok n)
  cases state : (s.port n).state with
  | idle =>
    obtain ⟨kept, port⟩ := offHook_idle_answers calm state
    obtain ⟨off, woken⟩ := raised_kept kept
    refine ⟨off, woken, fun _ awake => ?_, fun _ halted => ?_, nofun, nofun, nofun, nofun, nofun⟩
    · rw [port, awake]
      exact ⟨rfl, rfl, rfl⟩
    · rw [port, halted]
      exact ⟨rfl, rfl, rfl⟩
  | ringing =>
    have view := lineView_raised state
    have hook' : ((raised n (hookTold true n s)).port n).offHook = true := by rw [port_raised]
    by_cases offer : ∃ st po ref, (s.port n).pending = some (.offerFrom st po ref)
    · obtain ⟨st, po, ref, pending⟩ := offer
      rw [offHook_offer (s := hookTold true n s) state pending]
      by_cases own : st = s.own
      · subst own
        obtain ⟨⟨⟨p, port⟩, others, bindings, kept⟩, sent, across⟩ :=
          offer_answered_inside (po := po) (ref := ref) calm ok view hook'
        obtain ⟨off, woken⟩ := raised_kept kept
        refine ⟨off, woken, nofun, nofun, fun _ no => ?_, fun _ _ no => ?_, fun _ no => ?_, fun _ no => ?_,
          fun st po ref _ here => ?_⟩
        · rw [pending] at no; cases no
        · rw [pending] at no; cases no
        · rw [pending] at no; cases no
        · rw [pending] at no; cases no
        rw [pending] at here
        cases here
        rw [port, if_pos rfl]
        refine ⟨rfl, rfl, rfl, rfl, rfl, rfl, rfl, others, bindings, sent, ?_,
          fun m target named other is offered => ?_⟩
        · simp [Port.connect, Port.setTone]
        · obtain ⟨p, port⟩ := across m target named other is offered
          rw [port]
          exact ⟨rfl, rfl, rfl, rfl, rfl, rfl, rfl⟩
      · obtain ⟨⟨⟨p, port⟩, others, bindings, kept⟩, sent, tag⟩ :=
          offer_accepted (po := po) (ref := ref) calm ok view hook' own
        obtain ⟨off, woken⟩ := raised_kept kept
        refine ⟨off, woken, nofun, nofun, fun _ no => ?_, fun _ _ no => ?_, fun _ no => ?_, fun _ no => ?_,
          fun st po ref _ here => ?_⟩
        · rw [pending] at no; cases no
        · rw [pending] at no; cases no
        · rw [pending] at no; cases no
        · rw [pending] at no; cases no
        rw [pending] at here
        cases here
        rw [port, if_neg own]
        refine ⟨rfl, rfl, rfl, rfl, rfl, rfl, rfl, others, bindings, sent, tag, ?_⟩
        simp [Port.connect, Port.setTone, own]
    · have unoffered : ∀ st po ref, (s.port n).pending ≠ some (.offerFrom st po ref) :=
        fun st po ref h => offer ⟨st, po, ref, h⟩
      rw [offHook_line (s := hookTold true n s) state unoffered]
      have asked := lineAsked (k := .answer) (.inr rfl) calm ok view hook' fitted
      obtain ⟨off, woken⟩ := raised_kept asked.kept
      refine ⟨off, woken, nofun, nofun, fun _ _ listen => ?_, fun h _ _ away known other awake => ?_,
        fun _ _ away known => ?_, fun _ _ holding known => ?_, fun st po ref _ here => absurd here
          (unoffered st po ref)⟩
      · rw [asked.held listen, port_raised]
        exact ⟨rfl, rfl, rfl⟩
      · exact asked.made h away known other awake
      · obtain ⟨port, sent⟩ := asked.unknown away known
        rw [port]
        exact ⟨rfl, rfl, rfl, sent⟩
      · exact asked.inside holding known
  | _ =>
    rw [state, on] at hook
    cases hook

end Sys2Proof.Machine
end

section
/-! PROOFS. The first digit (R91 to R94, R96, R97), and digits that choose no call (R91, R93 to R95). -/

namespace Sys2Proof.Machine

open Sys2Proof

section
variable {n : PortNo} {s w z v : State} {k : RequestKind}

/-! ## A digit taken (R91, R92) -/

/-- `z` is the settled station `s` with the pulse count of a port, not parked, perhaps closed. -/
structure DigitView (n : PortNo) (s z : State) : Prop extends LineView n s z where
  calm : Calm z
  port : ∃ c e, z.port n = { s.port n with pulses := c, pulseEnd := e }

theorem digitView_quiet (calm : Calm s) (away : (s.port n).state ≠ .parked) : DigitView n s s.quiet :=
  ⟨⟨steady_quiet s, rfl, rfl, rfl, rfl, fun _ _ => rfl, away⟩, calm, _, _, rfl⟩

theorem digitView_counted (calm : Calm s) (away : (s.port n).state ≠ .parked) :
    DigitView n s (clearCount n s.quiet) := by
  refine ⟨⟨(steady_quiet s).trans (steady_modPort n _ _ (.inl rfl)), rfl, rfl, ?_, ?_,
    fun m hm => State.port_modPort_other _ _ hm, away⟩, calm_clearCount (z := s.quiet) calm n, 0, none,
    port_clearCount n s.quiet⟩
  · cases n <;> rfl
  · cases n <;> rfl

theorem DigitView.state (view : DigitView n s z) : (z.port n).state = (s.port n).state := by
  obtain ⟨c, e, port⟩ := view.port
  rw [port]

theorem DigitView.digit (view : DigitView n s z) : (z.port n).digit = (s.port n).digit := by
  obtain ⟨c, e, port⟩ := view.port
  rw [port]

theorem DigitView.offHook (view : DigitView n s z) : (z.port n).offHook = (s.port n).offHook := by
  obtain ⟨c, e, port⟩ := view.port
  rw [port]

theorem takeDigit_first {d : Dialled} (state : (z.port n).state = .dialing) (digit : (z.port n).digit = none) :
    takeDigit n d z = firstDigit n d z := by
  simp only [takeDigit, state, digit]

theorem takeDigit_port {d : Dialled} {st : Nat} (state : (z.port n).state = .dialing)
    (digit : (z.port n).digit = some st) : takeDigit n d z = portDigit n st d z := by
  simp only [takeDigit, state, digit]

theorem countDigit_of (v : Fin 10) : countDigit (if v.val = 0 then 10 else v.val) = .key (.digit v) true := by
  revert v
  decide

theorem dueCount_of {e : Tick} (some_open : 0 < (s.port n).pulses) (whole : (s.port n).breakStart = none)
    (ended : (s.port n).pulseEnd = some e) (late : 10000 ≤ elapsed s.now e) : dueCount n s.quiet = true := by
  show (decide (0 < (s.port n).pulses) && (s.port n).breakStart.isNone && timerOut s.now (s.port n).pulseEnd _) = true
  rw [decide_eq_true some_open, whole, ended]
  exact decide_eq_true late

theorem exec_pulseCountClose {e : Tick} (calm : Calm s) (some_open : 0 < (s.port n).pulses)
    (whole : (s.port n).breakStart = none) (ended : (s.port n).pulseEnd = some e) (late : 10000 ≤ elapsed s.now e) :
    exec (.pulseCountClose n) s =
      .next (finish (takeDigit n (countDigit (s.port n).pulses) (clearCount n s.quiet))) := by
  have step : pulseCountClose n s.quiet = takeDigit n (countDigit (s.port n).pulses) (clearCount n s.quiet) :=
    if_pos (dueCount_of some_open whole ended late)
  refine congrArg Host.Outcome.next ((running_active calm.active).trans ?_)
  rw [step]

theorem exec_toneDigit (key : Key) (calm : Calm s) (fitted : s.fitted n = true) :
    exec (.toneDigitEvent n key) s = .next (finish (takeDigit n (.key key false) s.quiet)) := by
  have step : toneDigit n key s.quiet = takeDigit n (.key key false) s.quiet := if_pos fitted
  refine congrArg Host.Outcome.next ((running_active calm.active).trans ?_)
  rw [step]

/-! ## Digits that clear the port (R91, R93 to R95) -/

theorem failDial_answers (view : DigitView n s z) : (finish (failDial n z)).port n = Port.clear s.now none none
    (z.port n) := by
  rw [failDial, port_finish_clearPort _ _ _ view.calm, view.steady.only.now]

/-! ## The first digit (R94) -/

/-- What becomes of the SEIZE of a first digit 9. -/
structure LineDialled (n : PortNo) (s z t : State) : Prop where
  pulses : (t.port n).pulses = (z.port n).pulses
  held : s.hold.state = .listen → (t.port n).state = .waiting ∧ (t.port n).outReq = some ⟨.seize, 0, 0, 0, s.now, true⟩
  unknown : s.hold.state ≠ .listen → s.hold.known = none → (t.port n).state = .cleared ∧
    (t.port n).lastCause = some (.refused .noHolder)
  made : ∀ h, s.hold.state ≠ .listen → s.hold.known = some h → h ≠ s.own → s.halted = false → PortsOk s →
    RequestMade .seize n h 0 s t
  inside : s.holding = true → s.hold.known = some s.own → JudgedInside .seize n s t

theorem finish_fields (v : State) (n : PortNo) : ((finish v).port n).pulses = ((settleFirst v).port n).pulses ∧
    ((finish v).port n).digit = ((settleFirst v).port n).digit := by
  rw [finish_eq]
  obtain ⟨t, k, a, port⟩ := settleRest_port (settleFirst v) n
  rw [port]
  exact ⟨rfl, rfl⟩

/-- A request out leaves the pulse count and the digit of its port, whether it is dropped or not. -/
theorem asked_fields {pend : Pending} {dst target : Nat} (calm : Calm s) (view : LineView n s w) :
    ((finish (asked n k pend dst target s w)).port n).pulses = (w.port n).pulses ∧
      ((finish (asked n k pend dst target s w)).port n).digit = none := by
  have steady : Steady s (asked n k pend dst target s w) := view.steady.trans steady_asked
  have drops := dropped_asked (n := n) (k := k) (pend := pend) (dst := dst) (target := target) calm view
  have port : (asked n k pend dst target s w).port n =
      Port.await w.now (waitState k) (pend, ⟨k, w.ports.tag, dst, target, w.now, false⟩) (w.port n) := by
    rw [port_asked, port_asking]
  obtain ⟨pulses, digit⟩ := finish_fields (asked n k pend dst target s w) n
  rw [pulses, digit]
  by_cases lost : .request k (askFrame n target s) ∈ controlDrops s (.request k (askFrame n target s))
  · rw [settleFirst_dropped (steady.eligible calm.first.eligible)
      (by rw [steady.holding, steady.record, steady.only.hold]; exact calm.first.degraded)
      (by rw [steady.computeHolder, steady.only.hold]; exact calm.first.holder)
      (by rw [drops, controlDrops_alone lost]), port_dropTold, port]
    split
    · unfold Port.unanswered
      split <;> exact ⟨rfl, rfl⟩
    · exact ⟨rfl, rfl⟩
  · have first := steady.first calm.first (inert_notices (u := asked n k pend dst target s w) fun d hd => by
      rw [drops] at hd
      obtain rfl | rfl := mem_controlDrops hd
      · exact absurd hd lost
      · rfl)
    rw [port_congr (settleFirst_ports first), port]
    exact ⟨rfl, rfl⟩

theorem lineDialled (view : DigitView n s z) (calm : Calm s) (dialing : (s.port n).state = .dialing)
    (fitted : s.fitted n = true) : LineDialled n s z (finish (requestLine n .seize z)) := by
  have line := view.toLineView
  have seize : RequestKind.seize = .seize ∨ RequestKind.seize = .answer := .inl rfl
  by_cases listen : s.hold.state = .listen
  · obtain ⟨port, kept⟩ := line_held (k := .seize) calm line listen
    exact ⟨kept.pulses, fun _ => by rw [port]; exact ⟨rfl, rfl⟩, fun away => absurd listen away,
      fun _ away => absurd listen away, fun holding => absurd listen (not_listen_of_holding holding)⟩
  · rw [requestLine_made line listen]
    cases known : s.hold.known with
    | none =>
      have cleared := port_finish_clearPort n (some (.refused .noHolder)) (some (s.own, 0)) view.calm
      rw [makeSeize_unknown line known, refusePort]
      exact ⟨by rw [cleared]; rfl, fun is => absurd is listen, fun _ _ => by rw [cleared]; exact ⟨rfl, rfl⟩,
        fun _ _ no => (by rw [known] at no; cases no), fun _ no => (by rw [known] at no; cases no)⟩
    | some h =>
      by_cases own : h = s.own
      · subst own
        have unmade : ∀ h, s.hold.state ≠ .listen → s.hold.known = some h → h ≠ s.own → s.halted = false → PortsOk s →
            RequestMade .seize n h 0 s (finish (makeSeize n .seize z)) := fun _ _ no other => by
          rw [known] at no
          cases no
          exact absurd rfl other
        cases holding : s.holding with
        | true =>
          obtain ⟨judged, kept⟩ := judgedInside seize calm line fitted holding known
          exact ⟨kept.pulses, fun is => absurd is listen, fun _ no => (by rw [known] at no; cases no), unmade,
            fun _ _ => judged⟩
        | false =>
          have put := line_unheld (k := .seize) line known holding
          have first := put.steady.first view.calm.first
            (no_notices (by rw [put.wire, line.wire, calm.dropped]))
          obtain ⟨pulses, -⟩ := finish_fields (makeSeize n .seize z) n
          rw [port_congr (settleFirst_ports first)] at pulses
          exact ⟨pulses.trans put.hook.2, fun is => absurd is listen, fun _ no => (by rw [known] at no; cases no),
            unmade,
            fun no => absurd (holding.symm.trans no) (by decide)⟩
      · rw [makeSeize_other (k := .seize) line nofun known own]
        obtain ⟨pulses, -⟩ := asked_fields (k := .seize) (pend := .exchange) (dst := h) (target := 0) calm line
        refine ⟨pulses, fun is => absurd is listen, fun _ no => (by rw [known] at no; cases no),
          fun g _ hg _ awake ok => ?_, fun _ no => ?_⟩
        · rw [known] at hg
          cases hg
          have hook : (z.port n).offHook = true := by
            rw [view.offHook, portOk_offHook (portsOk_port ok n), dialing]
            rfl
          exact requestMade calm ok line hook fitted awake rfl
        · rw [known] at no
          cases no
          exact absurd rfl own

end

end Sys2Proof.Machine
end

section
/-! PROOFS. Digits that choose no call (R91, R93 to R95) and the port digit's offer (R95 to R97, R128). -/

namespace Sys2Proof.Machine

open Sys2Proof

section
variable {n : PortNo} {s t w z v : State}

theorem firstDigit_answers (view : DigitView n s z) (calm : Calm s) (fitted : s.fitted n = true)
    (dialing : (s.port n).state = .dialing) (digit : (s.port n).digit = none) (d : Fin 10) (b : Bool) :
    let t := finish (takeDigit n (.key (.digit d) b) z)
    (d.val = 0 → (t.port n).state = .cleared ∧ (t.port n).tone = .busy ∧ (t.port n).lastCause = none) ∧
      (1 ≤ d.val → d.val ≤ 8 → (t.port n).state = .dialing ∧ (t.port n).digit = some d.val ∧
        (t.port n).digitAt = some s.now ∧ (t.port n).tone = .silent ∧ (t.port n).firstDigit = none) ∧
      (d.val = 9 → LineDialled n s z t) ∧ (t.port n).pulses = (z.port n).pulses := by
  intro t
  have taken : t = finish (firstDigit n (.key (.digit d) b) z) := by
    show finish _ = _
    rw [takeDigit_first (view.state.trans dialing) (view.digit.trans digit)]
  by_cases nine : d.val = 9
  · rw [taken, firstDigit, if_pos nine]
    have line := lineDialled view calm dialing fitted
    exact ⟨fun no => by omega, fun _ no => by omega, fun _ => line, line.pulses⟩
  · by_cases zero : d.val = 0
    · rw [taken, firstDigit, if_neg nine, if_pos zero, failDial_answers view]
      exact ⟨fun _ => ⟨rfl, rfl, rfl⟩, fun no => by omega, fun no => absurd no nine, rfl⟩
    · have port : t.port n = Port.setTone .silent s.now
          { z.port n with digit := some d.val, digitAt := some s.now, firstDigit := none } := by
        rw [taken, firstDigit, if_neg nine, if_neg zero, port_finish (firstSettled_modPort view.calm)]
        · rw [State.port_modPort_same, view.steady.only.now]
        · rw [State.port_modPort_same]; exact nofun
        · rw [State.port_modPort_same]; exact nofun
      rw [port]
      exact ⟨fun no => absurd no zero, fun _ _ => ⟨view.state.trans dialing, rfl, rfl, rfl, rfl⟩,
        fun no => absurd no nine, rfl⟩

/-- Every digit but a first 9 and a good first or port digit fails the dialling (R91, R94, R95). -/
theorem takeDigit_fails {d : Dialled} (dialing : (z.port n).state = .dialing)
    (bad : ∀ x b, d = .key (.digit x) b → (z.port n).digit.isSome = true ∧ x.val ≠ 1 ∧ x.val ≠ 2) :
    takeDigit n d z = failDial n z := by
  cases digit : (z.port n).digit with
  | none =>
    rw [takeDigit_first dialing digit]
    cases d with
    | key k b =>
      cases k with
      | digit x =>
        obtain ⟨known, -⟩ := bad x b rfl
        rw [digit] at known
        cases known
      | star => rfl
      | hash => rfl
    | invalid => rfl
  | some st =>
    rw [takeDigit_port dialing digit]
    cases d with
    | key k b =>
      cases k with
      | digit x =>
        obtain ⟨-, one, two⟩ := bad x b rfl
        exact if_neg (not_or.mpr ⟨one, two⟩)
      | star => rfl
      | hash => rfl
    | invalid => rfl

theorem countDigit_bad {c : Nat} {x : Fin 10} {b : Bool} (many : 3 ≤ c) (same : countDigit c = .key (.digit x) b) :
    c < 11 ∧ x.val ≠ 1 ∧ x.val ≠ 2 := by
  unfold countDigit at same
  split at same
  · cases same
    exact ⟨by omega, by show c ≠ 1; omega, by show c ≠ 2; omega⟩
  · split at same
    · cases same
      exact ⟨by omega, by decide, by decide⟩
    · cases same

theorem failed_answers {c : Instr} {d : Dialled} (view : DigitView n s z) (dialing : (s.port n).state = .dialing)
    (run : exec c s = .next (finish (takeDigit n d z)))
    (bad : ∀ x b, d = .key (.digit x) b → (s.port n).digit.isSome = true ∧ x.val ≠ 1 ∧ x.val ≠ 2) :
    Answers c s fun t => (t.port n).state = .cleared ∧ (t.port n).tone = .busy ∧ (t.port n).lastCause = none ∧
      (t.port n).digit = none ∧ (t.port n).firstDigit = none := by
  refine answers_of run ?_
  rw [takeDigit_fails (view.state.trans dialing) (by rw [view.digit]; exact bad), failDial_answers view]
  exact ⟨rfl, rfl, rfl, rfl, rfl⟩

/-! ## The target is settled (R95) -/

theorem exec_portDigitTimeout {st : Nat} {x : Tick} (calm : Calm s) (dialing : (s.port n).state = .dialing)
    (digit : (s.port n).digit = some st) (none_open : (s.port n).pulses = 0) (at_ : (s.port n).digitAt = some x)
    (late : 120000 ≤ elapsed s.now x) :
    exec (.portDigitTimeout n) s = .next (finish (requestOffer n st 0 s.quiet)) := by
  have due : duePortDigit n s.quiet = true := by
    show (decide ((s.port n).state = .dialing) && decide ((s.port n).pulses = 0) &&
      timerOut s.now (s.port n).digitAt _) = true
    rw [decide_eq_true dialing, decide_eq_true none_open, at_]
    exact decide_eq_true late
  have step : portDigitTimeout n s.quiet = requestOffer n st 0 s.quiet := by
    rw [portDigitTimeout, if_pos due]
    show (match (s.port n).digit with
      | some st => requestOffer n st 0 s.quiet
      | none => s.quiet) = _
    rw [digit]
  refine congrArg Host.Outcome.next ((running_active calm.active).trans ?_)
  rw [step]

theorem target_settled {st target : Nat} {c : Instr} (calm : Calm s) (fitted : s.fitted n = true)
    (dialing : (s.port n).state = .dialing) (digit : (s.port n).digit = some st)
    (settled : TargetSettled c n target s) :
    ∃ z, DigitView n s z ∧ exec c s = .next (finish (requestOffer n st target z)) := by
  have away : (s.port n).state ≠ .parked := by rw [dialing]; exact nofun
  have taken : ∀ {z : State} {x : Fin 10} {b : Bool}, DigitView n s z → (x.val = 1 ∨ x.val = 2) →
      takeDigit n (.key (.digit x) b) z = requestOffer n st x.val z := fun view named => by
    rw [takeDigit_port (view.state.trans dialing) (view.digit.trans digit)]
    exact if_pos named
  rcases settled with ⟨named, x, rfl, rfl⟩ | ⟨named, rfl, rfl, whole, e, ended, late⟩ |
    ⟨rfl, rfl, none_open, x, at_, late⟩
  · have view := digitView_quiet (n := n) calm away
    exact ⟨_, view, by rw [exec_toneDigit _ calm fitted, taken view named]⟩
  · have view := digitView_counted (n := n) calm away
    refine ⟨_, view, ?_⟩
    rw [exec_pulseCountClose calm (by omega) whole ended late, countDigit, dif_pos (by omega)]
    exact congrArg Host.Outcome.next (congrArg finish (taken (x := ⟨(s.port n).pulses, by omega⟩) view named))
  · exact ⟨_, digitView_quiet calm away, exec_portDigitTimeout calm dialing digit none_open at_ late⟩

/-! ## The offer made (R95, R96, R97) -/

theorem settleRest_bindings (s : State) : (settleRest s).call.bindings = s.call.bindings ∧
    (settleRest s).call.lastRef = s.call.lastRef := by
  have last : (settleRest s).call = (settleLater (settleMiddle s)).call :=
    (clearNotices_only _).call.trans (settleTones_only _).call
  have lamp : ∀ t, (settleLater t).call =
      (settleLoss (startOutpulse (startTransfer (mailboxOffer (settleReports t))))).call := fun t =>
    (settleLamp_only _).call
  have pulse : ∀ t, (settleLoss (startOutpulse t)).call.bindings = t.call.bindings ∧
      (settleLoss (startOutpulse t)).call.lastRef = t.call.lastRef := fun t => by
    show (startOutpulse t).call.bindings = _ ∧ (startOutpulse t).call.lastRef = _
    unfold startOutpulse
    split
    · split
      · split <;> exact ⟨rfl, rfl⟩
      · exact ⟨rfl, rfl⟩
    · exact ⟨rfl, rfl⟩
  rw [last, lamp, (pulse _).1, (pulse _).2, (startTransfer_only _).call, (mailboxOffer_only _).call,
    (settleReports_only _).call, (settleMiddle_only s).call]
  exact ⟨rfl, rfl⟩

/-- The offer of a port to another port of its own station, as the model makes it where that port can ring. -/
def offeredInside (n : PortNo) (target : Nat) (z : State) : State :=
  (takeOffer z.own (portNo n) none [otherPort n] z).modPort n fun p =>
    ({ p.stripped with
      state := .offering
      pending := some (.offered z.own target (some (nextRef z.call.lastRef (z.call.bindings.map Binding.ref))))
      ringBack := some z.now }).setTone .ringBack z.now

theorem makeLocalOffer_eq (n : PortNo) (target : Nat) (z : State) : makeLocalOffer n target z =
    if target = portNo n then refusePort n .portBusy (z.own, target) z
    else if z.fitted (otherPort n) = false then refusePort n .noPort (z.own, target) z
    else if (z.port (otherPort n)).state = .idle ∧ faultLevel z.pins (otherPort n) = false ∧ z.halted = false then
      offeredInside n target z
    else refusePort n .portBusy (z.own, target) z := by
  unfold makeLocalOffer
  by_cases self : target = portNo n
  · simp only [self, if_true]
  · cases fitted : z.fitted (otherPort n) with
    | false => simp only [self, fitted, if_false, Bool.not_false, if_true]
    | true =>
      simp only [self, fitted, if_false, Bool.not_true, Bool.false_eq_true, Bool.true_eq_false]
      by_cases rings : (z.port (otherPort n)).state = .idle ∧ faultLevel z.pins (otherPort n) = false ∧ z.halted = false
      · rw [if_pos (canRing_iff.mpr ⟨fitted, rings⟩), if_pos rings]
        rfl
      · rw [if_neg fun can => rings (canRing_iff.mp can).2, if_neg rings]

theorem otherPort_ne (n : PortNo) : otherPort n ≠ n := by cases n <;> exact nofun

end

end Sys2Proof.Machine
end

section
/-! PROOFS. The offer of a settled target: held, refused at home, made to another station, or ringing the station's
other port (R95 to R98, R100). -/

namespace Sys2Proof.Machine

open Sys2Proof

section
variable {n : PortNo} {s t w z v : State} {st target : Nat}

theorem DigitView.own (view : DigitView n s z) : z.own = s.own := view.toLineView.own

/-- The port is refused without a REQUEST. -/
structure RefusedAtHome (n : PortNo) (cause : RefuseCause) (ref : Nat × Nat) (t : State) : Prop where
  digit : (t.port n).digit = none
  refused : (t.port n).state = .cleared ∧ (t.port n).tone = .busy ∧ (t.port n).lastCause = some (.refused cause) ∧
    (t.port n).lastRef = some ref

theorem refusedAtHome (c : RefuseCause) (ref : Nat × Nat) (view : DigitView n s z) :
    RefusedAtHome n c ref (finish (refusePort n c ref z)) := by
  have port := port_finish_clearPort n (some (.refused c)) (some ref) view.calm
  exact ⟨by rw [refusePort, port]; rfl, by rw [refusePort, port]; exact ⟨rfl, rfl, rfl, rfl⟩⟩

theorem offer_held (view : DigitView n s z) (calm : Calm s) (listen : s.hold.state = .listen) :
    let t := finish (requestOffer n st target z)
    (t.port n).digit = none ∧ (t.port n).state = .offering ∧ (t.port n).pending = some (.offered st target none) ∧
      (t.port n).outReq = some ⟨.offer, 0, st, target, s.now, true⟩ ∧ NothingSent s t := by
  intro t
  have ends : t = idleWritten (z.modPort n
      (Port.await z.now .offering (.offered st target none, ⟨.offer, 0, st, target, z.now, true⟩))) := by
    show finish _ = _
    rw [requestOffer, view.steady.only.hold, if_pos listen]
    exact await_ends view.toLineView calm nofun
  have port : t.port n =
      Port.await s.now .offering (.offered st target none, ⟨.offer, 0, st, target, s.now, true⟩) (z.port n) := by
    rw [ends, port_idleWritten, State.port_modPort_same, view.steady.only.now]
  rw [port]
  refine ⟨rfl, rfl, rfl, rfl, ?_, ?_⟩
  · rw [ends, idleWritten_control]
    exact congrArg Wire.control view.wire
  · rw [ends, (idleWritten_only _).ports]
    cases n <;> exact view.tag

theorem offer_made (view : DigitView n s z) (away : s.hold.state ≠ .listen) :
    requestOffer n st target z = makeOffer n st target z := by
  rw [requestOffer, view.steady.only.hold, if_neg away]

theorem DigitView.peer (view : DigitView n s z) (id : Nat) : z.peer id = s.peer id := by
  unfold State.peer
  rw [view.steady.only.hold]

theorem offer_unknown (view : DigitView n s z) (other : st ≠ s.own) (unknown : s.peer st = none) :
    makeOffer n st target z = refusePort n .noStation (st, 0) z := by
  rw [makeOffer, view.own, if_neg other, view.peer, unknown]

theorem offer_halted {e : Peer} (view : DigitView n s z) (other : st ≠ s.own) (known : s.peer st = some e)
    (halted : e.hold = .listed .halted) : makeOffer n st target z = refusePort n .halted (st, 0) z := by
  rw [makeOffer, view.own, if_neg other, view.peer, known]
  exact if_pos halted

theorem offer_sent {e : Peer} (view : DigitView n s z) (other : st ≠ s.own) (known : s.peer st = some e)
    (awake : e.hold ≠ .listed .halted) :
    makeOffer n st target z = asked n .offer (.offered st target none) st target s z := by
  rw [makeOffer, view.own, if_neg other, view.peer, known, ← sendRequest_asking view.toLineView]
  exact if_neg awake

/-! ## An offer inside the station (R98, R100) -/

/-- The other port rings. -/
abbrev otherRings (n : PortNo) (s : State) : Prop :=
  (s.port (otherPort n)).state = .idle ∧ faultLevel s.pins (otherPort n) = false ∧ s.halted = false

theorem otherRings_view (view : DigitView n s z) : otherRings n z ↔ otherRings n s := by
  unfold otherRings
  rw [view.other _ (otherPort_ne n), view.steady.halted]
  obtain ⟨a, b, pins⟩ := view.steady.pins
  have level : faultLevel z.pins (otherPort n) = faultLevel s.pins (otherPort n) := by
    rw [pins]
    cases n <;> rfl
  rw [level]

def offerRef (s : State) : Nat := nextRef s.call.lastRef (s.call.bindings.map Binding.ref)

theorem port_offeredInside_same (n : PortNo) (target : Nat) (z : State) : (offeredInside n target z).port n =
    Port.setTone .ringBack z.now { (z.port n).stripped with
      state := .offering, pending := some (.offered z.own target (some (offerRef z))), ringBack := some z.now } := by
  rw [offeredInside, State.port_modPort_same, port_takeOffer, if_neg]
  · rfl
  · rw [List.mem_singleton]
    exact (otherPort_ne n).symm

theorem port_offeredInside_other (n : PortNo) (target : Nat) (z : State) :
    (offeredInside n target z).port (otherPort n) =
      (z.port (otherPort n)).ring z.now (.offerFrom z.own (portNo n) (offerRef z)) := by
  rw [offeredInside, State.port_modPort_other _ _ (otherPort_ne n), port_takeOffer, if_pos (List.mem_singleton.mpr rfl)]
  rfl

theorem call_offeredInside (n : PortNo) (target : Nat) (z : State) : (offeredInside n target z).call =
    { z.call with
      bindings := z.call.bindings ++ [⟨offerRef z, z.own, portNo n, none, [otherPort n], false⟩]
      lastRef := offerRef z } := by
  have kept : (offeredInside n target z).call = (takeOffer z.own (portNo n) none [otherPort n] z).call := by
    cases n <;> rfl
  rw [kept, call_takeOffer]
  rfl

theorem offeredInside_only (n : PortNo) (target : Nat) (z : State) : Only [.ports, .call] z
    (offeredInside n target z) :=
  ((takeOffer_only _ _ _ _ z).mono (by decide)).trans ((State.modPort_only n _ _).mono (by decide))

/-- Both ports and the binding of an offer inside the station. -/
structure OfferedInside (n : PortNo) (target : Nat) (s t : State) : Prop where
  digit : (t.port n).digit = none
  caller : (t.port n).state = .offering ∧ (t.port n).pending = some (.offered s.own target (some (offerRef s))) ∧
    (t.port n).tone = .ringBack ∧ (t.port n).ringBack = some s.now
  rings : (t.port (otherPort n)).state = .ringing ∧
    (t.port (otherPort n)).pending = some (.offerFrom s.own (portNo n) (offerRef s)) ∧
    (t.port (otherPort n)).ringOn = true
  bindings : t.call.bindings = s.call.bindings ++ [⟨offerRef s, s.own, portNo n, none, [otherPort n], false⟩]
  lastRef : t.call.lastRef = offerRef s

theorem DigitView.offerRef (view : DigitView n s z) : offerRef z = Machine.offerRef s := by
  unfold Machine.offerRef
  rw [view.call]

theorem firstSettled_offeredInside (view : DigitView n s z) : FirstSettled (offeredInside n target z) :=
  view.calm.first.keepPorts (offeredInside_only n target z) view.calm.dropped (by rw [call_offeredInside])

theorem offeredInside_done (view : DigitView n s z) : OfferedInside n target s (finish (offeredInside n target z)) := by
  have first : FirstSettled (offeredInside n target z) := firstSettled_offeredInside view
  have now : z.now = s.now := view.steady.only.now
  have caller : (finish (offeredInside n target z)).port n = _ := port_finish first
    (by rw [port_offeredInside_same]; exact nofun) (by rw [port_offeredInside_same]; exact nofun)
  have rung : (finish (offeredInside n target z)).port (otherPort n) = _ := port_finish first
    (by rw [port_offeredInside_other]; exact nofun) (by rw [port_offeredInside_other]; exact nofun)
  obtain ⟨bindings, lastRef⟩ := settleRest_bindings (clearNotices (offeredInside n target z))
  rw [← settleFirst_of first, ← finish_eq, settleFirst_of first, (clearNotices_only _).call, call_offeredInside,
    view.offerRef, view.own, view.call] at bindings lastRef
  rw [port_offeredInside_same, view.offerRef, view.own, now] at caller
  rw [port_offeredInside_other, view.offerRef, view.own, now] at rung
  exact
    { digit := by rw [caller]; rfl
      caller := by rw [caller]; exact ⟨rfl, rfl, rfl, rfl⟩
      rings := by rw [rung]; exact ⟨rfl, rfl, rfl⟩
      bindings := bindings
      lastRef := lastRef }

theorem tag_takeOffer (st po : Nat) (tag : Option Nat) (m : PortNo) (z : State) :
    (takeOffer st po tag [m] z).ports.tag = z.ports.tag := by
  cases m <;> rfl

theorem steady_offeredInside (n : PortNo) (target : Nat) (z : State) : Steady z (offeredInside n target z) := by
  have rung : Steady z (takeOffer z.own (portNo n) none [otherPort n] z) :=
    Steady.of_ports ((takeOffer_only _ _ _ _ z).mono (by decide))
      (fun m => by
        rw [port_takeOffer]
        split
        · exact .inr (.inr ⟨nofun, nofun⟩)
        · exact .inl rfl) rfl
  exact rung.trans (steady_modPort n _ _ (.inr (.inr ⟨nofun, nofun⟩)))

theorem offeredInside_silent (view : DigitView n s z) (ok : PortsOk s) (calm : Calm s)
    (dialing : (s.port n).state = .dialing) (idle : (s.port (otherPort n)).state = .idle) :
    NothingSent s (finish (offeredInside n target z)) := by
  have steady := view.steady.trans (steady_offeredInside n target z)
  have wire : (offeredInside n target z).wire = s.wire :=
    (offeredInside_only n target z).wire.trans view.wire
  have hook : ((offeredInside n target z).port n).offHook = true := by
    rw [port_offeredInside_same]
    show (z.port n).offHook = true
    rw [view.offHook, portOk_offHook (portsOk_port ok n), dialing]
    rfl
  have parked : ∀ m, ((offeredInside n target z).port m).state = .parked ↔ (s.port m).state = .parked := fun m => by
    by_cases same : m = n
    · subst same
      rw [port_offeredInside_same]
      exact ⟨nofun, fun no => absurd no view.away⟩
    · have other : m = otherPort n := by cases m <;> cases n <;> first | rfl | exact absurd rfl same
      subst other
      rw [port_offeredInside_other, idle]
      exact ⟨nofun, nofun⟩
  have ends := steady.finish calm (staysUp_of_busy (portIdle_of_offHook hook)) parked
    (no_notices (by rw [wire, calm.dropped]))
  refine ⟨?_, ?_⟩
  · rw [ends, idleWritten_control, wire]
  · have tag : ∀ (f : Port → Port) (u : State), (u.modPort n f).ports.tag = u.ports.tag := fun f u => by
      cases n <;> rfl
    rw [ends, (idleWritten_only _).ports, offeredInside, tag, tag_takeOffer]
    exact view.tag

/-! ## The outcome of an offer -/

/-- An offer to another station. -/
structure OfferedAway (n : PortNo) (st target : Nat) (s t : State) : Prop where
  digit : (t.port n).digit = none
  made : ∀ e, s.peer st = some e → e.hold ≠ .listed .halted → s.halted = false → PortsOk s →
    RequestMade .offer n st target s t
  halted : ∀ e, s.peer st = some e → e.hold = .listed .halted → RefusedAtHome n .halted (st, 0) t
  unknown : s.peer st = none → RefusedAtHome n .noStation (st, 0) t

theorem offeredAway (view : DigitView n s z) (calm : Calm s) (fitted : s.fitted n = true)
    (dialing : (s.port n).state = .dialing) (other : st ≠ s.own) :
    OfferedAway n st target s (finish (makeOffer n st target z)) := by
  cases known : s.peer st with
  | none =>
    have home := refusedAtHome .noStation (st, 0) view
    rw [offer_unknown view other known]
    exact ⟨home.digit, fun e he => (by rw [known] at he; cases he), fun e he => (by rw [known] at he; cases he),
      fun _ => home⟩
  | some e =>
    by_cases halted : e.hold = .listed .halted
    · have home := refusedAtHome .halted (st, 0) view
      rw [offer_halted view other known halted]
      refine ⟨home.digit, fun g hg awake => ?_, fun _ _ _ => home, fun no => (by rw [known] at no; cases no)⟩
      rw [known] at hg
      cases hg
      exact absurd halted awake
    · obtain ⟨-, digit⟩ := asked_fields (k := .offer) (pend := .offered st target none) (dst := st) (target := target)
        calm view.toLineView
      rw [offer_sent view other known halted]
      refine ⟨digit, fun _ _ _ awake ok => ?_, fun g hg no => ?_, fun no => (by rw [known] at no; cases no)⟩
      · have hook : (z.port n).offHook = true := by
          rw [view.offHook, portOk_offHook (portsOk_port ok n), dialing]
          rfl
        exact requestMade calm ok view.toLineView hook fitted awake rfl
      · rw [known] at hg
        cases hg
        exact absurd no halted

/-- An offer to the own station. -/
def OfferedHome (n : PortNo) (target : Nat) (s t : State) : Prop :=
  if target = portNo n then RefusedAtHome n .portBusy (s.own, target) t
  else if s.fitted (otherPort n) = false then RefusedAtHome n .noPort (s.own, target) t
  else if otherRings n s then OfferedInside n target s t ∧ (PortsOk s → NothingSent s t)
  else RefusedAtHome n .portBusy (s.own, target) t

theorem offeredHome (view : DigitView n s z) (calm : Calm s) (dialing : (s.port n).state = .dialing) :
    OfferedHome n target s (finish (makeLocalOffer n target z)) := by
  have fitted : z.fitted (otherPort n) = s.fitted (otherPort n) := by
    unfold State.fitted
    rw [view.steady.only.cfg]
  rw [makeLocalOffer_eq, fitted, view.own]
  unfold OfferedHome
  split
  · exact refusedAtHome _ _ view
  · split
    · exact refusedAtHome _ _ view
    · by_cases rings : otherRings n s
      · rw [if_pos rings, if_pos ((otherRings_view view).mpr rings)]
        exact ⟨offeredInside_done view, fun ok => offeredInside_silent view ok calm dialing rings.1⟩
      · rw [if_neg rings, if_neg fun no => rings ((otherRings_view view).mp no)]
        exact refusedAtHome _ _ view

theorem OfferedHome.digit (home : OfferedHome n target s t) : (t.port n).digit = none := by
  unfold OfferedHome at home
  split at home
  · exact home.digit
  · split at home
    · exact home.digit
    · split at home
      · exact home.1.digit
      · exact home.digit

end

end Sys2Proof.Machine
end

section
/-! PROOFS. Digits and flashes on an outside call, and the choice of a call by digits (R91 to R98, R100, R102, R123). -/

namespace Sys2Proof.Machine

open Sys2Proof

section
variable {n : PortNo} {s t y z : State} {h id : Nat} {i : DialItem}

/-! ## An outside call (R102, R123) -/

theorem finish_takeDial_kept {st po ref : Nat} (calm : Calm y) (known : recordFor st po ref y = true) :
    Only [.wire, .sup, .call, .outs] y (finish (takeDial st po ref i y)) ∧
      (finish (takeDial st po ref i y)).wire.control = y.wire.control := by
  rw [takeDial_taken known]
  have only := modRecord_only (CallRecord.withItem i) y
  have isSome : (modRecord (CallRecord.withItem i) y).call.record.isSome = y.call.record.isSome :=
    Option.isSome_map
  have ends := finish_core ((Calm.first calm).setCall only (Calm.dropped calm) isSome)
    ((Calm.rest calm).core.setCall only)
  have loop := settleLoop_only (clearNotices (modRecord (CallRecord.withItem i) y))
  rw [ends]
  refine ⟨(clearNotices_only _).after (loop.after ((clearNotices_only _).after (only.mono (by decide)) (by decide))
    (by decide)) (by decide), ?_⟩
  rw [clearNotices_control, loop.wire, clearNotices_control, only.wire]

/-- `y` is `s` with the hook and the pulse count of a port on an outside call. -/
structure CallView (n : PortNo) (h id : Nat) (s y : State) : Prop where
  calm : Calm y
  only : Only [.pins, .ports, .outs] s y
  state : (y.port n).state = .connected
  ref : (y.port n).callRef = some (.outside h id)

theorem CallView.own (view : CallView n h id s y) : y.own = s.own := by
  unfold State.own
  rw [view.only.straps]

theorem dialPassed (view : CallView n h id s y) (i : DialItem) : DialPassed n h id i s (finish (sendDial n i y)) := by
  have sent : sendDial n i y =
      if h = y.own then takeDial y.own (portNo n) id i y else offerControl h (.dial ⟨id, portNo n, .listed i⟩) y := by
    rw [sendDial, view.ref]
  by_cases own : h = s.own
  · rw [DialPassed, if_pos own, sent, view.own, if_pos own]
    intro r hr named party
    have known : recordFor s.own (portNo n) id y = true :=
      recordFor_iff.mpr ⟨r, by rw [view.only.call, hr], named, party⟩
    have taken := finish_takeDial (i := i) view.calm (by rw [view.only.call, hr]) known
    obtain ⟨only, control⟩ := finish_takeDial_kept (i := i) view.calm known
    have port := port_congr only.ports n
    unfold TakenForExchange at taken
    rw [view.only.now] at taken
    refine ⟨taken, control.trans (congrArg Wire.control view.only.wire), ?_⟩
    rw [port]
    exact ⟨view.state, view.ref⟩
  · have ends := finish_offerControl (dst := h) (b := .dial ⟨id, portNo n, .listed i⟩) view.calm nofun nofun rfl
    have halted : y.halted = s.halted := halted_congr (by rw [view.only.hold])
    have handed := frameHanded_offerControl (dst := h) (b := .dial ⟨id, portNo n, .listed i⟩) (s := s) nofun nofun
      (congrArg Wire.control view.only.wire) halted view.only.now
    have port : (clearNotices (offerControl h (.dial ⟨id, portNo n, .listed i⟩) y)).port n = y.port n :=
      port_congr ((clearNotices_only _).ports.trans (offerControl_only _ _ _).ports) n
    rw [DialPassed, if_neg own, sent, view.own, if_neg own, ends, port]
    exact ⟨handed, view.state, view.ref⟩

theorem CallView.counted (view : CallView n h id s y) : CallView n h id s (clearCount n y) := by
  have port := port_clearCount n y
  exact ⟨calm_clearCount view.calm n, (clearCount_only n y).after view.only (by decide), by rw [port]; exact view.state,
    by rw [port]; exact view.ref⟩

theorem pulseDigit_passed {v : Fin 10} {e : Tick} (calm : Calm s) (state : (s.port n).state = .connected)
    (ref : (s.port n).callRef = some (.outside h id)) (count : (s.port n).pulses = if v.val = 0 then 10 else v.val)
    (whole : (s.port n).breakStart = none) (ended : (s.port n).pulseEnd = some e) (late : 10000 ≤ elapsed s.now e) :
    Answers (.pulseCountClose n) s fun t => (t.port n).pulses = 0 ∧ DialPassed n h id (.digit v) s t := by
  have view : CallView n h id s (clearCount n s.quiet) :=
    CallView.counted ⟨calm, (State.quiet_only s).mono (by decide), state, ref⟩
  have run := exec_pulseCountClose calm (by rw [count]; split <;> omega) whole ended late
  have taken : takeDigit n (.key (.digit v) true) (clearCount n s.quiet) =
      sendDial n (.digit v) (clearCount n s.quiet) := by
    simp only [takeDigit, view.state]
  rw [count, countDigit_of, taken] at run
  obtain ⟨-, pulses⟩ := finish_sendDial_hook (n := n) view.calm (.digit v)
  rw [port_clearCount] at pulses
  exact answers_of run ⟨pulses, dialPassed view _⟩

theorem flash_passed {e : Tick} (calm : Calm s) (fitted : s.fitted n = true) (state : (s.port n).state = .connected)
    (ref : (s.port n).callRef = some (.outside h id)) (off : (s.port n).offHook = true)
    (broken : (s.port n).breakStart = some e) (long : 5600 ≤ elapsed s.now e) (short : elapsed s.now e ≤ 40000) :
    Answers (.hookRise n) s fun t => (t.port n).breakStart = none ∧ DialPassed n h id .flash s t := by
  have run := exec_hookRise (n := n) calm
  rw [hookRise_ends fitted off broken, if_neg (by omega), if_pos short] at run
  have port := port_withBreak true n none s
  have view : CallView n h id s (withBreak true n none s) :=
    ⟨calm_withBreak calm true n none, withBreak_only true n none s, by rw [port]; exact state, by rw [port]; exact ref⟩
  obtain none_open | counted := Nat.eq_zero_or_pos ((withBreak true n none s).port n).pulses
  · rw [takeFlash_alone none_open, if_pos view.state] at run
    obtain ⟨ended, -⟩ := finish_sendDial_hook (n := n) view.calm .flash
    rw [port] at ended
    exact answers_of run ⟨ended, dialPassed view _⟩
  · rw [takeFlash_count counted, if_neg (by rw [view.state]; exact nofun), if_pos view.state] at run
    obtain ⟨ended, -⟩ := finish_sendDial_hook (n := n) view.counted.calm .flash
    rw [port_clearCount, port] at ended
    exact answers_of run ⟨ended, dialPassed view.counted _⟩

theorem toneDigit_ignored (k : Key) (calm : Calm s) (fitted : s.fitted n = true)
    (state : (s.port n).state = .connected) : Answers (.toneDigitEvent n k) s fun t => Only [.outs] s t := by
  have ignored : takeDigit n (.key k false) s.quiet = s.quiet := by
    have same : (s.quiet.port n).state = .connected := state
    simp only [takeDigit, same]
  refine answers_of (exec_toneDigit k calm fitted) ?_
  rw [ignored, finish_of_calm (show Calm s.quiet from calm)]
  exact State.quiet_only s

/-! ## The statement -/

theorem first_digit_answers {v : Fin 10} {c : Instr} (calm : Calm s) (fitted : s.fitted n = true)
    (dialing : (s.port n).state = .dialing)
    (dialled : c = .toneDigitEvent n (.digit v) ∨
       (c = .pulseCountClose n ∧ (s.port n).pulses = (if v.val = 0 then 10 else v.val) ∧
         (s.port n).breakStart = none ∧ ∃ e, (s.port n).pulseEnd = some e ∧ 10000 ≤ elapsed s.now e)) :
    ∃ z b, DigitView n s z ∧ exec c s = .next (finish (takeDigit n (.key (.digit v) b) z)) ∧
      (c = .pulseCountClose n → (z.port n).pulses = 0) := by
  have away : (s.port n).state ≠ .parked := by rw [dialing]; exact nofun
  rcases dialled with rfl | ⟨rfl, count, whole, e, ended, late⟩
  · exact ⟨_, false, digitView_quiet calm away, exec_toneDigit _ calm fitted, nofun⟩
  · have run := exec_pulseCountClose calm (by rw [count]; split <;> omega) whole ended late
    rw [count, countDigit_of] at run
    exact ⟨_, true, digitView_counted calm away, run, fun _ => by rw [port_clearCount]⟩

theorem offer_answers {st target : Nat} (view : DigitView n s z) (calm : Calm s) (fitted : s.fitted n = true)
    (dialing : (s.port n).state = .dialing) :
    let t := finish (requestOffer n st target z)
    (t.port n).digit = none ∧
      (s.hold.state = .listen → (t.port n).state = .offering ∧ (t.port n).pending = some (.offered st target none) ∧
        (t.port n).outReq = some ⟨.offer, 0, st, target, s.now, true⟩ ∧ NothingSent s t) ∧
      (s.hold.state ≠ .listen → st ≠ s.own → OfferedAway n st target s t) ∧
      (s.hold.state ≠ .listen → st = s.own → OfferedHome n target s t) := by
  intro t
  by_cases listen : s.hold.state = .listen
  · obtain ⟨digit, held⟩ := offer_held (st := st) (target := target) view calm listen
    exact ⟨digit, fun _ => held, fun no => absurd listen no, fun no => absurd listen no⟩
  · have made : t = finish (makeOffer n st target z) := congrArg finish (offer_made view listen)
    rw [made]
    by_cases own : st = s.own
    · have home : OfferedHome n target s (finish (makeOffer n st target z)) := by
        rw [makeOffer, view.own, if_pos own]
        exact offeredHome view calm dialing
      exact ⟨home.digit, fun no => absurd no listen, fun _ no => absurd own no, fun _ _ => home⟩
    · have sent := offeredAway (target := target) view calm fitted dialing own
      exact ⟨sent.digit, fun no => absurd no listen, fun _ _ => sent, fun _ no => absurd no own⟩

/-- Settles O45. -/
theorem digitsChooseCall : Obligations.DigitsChooseCall := by
  refine ⟨fun s n v c calm fitted dialing digit dialled => ?_, fun s n c calm fitted dialing bad => ?_,
    fun s n st target c calm fitted dialing digit settled => ?_, fun s n h id e calm fitted state ref => ?_⟩
  · obtain ⟨z, b, view, run, closed⟩ := first_digit_answers calm fitted dialing dialled
    obtain ⟨zero, named, nine, pulses⟩ := firstDigit_answers view calm fitted dialing digit v b
    exact answers_of run ⟨zero, named, fun is => (nine is).held, fun is => (nine is).unknown,
      fun h is => (nine is).made h, fun is => (nine is).inside, fun is => pulses.trans (closed is)⟩
  · have away : (s.port n).state ≠ .parked := by rw [dialing]; exact nofun
    rcases bad with ⟨k, rfl, bad⟩ | ⟨rfl, whole, ⟨e, ended, late⟩, many⟩
    · refine failed_answers (digitView_quiet calm away) dialing (exec_toneDigit k calm fitted) fun x b same => ?_
      cases same
      rcases bad with no | no | ⟨known, v, same, one, two⟩
      · cases no
      · cases no
      · cases same
        exact ⟨known, one, two⟩
    · have three : 3 ≤ (s.port n).pulses := by omega
      refine failed_answers (digitView_counted calm away) dialing
        (exec_pulseCountClose calm (by omega) whole ended late) fun x b same => ?_
      obtain ⟨few, one, two⟩ := countDigit_bad three same
      exact ⟨(many.resolve_left (by omega)).1, one, two⟩
  · obtain ⟨z, view, run⟩ := target_settled calm fitted dialing digit settled
    obtain ⟨none_left, held, sent, home⟩ := offer_answers (st := st) (target := target) view calm fitted dialing
    refine answers_of run ⟨none_left, held, fun away other => ?_, fun away own => ?_⟩
    · have sent := sent away other
      exact ⟨sent.made, fun e he no => (sent.halted e he no).refused, fun no => (sent.unknown no).refused⟩
    · have home := home away own
      unfold OfferedHome at home
      split at home
      · next self => rw [if_pos self]; exact home.refused
      · next self =>
        rw [if_neg self]
        split at home
        · next unfitted => rw [if_pos unfitted]; exact home.refused
        · next unfitted =>
          rw [if_neg unfitted]
          split at home
          · next rings =>
            rw [if_pos rings]
            obtain ⟨done, silent⟩ := home
            obtain ⟨state, pending, tone, ringBack⟩ := done.caller
            obtain ⟨ringing, offered, ringOn⟩ := done.rings
            exact ⟨state, pending, tone, ringBack, ringing, offered, ringOn, done.bindings, done.lastRef, silent⟩
          · next rings => rw [if_neg rings]; exact home.refused
  · exact ⟨fun v count whole ended late => pulseDigit_passed calm state ref count whole ended late,
      fun off broken long short => flash_passed calm fitted state ref off broken long short,
      fun k => toneDigit_ignored k calm fitted state⟩

end

end Sys2Proof.Machine
end

section
/-! PROOFS. The configuration read's end (R6, R14, R29, R32, R43, R44, R76, R89, R109, R165, R177 to R179): the
station as its start-up completes, and what the end of the command makes of it. -/

namespace Sys2Proof.Machine

open Sys2Proof

section
variable {s t v w y : State} {n : PortNo} {c : Cfg} {i : Bool}

/-! ## The wire of a start (R13, R165) -/

/-- The wire controller of a start holds at most a frame that outlived the restart. -/
structure WireStarts (w : Wire) : Prop where
  rx : w.rx = none
  round : w.round = none
  dropped : w.dropped = []
  sending : (∀ e ∈ w.control, e.inTx = true ∧ e.flushed = true) ∧ ∀ e ∈ w.data, e.inTx = true
  few : w.control.length ≤ 1
  idle : w.tx = none → w.control = []

theorem wireStarts {w : Wire} (h : startWire w = true) : WireStarts w := by
  unfold startWire at h
  split at h
  · next idle =>
    have shape := of_decide_eq_true h
    rw [shape]
    exact ⟨rfl, rfl, rfl, ⟨nofun, nofun⟩, Nat.zero_le _, fun _ => rfl⟩
  · next x sending =>
    split at h
    · next e queue =>
      simp only [Bool.and_eq_true, decide_eq_true_eq] at h
      obtain ⟨⟨⟨-, inTx⟩, flushed⟩, shape⟩ := h
      have one : ∀ a ∈ [e], a.inTx = true ∧ a.flushed = true := by simp [inTx, flushed]
      rw [shape]
      cases x.cls with
      | voice => exact ⟨rfl, rfl, rfl, ⟨nofun, nofun⟩, Nat.zero_le _, fun _ => rfl⟩
      | control => exact ⟨rfl, rfl, rfl, ⟨one, nofun⟩, Nat.le_refl _, fun no => nomatch no⟩
      | data => exact ⟨rfl, rfl, rfl, ⟨nofun, fun a ha => (one a ha).1⟩, Nat.zero_le _, fun _ => rfl⟩
    · cases h

theorem liveWire_control (start : WireStarts s.wire) : (liveWire s).control = s.wire.control := by
  unfold liveWire
  split
  · rfl
  · next idle =>
    have none_sent : s.wire.tx = none := by simpa using idle
    split
    · rfl
    · split
      · show s.wire.control.map sitRound = s.wire.control
        rw [start.idle none_sent]
        rfl
      · rfl

/-! ## The station as its start-up completes (R29, R32, R165, R177) -/

/-- The supervisor of a start with the record `c` in force. -/
def Sup.configured (c : Cfg) (timer : Option Tick) (u : Sup) : Sup :=
  { u with stored := c.defaultProfile, inUse := c.defaultProfile, readyTimer := timer }

/-- The READY timer of a start (R69, R70). -/
def startTimer (s : State) : Option Tick :=
  if firstPower s.pins = .full ∧ (s.straps.modem && !s.pins.ready) = true then some s.now else none

/-- The station at completion, its front end live, with its READY timer and its hold controller. -/
def poweredUp (c : Cfg) (i : Bool) (timer : Option Tick) (h : Hold) (s : State) : State :=
  { s with
    phase := .running, cfg := c, interface := i, outs := []
    power := { s.power with state := firstPower s.pins, frontEnd := .live }
    wire := liveWire s
    hold := h
    sup := s.sup.configured c timer }

/-- The station at completion, its hold state not yet entered. -/
def completing (c : Cfg) (i : Bool) (s : State) : State :=
  poweredUp c i (startTimer s) { s.hold with noHolder := some s.now } s

theorem goLive_start : goLive ({ takeConfig c i s.quiet with phase := .running }.modPower fun p =>
    { p with state := firstPower (takeConfig c i s.quiet).pins }) = poweredUp c i s.sup.readyTimer s.hold s :=
  goLive_eq _

theorem pwrOn_start (none_run : s.sup.readyTimer = none) :
    (if (poweredUp c i s.sup.readyTimer s.hold s).full then pwrOn (poweredUp c i s.sup.readyTimer s.hold s)
      else poweredUp c i s.sup.readyTimer s.hold s) = poweredUp c i (startTimer s) s.hold s := by
  have full : (poweredUp c i s.sup.readyTimer s.hold s).full = decide (firstPower s.pins = .full) := rfl
  rw [full]
  by_cases mains : firstPower s.pins = .full
  · have timer : startTimer s = if s.straps.modem && !s.pins.ready then some s.now else none := by
      simp only [startTimer, mains, true_and]
    rw [if_pos (decide_eq_true mains), timer]
    rfl
  · have timer : startTimer s = none := if_neg fun no => mains no.1
    rw [if_neg (by simpa using mains), timer, none_run]

theorem complete_eq (code : Option HaltCode) (none_run : s.sup.readyTimer = none) :
    complete code (takeConfig c i s.quiet) =
      match code with
      | some k => enterHalted k (completing c i s)
      | none => (completing c i s).modHold fun h => { h with state := .listen, listen := some s.now } := by
  unfold complete
  dsimp only
  rw [goLive_start, pwrOn_start none_run]
  cases code <;> rfl

end

end Sys2Proof.Machine
end

section
/-! PROOFS. What the end of the command makes of a station whose start-up completes (R30, R68, R110, R135, R147,
R177). -/

namespace Sys2Proof.Machine

open Sys2Proof

section
variable {s t v w y : State} {n : PortNo} {c : Cfg} {i : Bool}

/-- A station at completion, in LISTEN or HALTED: no other station heard, no record, no condition. -/
structure Begun (c : Cfg) (i : Bool) (s w : State) : Prop where
  phase : w.phase = .running
  cfg : w.cfg = c
  interface : w.interface = i
  pins : w.pins = s.pins
  straps : w.straps = s.straps
  now : w.now = s.now
  power : w.power = { s.power with state := firstPower s.pins, frontEnd := .live }
  rejoin : s.power.rejoin = none
  tx : w.wire.tx = s.wire.tx
  dropped : w.wire.dropped = []
  data : ∀ e ∈ w.wire.data, e.inTx = true
  state : w.hold.state = .listen ∨ w.hold.state = .halted
  roster : w.hold.roster = []
  known : w.hold.known = none
  eligible : w.hold.eligible = false
  record : w.call.record = none
  conds : w.fault.conds = 0

theorem Begun.keepPorts (b : Begun c i s w) (only : Only [.ports] w v) : Begun c i s v where
  phase := only.phase.trans b.phase
  cfg := only.cfg.trans b.cfg
  interface := only.interface.trans b.interface
  pins := only.pins.trans b.pins
  straps := only.straps.trans b.straps
  now := only.now.trans b.now
  power := only.power.trans b.power
  rejoin := b.rejoin
  tx := by rw [only.wire]; exact b.tx
  dropped := by rw [only.wire]; exact b.dropped
  data := by rw [only.wire]; exact b.data
  state := by rw [only.hold]; exact b.state
  roster := by rw [only.hold]; exact b.roster
  known := by rw [only.hold]; exact b.known
  eligible := by rw [only.hold]; exact b.eligible
  record := by rw [only.call]; exact b.record
  conds := by rw [only.fault]; exact b.conds

/-- Eligibility as the station finds it (R30). -/
def eligibleNoted (w : State) : State := w.modHold fun h => { h with eligible := w.eligibleNow }

theorem settleEligible_noted (state : w.hold.state = .listen ∨ w.hold.state = .halted)
    (was : w.hold.eligible = false) : settleEligible w = eligibleNoted w := by
  cases now_eligible : w.eligibleNow with
  | false =>
    rw [settleEligible_of (now_eligible.trans was.symm), eligibleNoted, now_eligible, ← was]
    rfl
  | true =>
    have seeking : w.hold.state ≠ .seeking := by rcases state with h | h <;> rw [h] <;> nofun
    have holding : w.hold.state ≠ .holding := by rcases state with h | h <;> rw [h] <;> nofun
    rw [settleEligible_gains now_eligible was, eligibleNoted, now_eligible]
    simp only [Hold.gainsEligibility, withPower, State.modHold, seeking, holding, if_false]

theorem Begun.holding (b : Begun c i s w) : w.holding = false := by
  rw [State.holding]
  rcases b.state with h | h <;> rw [h] <;> rfl

theorem Begun.eligibleNow (b : Begun c i s w) :
    w.eligibleNow = (s.straps.modem && decide (firstPower s.pins = .full) && !w.halted) := by
  have full : w.full = decide (firstPower s.pins = .full) := by rw [State.full, b.power]
  have absent : w.cond .modemAbsent = false := by rw [State.cond, b.conds]; rfl
  have rejoin : w.power.rejoin = none := by rw [b.power]; exact b.rejoin
  rw [State.eligibleNow, b.straps, full, absent, rejoin]
  simp

theorem Begun.first (b : Begun c i s w) : FirstSettled (eligibleNoted w) := by
  have candidates : w.computeHolder = none := by
    rw [State.computeHolder, candidates_eq, b.roster, b.holding]
    rfl
  refine .of_none rfl ?_ ?_ b.dropped
  · show (w.holding && _ && _) = false
    rw [b.holding]
    rfl
  · show w.computeHolder = w.hold.known
    rw [candidates, b.known]

theorem Begun.finish_eq (b : Begun c i s w) : finish w = settleRest (eligibleNoted w) := by
  have step := settleEligible_noted b.state b.eligible
  have first : settleFirst (eligibleNoted w) = eligibleNoted w :=
    (settleFirst_of b.first).trans (clearNotices_of_none b.dropped)
  rw [settleFirst, settleEligible_of b.first.eligible] at first
  rw [Machine.finish_eq, settleFirst, step, first]

theorem Begun.head (b : Begun c i s w) : headSettled (eligibleNoted w) = true := by
  show headSettled w = true
  unfold headSettled
  split
  · next e l data => rw [b.data e (by rw [data]; exact List.mem_cons_self), Bool.or_true]
  · rfl

theorem Begun.staysUp (b : Begun c i s w) (up : firstPower s.pins = .battery → s.pins.battLow = false) :
    StaysUp (eligibleNoted w) := by
  intro idle
  have battery : firstPower s.pins = .battery := by
    simp only [State.idleHolds, Bool.and_eq_true, decide_eq_true_eq] at idle
    obtain ⟨⟨⟨⟨state, -⟩, -⟩, -⟩, -⟩ := idle
    have power : (eligibleNoted w).power.state = firstPower s.pins := congrArg Power.state b.power
    rw [← power]
    exact state
  show w.pins.battLow = false
  rw [b.pins]
  exact up battery

/-- With no holder known the rules after the notices leave the wire controller. -/
theorem settleRest_wire_unknown (up : StaysUp v) (head : headSettled v = true) (holding : v.holding = false)
    (known : v.hold.known = none) : (settleRest v).wire = { v.wire with dropped := [] } := by
  have middle : (settleMiddle v).wire = v.wire := by
    rw [settleMiddle_staysUp up, settleDataHead_of head, State.modPower_wire, (settleConds_only v).wire]
  have hold : (settleMiddle v).hold = v.hold := by
    rw [settleMiddle_staysUp up, settleDataHead_of head, State.modPower_hold, (settleConds_only v).hold]
  have reports : settleReports (settleMiddle v) = settleMiddle v := by
    rw [settleReports, State.holding, hold, ← State.holding, holding, if_neg (by decide), sendReport, hold, known]
  have later : (settleTones (settleLater (settleMiddle v))).wire = v.wire := by
    rw [(settleTones_only _).wire, settleLater, (settleLamp_only _).wire, (settleLoss_only _).wire,
      (startOutpulse_only _).wire, (startTransfer_only _).wire, (mailboxOffer_only _).wire, reports, middle]
  show { (settleTones (settleLater (settleMiddle v))).wire with dropped := [] } = _
  rw [later]

theorem settleRest_stored (up : StaysUp v) (head : headSettled v = true) :
    (settleRest v).sup.stored = v.sup.stored := by
  have offered (t : State) : (mailboxOffer t).sup.stored = t.sup.stored := by
    unfold mailboxOffer
    split
    · split <;> rfl
    · rfl
  have begun (t : State) : (startTransfer t).sup.stored = t.sup.stored := by
    unfold startTransfer
    split
    · split <;> rfl
    · rfl
  have middle : (settleMiddle v).sup = v.sup := by
    rw [settleMiddle_staysUp up, settleDataHead_of head, State.modPower_sup, (settleConds_only v).sup]
  rw [settleRest, (clearNotices_only _).sup, (settleTones_only _).sup, settleLater, (settleLamp_only _).sup,
    (settleLoss_only _).sup, (startOutpulse_only _).sup, begun, offered, (settleReports_only _).sup, middle]

theorem settleRest_lamp (halted : v.halted = true) (up : StaysUp v) : (settleRest v).fault.lamp = .double := by
  have lit (t : State) (h : t.halted = true) : (settleLamp t).fault.lamp = .double := by
    have wanted : t.lampWanted = .double := by rw [State.lampWanted, h, if_pos rfl]
    unfold settleLamp
    rw [wanted]
    split
    · next same => exact same.symm
    · rfl
  have kept : (settleRest v).fault = (settleLater (settleMiddle v)).fault :=
    (clearNotices_only _).fault.trans (settleTones_only _).fault
  rw [kept, settleLater, lit]
  rw [← halted]
  refine halted_congr ?_
  rw [(settleLoss_only _).hold, (startOutpulse_only _).hold, (startTransfer_only _).hold, (mailboxOffer_only _).hold,
    (settleReports_only _).hold, settleMiddle_staysUp up, State.modPower_hold, (settleConds_only _).hold,
    (settleDataHead_only _).hold]

/-- The station at the end of the command in which its start-up completes. -/
structure BegunDone (c : Cfg) (i : Bool) (s w t : State) : Prop where
  phase : t.phase = .running
  cfg : t.cfg = c
  interface : t.interface = i
  power : t.power.state = firstPower s.pins ∧ t.power.frontEnd = .live
  wire : t.wire = w.wire
  hold : t.hold = { w.hold with eligible := s.straps.modem && decide (firstPower s.pins = .full) && !w.halted }
  now : t.now = s.now
  mainsOff : t.cond .mainsOff = !decide (firstPower s.pins = .full)
  batteryLow : t.cond .batteryLow = s.pins.battLow
  stored : t.sup.stored = w.sup.stored
  readyTimer : t.sup.readyTimer = w.sup.readyTimer
  lamp : w.hold.state = .halted → t.fault.lamp = .double
  port : ∀ n, ∃ x k a, t.port n = { w.port n with tone := x, toneStep := k, toneAt := a }
  tone : ∀ n, (w.port n).tone ≠ .dial → (w.port n).tone ≠ .stutter → t.port n = w.port n

theorem Begun.done (b : Begun c i s w) (up : firstPower s.pins = .battery → s.pins.battLow = false) :
    BegunDone c i s w (finish w) := by
  have stays := b.staysUp up
  have only := settleRest_only stays
  have power := settleRest_power stays
  have sup := supKept_settleRest stays
  have cond (c : Cond) : (settleRest (eligibleNoted w)).cond c = condWanted (eligibleNoted w) c := by
    rw [settleRest_cond stays, settleDataHead_of b.head]
  have full : w.full = decide (firstPower s.pins = .full) := by rw [State.full, b.power]
  rw [b.finish_eq]
  exact
    { phase := only.phase.trans b.phase
      cfg := only.cfg.trans b.cfg
      interface := only.interface.trans b.interface
      power := by
        rw [power]
        exact ⟨congrArg Power.state b.power, congrArg Power.frontEnd b.power⟩
      wire := by
        rw [settleRest_wire_unknown stays b.head b.holding b.known, show (eligibleNoted w).wire = w.wire from rfl,
          ← b.dropped]
      hold := by
        rw [only.hold, ← b.eligibleNow]
        rfl
      now := only.now.trans b.now
      mainsOff := by
        rw [cond, ← full]
        rfl
      batteryLow := by
        rw [cond, ← b.pins]
        rfl
      stored := settleRest_stored stays b.head
      readyTimer := sup.readyTimer
      lamp := fun halted => settleRest_lamp (decide_eq_true halted) stays
      port := fun n => settleRest_port (eligibleNoted w) n
      tone := fun n dial stutter => settleRest_port_of_tone (s := eligibleNoted w) dial stutter }

end

end Sys2Proof.Machine
end

section
/-! PROOFS. The configuration read's end (R6, R14, R18, R32, R43, R44, R89, R109, R165, R172 to R174, R177 to R179). -/

namespace Sys2Proof.Machine

open Sys2Proof

section
variable {s t v w y : State} {n : PortNo} {c : Cfg} {i : Bool}

/-! ## Ports whose hook shows off-hook (R89, R177) -/

theorem wake_awake (up : y.power.state ≠ .watch) : wake y = y := if_neg up

theorem startHook_eq (up : y.power.state ≠ .watch) (idle : (y.port n).state = .idle) : startHook n y =
    if hookLevel y.pins n then y.modPort n (Port.lifted y.halted y.dialTone y.now) else y := by
  rw [startHook, offHook_idle idle, wake_awake up]

theorem startHook_ports (up : y.power.state ≠ .watch) (idle : (y.port n).state = .idle) :
    Only [.ports] y (startHook n y) := by
  rw [startHook_eq up idle]
  split
  · exact State.modPort_only _ _ _
  · exact Only.refl _ _

/-- The hooks of idle ports, port 1 first. -/
theorem eachPort_startHook (up : y.power.state ≠ .watch) (idle : ∀ m, (y.port m).state = .idle) :
    Only [.ports] y (y.eachPort startHook) ∧ (y.eachPort startHook).port .one =
      if y.pins.hook1 then Port.lifted y.halted y.dialTone y.now (y.port .one) else y.port .one := by
  have one := startHook_eq up (idle .one)
  have only_one := startHook_ports up (idle .one)
  have port_one : (startHook .one y).port .one =
      if y.pins.hook1 then Port.lifted y.halted y.dialTone y.now (y.port .one) else y.port .one := by
    rw [one]
    show (if y.pins.hook1 then _ else _ : State).port .one = _
    split <;> rfl
  unfold State.eachPort State.fittedPorts
  split
  · show Only _ y (startHook .two (startHook .one y)) ∧ (startHook .two (startHook .one y)).port .one = _
    have idle_two : ((startHook .one y).port .two).state = .idle := by
      rw [one]
      split
      · exact idle .two
      · exact idle .two
    have up' : (startHook .one y).power.state ≠ .watch := by rw [only_one.power]; exact up
    refine ⟨only_one.trans (startHook_ports up' idle_two), ?_⟩
    rw [startHook_eq up' idle_two, ← port_one]
    split <;> rfl
  · exact ⟨only_one, port_one⟩

/-! ## A start-up that completes (R29, R32, R165, R177) -/

theorem exec_configurationRead {r : ConfigRead} (phase : s.phase = .startUp) : exec (.configurationReadEnd r i)
    s = .next
    (let t := complete (startCode s.straps.modem (readConfig r).2 i) (takeConfig (readConfig r).1 i s.quiet)
     if s.pins.battEmpty then clearNotices (openWindow (finish t)) else finish (t.eachPort startHook)) := by
  show Host.Outcome.next (configRead r i s) = _
  rw [configRead, if_pos phase]

/-- The station in LISTEN at completion. -/
def listening (c : Cfg) (i : Bool) (s : State) : State :=
  (completing c i s).modHold fun h => { h with state := .listen, listen := some s.now }

/-- What of a start-up in progress its completion reads. -/
structure StartsUp (s : State) : Prop where
  phase : s.phase = .startUp
  window : s.power.window = none
  rejoin : s.power.rejoin = none
  wire : WireStarts s.wire
  state : s.hold.state = .listen
  roster : s.hold.roster = []
  known : s.hold.known = none
  eligible : s.hold.eligible = false
  readyTimer : s.sup.readyTimer = none
  ports : s.ports = ⟨Port.start, Port.start, none, 1⟩
  record : s.call.record = none
  conds : s.fault.conds = 0

theorem startsUp (h : Starting s) : StartsUp s := by
  obtain ⟨phase, -, window, -, rejoin, -, wire, state, roster, -, known, -, eligible, -, -, -, -, readyTimer, -, -, -,
    ports, record, -, conds, -, -⟩ := h
  exact ⟨phase, window, rejoin, wireStarts wire, state, roster, known, eligible, readyTimer, ports, record, conds⟩

/-- The wire controller and the hold controller of the station at completion. -/
theorem begun_of (h : StartsUp s) (only : Only [.wire, .hold, .sup, .ports, .call, .fault, .report, .outs]
      (completing c i s) w) (tx : w.wire.tx = s.wire.tx) (dropped : w.wire.dropped = [])
    (data : ∀ e ∈ w.wire.data, e.inTx = true) (state : w.hold.state = .listen ∨ w.hold.state = .halted)
    (roster : w.hold.roster = s.hold.roster) (known : w.hold.known = s.hold.known) (eligible : w.hold.eligible = false)
    (record : w.call.record = none) (conds : w.fault.conds = s.fault.conds) : Begun c i s w := by
  exact
    { phase := only.phase
      cfg := only.cfg
      interface := only.interface
      pins := only.pins
      straps := only.straps
      now := only.now
      power := only.power
      rejoin := h.rejoin
      tx := tx
      dropped := dropped
      data := data
      state := state
      roster := roster.trans h.roster
      known := known.trans h.known
      eligible := eligible
      record := record
      conds := conds.trans h.conds }

theorem liveWire_tx (s : State) : (liveWire s).tx = s.wire.tx := by
  unfold liveWire
  split
  · rfl
  · split
    · rfl
    · split <;> rfl

theorem begun_listening (h : StartsUp s) : Begun c i s (listening c i s) := by
  obtain ⟨data, dropped, -⟩ := liveWire_kept s
  have wire : (listening c i s).wire = liveWire s := rfl
  refine begun_of h ((State.modHold_only _ _).mono (by decide)) (by rw [wire, liveWire_tx])
    (by rw [wire, dropped]; exact h.wire.dropped) (by rw [wire, data]; exact h.wire.sending.2) (.inl rfl) rfl rfl
    h.eligible h.record rfl

/-! ## A start-up that halts (R43, R44, R109) -/

theorem flushQueue_sending {q : List TxEntry} (sending : ∀ e ∈ q, e.inTx = true ∧ e.flushed = true) :
    flushQueue q = q := by
  have all : q.filter (·.inTx) = q := List.filter_eq_self.mpr fun e he => (sending e he).1
  rw [flushQueue, all]
  conv_rhs => rw [← List.map_id q]
  refine List.map_congr_left fun e he => ?_
  obtain ⟨-, flushed⟩ := sending e he
  show { e with flushed := true } = e
  rw [← flushed]

theorem waiting_none {q : List TxEntry} (sending : ∀ e ∈ q, e.inTx = true ∧ e.flushed = true) :
    q.filter waiting = [] :=
  List.filter_eq_nil_iff.mpr fun e he => by
    obtain ⟨inTx, -⟩ := sending e he
    simp [waiting, inTx]

/-- The wire controller with its queues and its receive path emptied (R13, R18). -/
def Wire.emptied (w : Wire) : Wire :=
  { w with
    voice := flushQueue w.voice, control := flushQueue w.control, data := flushQueue w.data, rx := none
    dropped := w.dropped ++ (w.control.filter waiting).map (·.body) }

theorem flushAll_wire (s : State) : (flushAll s).wire = s.wire.emptied := rfl

/-- The wire controller of a station that halts as its start-up completes. -/
def haltedWire (s : State) : Wire :=
  { (liveWire s).emptied with control := s.wire.control ++ [newEntry (some 0) .halt s.now], dropped := [] }

/-- The station as it enters HALTED at completion, its HALT not yet offered. -/
def halting (code : HaltCode) (s : State) : State :=
  haltPorts ((flushAll (haltCalls (goOff s))).modHold (haltHold code))

theorem enterHalted_eq {code : HaltCode} (awake : s.halted = false) (free : s.holding = false)
    (window : s.power.window = none) : enterHalted code s = offerControl 0 .halt (halting code s) := by
  have enters : ¬((s.halted || s.power.window.isSome) = true) := by rw [awake, window]; decide
  unfold enterHalted
  rw [if_neg enters, free, if_neg (by decide)]
  rfl

theorem halting_now (code : HaltCode) (s : State) : (halting code s).now = s.now :=
  (haltPorts_only _).now.trans (goOff_only s).now

theorem halting_wire (code : HaltCode) (s : State) : (halting code s).wire = s.wire.emptied := by
  rw [halting, (haltPorts_only _).wire, State.modHold_wire, flushAll_wire, (haltCalls_only _).wire, (goOff_only s).wire]

theorem halting_record (code : HaltCode) (s : State) : (halting code s).call.record = none := by
  rw [halting, (haltPorts_only _).call]
  rfl

theorem port_halting (code : HaltCode) (s : State) (m : PortNo) :
    (halting code s).port m = if s.fitted m then (s.port m).halt s.now else s.port m := by
  have only := (goOff_only s)
  have ports : ((flushAll (haltCalls (goOff s))).modHold (haltHold code)).port m = s.port m := port_congr only.ports m
  have now : ((flushAll (haltCalls (goOff s))).modHold (haltHold code)).now = s.now := only.now
  have fitted : ((flushAll (haltCalls (goOff s))).modHold (haltHold code)).fitted m = s.fitted m := by
    have cfg : ((flushAll (haltCalls (goOff s))).modHold (haltHold code)).cfg = s.cfg := only.cfg
    cases m <;> simp only [State.fitted, cfg]
  rw [halting, haltPorts, port_eachPort (g := fun _ => Port.halt s.now), ports, fitted]
  · intro m t clock
    rw [State.port_modPort_same, clock, now]
  · exact fun m p t other => State.port_modPort_other _ _ other
  · exact fun m t => (State.modPort_only _ _ _).now

theorem completing_awake (h : StartsUp s) : (completing c i s).halted = false ∧ (completing c i s).holding = false := by
  constructor
  · show decide (s.hold.state = .halted) = false
    rw [h.state]
    rfl
  · show decide (s.hold.state = .holding) = false
    rw [h.state]
    rfl

theorem port_completing (h : StartsUp s) (m : PortNo) : (completing c i s).port m = Port.start := by
  show s.ports.get m = _
  rw [h.ports]
  cases m <;> rfl

/-- The station in HALTED at completion. -/
structure HaltsAtStart (code : HaltCode) (c : Cfg) (i : Bool) (s w : State) : Prop where
  begun : Begun c i s w
  wire : w.wire = haltedWire s
  hold : w.hold = haltHold code { s.hold with noHolder := some s.now }
  port : w.port .one = Port.halt s.now Port.start
  idle : ∀ m, (w.port m).state = .idle

theorem haltsAtStart (h : StartsUp s) (code : HaltCode) :
    HaltsAtStart code c i s (enterHalted code (completing c i s)) := by
  obtain ⟨awake, free⟩ := completing_awake (c := c) (i := i) h
  have window : (completing c i s).power.window = none := h.window
  obtain ⟨data, dropped, -⟩ := liveWire_kept s
  obtain ⟨hold, conds⟩ := enterHalted_read (code := code) awake window
  have waits : (halting code (completing c i s)).wire = (liveWire s).emptied := halting_wire _ _
  have control : (liveWire s).emptied.control = s.wire.control := by
    show flushQueue (liveWire s).control = _
    rw [liveWire_control h.wire, flushQueue_sending h.wire.sending.1]
  have none_dropped : (liveWire s).emptied.dropped = [] := by
    show (liveWire s).dropped ++ ((liveWire s).control.filter waiting).map (·.body) = []
    rw [dropped, h.wire.dropped, liveWire_control h.wire, waiting_none h.wire.sending.1]
    rfl
  have room : s.wire.control.length < 8 := by have few := h.wire.few; omega
  have now : (halting code (completing c i s)).now = s.now := halting_now code _
  have wire : (enterHalted code (completing c i s)).wire = haltedWire s := by
    rw [enterHalted_eq awake free window, offerControl_halt, State.modWire_wire, haltDrops, waits, control, if_pos room,
      controlJoined_room _ room, now, none_dropped]
    rfl
  have only := enterHalted_only code (completing c i s)
  refine ⟨begun_of h only ?_ ?_ ?_ (.inr (by rw [hold]; rfl)) (by rw [hold]; rfl) (by rw [hold]; rfl)
    (by rw [hold]; rfl) ?_ conds, wire, hold, ?_, fun m => ?_⟩
  · rw [wire]
    exact liveWire_tx s
  · rw [wire]
    rfl
  · rw [wire]
    intro e he
    have he : e ∈ flushQueue (liveWire s).data := he
    obtain ⟨a, ha, rfl⟩ := List.mem_map.mp he
    exact (List.mem_filter.mp ha).2
  · rw [enterHalted_eq awake free window, (offerControl_only _ _ _).call, halting_record]
  · rw [enterHalted_eq awake free window, port_congr (offerControl_only _ _ _).ports, port_halting, port_completing h]
    rfl
  · rw [enterHalted_eq awake free window, port_congr (offerControl_only _ _ _).ports, port_halting, port_completing h]
    split <;> rfl

end

end Sys2Proof.Machine
end

section
/-! PROOFS. The configuration read's end: LISTEN, HALTED, or the last-gasp window (R32, R43, R165, R172 to R174, R177 to
R179). -/

namespace Sys2Proof.Machine

open Sys2Proof

section
variable {s t v w y : State} {n : PortNo} {c : Cfg} {i : Bool} {code : Option HaltCode}

/-! ## What a read gives (R137, R178, R179) -/

theorem readConfig_gives {r : ConfigRead} (ok : configOk r = true) :
    ConfigGives r (readConfig r).1 (readConfig r).2 := by
  cases r with
  | absent => exact ⟨defaultCfg_defaults, rfl⟩
  | answered bytes =>
    have long : 36 ≤ bytes.length := of_decide_eq_true ok
    cases good : recordGood bytes with
    | true =>
      have read : readConfig (.answered bytes) = (cfgRead bytes, false) := if_pos good
      rw [read]
      exact ⟨fun _ => ⟨cfgRead_fields long, rfl⟩, fun no => absurd ((recordGood_iff bytes).mp good) no⟩
    | false =>
      have read : readConfig (.answered bytes) = (defaultCfg, true) := if_neg (by rw [good]; decide)
      rw [read]
      refine ⟨fun yes => ?_, fun _ => ⟨defaultCfg_defaults, rfl⟩⟩
      rw [(recordGood_iff bytes).mpr yes] at good
      cases good

/-! ## The ports as the start-up completes (R89, R177) -/

theorem firstPower_awake (p : Pins) : firstPower p ≠ .watch := by
  unfold firstPower
  split
  · nofun
  · split <;> nofun

theorem firstPower_up {p : Pins} (charged : p.battEmpty = false) (up : p.mains = true ∨ p.battLow = false) :
    firstPower p = (if p.mains then .full else .battery) ∧ (firstPower p = .battery → p.battLow = false) := by
  have first : firstPower p = if p.mains then .full else .battery := by rw [firstPower, charged, if_neg (by decide)]
  refine ⟨first, fun battery => ?_⟩
  rw [first] at battery
  rcases up with mains | low
  · rw [mains] at battery
    cases battery
  · exact low

theorem Begun.hooks (b : Begun c i s w) (idle : ∀ m, (w.port m).state = .idle) :
    Begun c i s (w.eachPort startHook) ∧ Only [.ports] w (w.eachPort startHook) ∧
      (w.eachPort startHook).port .one =
        if s.pins.hook1 then Port.lifted w.halted w.dialTone s.now (w.port .one) else w.port .one := by
  have up : w.power.state ≠ .watch := by
    rw [b.power]
    exact firstPower_awake s.pins
  obtain ⟨only, port⟩ := eachPort_startHook up idle
  rw [b.pins, b.now] at port
  exact ⟨b.keepPorts only, only, port⟩

/-! ## LISTEN (R29, R32) -/

/-- The hold controller of a station that begins in LISTEN. -/
def Hold.listening (now : Tick) (eligible : Bool) (h : Hold) : Hold :=
  { h with noHolder := some now, state := .listen, listen := some now, eligible := eligible }

/-- The station in LISTEN at the end of the command. -/
structure ListensDone (c : Cfg) (i : Bool) (s t : State) : Prop where
  phase : t.phase = .running
  cfg : t.cfg = c
  interface : t.interface = i
  power : t.power.state = firstPower s.pins ∧ t.power.frontEnd = .live
  wire : t.wire = liveWire s
  hold : t.hold = s.hold.listening s.now (s.straps.modem && decide (firstPower s.pins = .full))
  mainsOff : t.cond .mainsOff = !decide (firstPower s.pins = .full)
  batteryLow : t.cond .batteryLow = s.pins.battLow
  stored : t.sup.stored = c.defaultProfile
  readyTimer : t.sup.readyTimer = startTimer s
  port : ∃ x tone k a, t.port .one =
    { (if s.pins.hook1 then Port.lifted false x s.now Port.start else Port.start) with
      tone := tone, toneStep := k, toneAt := a }

theorem listening_fields (c : Cfg) (i : Bool) (s : State) : (listening c i s).wire = liveWire s ∧
    (listening c i s).hold = { s.hold with noHolder := some s.now, state := .listen, listen := some s.now } ∧
    (listening c i s).sup = s.sup.configured c (startTimer s) ∧ (listening c i s).ports = s.ports ∧
    (listening c i s).halted = false :=
  ⟨rfl, rfl, rfl, rfl, rfl⟩

theorem listening_done (h : StartsUp s) (charged : s.pins.battEmpty = false)
    (up : s.pins.mains = true ∨ s.pins.battLow = false) :
    ListensDone c i s (finish ((listening c i s).eachPort startHook)) := by
  obtain ⟨wire, hold, sup, ports, awake⟩ := listening_fields c i s
  have begun := begun_listening (c := c) (i := i) h
  generalize listening c i s = w at *
  have port (m : PortNo) : w.port m = Port.start := by
    show w.ports.get m = _
    rw [ports, h.ports]
    cases m <;> rfl
  obtain ⟨begun, only, one⟩ := begun.hooks fun m => by rw [port]; rfl
  rw [port, awake] at one
  have done := begun.done (firstPower_up charged up).2
  generalize w.eachPort startHook = v at *
  have awake : v.halted = false := (halted_congr (congrArg Hold.state only.hold)).trans awake
  obtain ⟨tone, k, a, ended⟩ := done.port .one
  rw [one] at ended
  exact
    { phase := done.phase
      cfg := done.cfg
      interface := done.interface
      power := done.power
      wire := done.wire.trans (only.wire.trans wire)
      hold := by
        rw [done.hold, only.hold, hold, awake, Bool.not_false, Bool.and_true]
        rfl
      mainsOff := done.mainsOff
      batteryLow := done.batteryLow
      stored := by rw [done.stored, only.sup, sup]; rfl
      readyTimer := by rw [done.readyTimer, only.sup, sup]; rfl
      port := ⟨_, tone, k, a, ended⟩ }

theorem startTimer_eq (charged : s.pins.battEmpty = false) : startTimer s =
    if s.pins.mains && s.straps.modem && !s.pins.ready then some s.now else none := by
  unfold startTimer firstPower
  rw [charged]
  cases s.pins.mains <;> cases s.straps.modem <;> cases s.pins.ready <;> rfl

theorem exec_listens {r : ConfigRead} (h : StartsUp s) (good : (readConfig r).2 = false)
    (equipped : s.straps.modem = true → i = true) (charged : s.pins.battEmpty = false) :
    exec (.configurationReadEnd r i) s = .next (finish ((listening (readConfig r).1 i s).eachPort startHook)) := by
  have none_halts : startCode s.straps.modem (readConfig r).2 i = none := by
    rw [good, startCode, if_neg (by decide)]
    cases modem : s.straps.modem with
    | true => rw [equipped modem]; rfl
    | false => rfl
  have run := exec_configurationRead (i := i) (r := r) h.phase
  rw [none_halts, complete_eq none h.readyTimer, charged] at run
  exact run

theorem ListensDone.wireOpens (done : ListensDone c i s t) : WireOpens s t := by
  have awake : ¬ (t.hold.state = .halted ∧ s.hold.state ≠ .halted) := fun no => by
    rw [done.hold] at no
    exact absurd no.1 nofun
  obtain ⟨-, live⟩ := done.power
  exact wireOpens_of live (by rw [done.wire]) (by rw [if_neg awake, done.wire]) fun _ halted was =>
    absurd ⟨halted, was⟩ awake

theorem ListensDone.portOne (done : ListensDone c i s t) :
    t.ports.one.state = (if s.pins.hook1 then .dialing else .idle) ∧ t.ports.one.offHook = s.pins.hook1 := by
  obtain ⟨x, tone, k, a, port⟩ := done.port
  have port : t.ports.one = _ := port
  rw [port]
  cases s.pins.hook1 <;> exact ⟨rfl, rfl⟩

theorem configurationRead_listens {r : ConfigRead} (h : StartsUp s) (good : (readConfig r).2 = false)
    (equipped : s.straps.modem = true → i = true) (charged : s.pins.battEmpty = false)
    (up : s.pins.mains = true ∨ s.pins.battLow = false) :
    Answers (.configurationReadEnd r i) s fun t =>
       t.phase = .running ∧ t.cfg = (readConfig r).1 ∧ t.interface = i ∧
         t.power.state = (if s.pins.mains then .full else .battery) ∧ WireOpens s t ∧
         t.hold.state = .listen ∧ t.hold.listen = some s.now ∧ t.hold.noHolder = some s.now ∧
         t.hold.eligible = (s.straps.modem && s.pins.mains) ∧ t.sup.stored = (readConfig r).1.defaultProfile ∧
         t.cond .mainsOff = !s.pins.mains ∧ t.cond .batteryLow = s.pins.battLow ∧
         t.sup.readyTimer = (if s.pins.mains && s.straps.modem && !s.pins.ready then some s.now else none) ∧
         t.ports.one.state = (if s.pins.hook1 then .dialing else .idle) ∧ t.ports.one.offHook = s.pins.hook1 ∧
         t.wire.tx = s.wire.tx ∧ (s.wire.tx.isSome = true → t.wire.rx = none ∧ t.wire.round = none) := by
  have done := listening_done (c := (readConfig r).1) (i := i) h charged up
  have run := exec_listens h good equipped charged
  refine ⟨_, run, ?_⟩
  generalize finish ((listening (readConfig r).1 i s).eachPort startHook) = t at done
  obtain ⟨first, -⟩ := firstPower_up charged up
  have full : decide (firstPower s.pins = .full) = s.pins.mains := by
    rw [first]
    cases s.pins.mains <;> rfl
  have hold := done.hold
  rw [full] at hold
  obtain ⟨state, -⟩ := done.power
  obtain ⟨hook, off⟩ := done.portOne
  refine ⟨done.phase, done.cfg, done.interface, state.trans first, done.wireOpens, by rw [hold]; rfl, by rw [hold]; rfl,
    by rw [hold]; rfl, by rw [hold]; rfl, done.stored, by rw [done.mainsOff, full], done.batteryLow,
    done.readyTimer.trans (startTimer_eq charged), hook, off, by rw [done.wire, liveWire_tx], fun sending => ?_⟩
  have kept : liveWire s = s.wire := if_pos sending
  rw [done.wire, kept]
  exact ⟨h.wire.rx, h.wire.round⟩

/-- Settles O12. -/
theorem configurationReadListens : Obligations.ConfigurationReadListens :=
  ⟨fun _ ok => readConfig_gives ok, fun _ _ _ h good equipped charged up =>
    configurationRead_listens (startsUp h) good equipped charged up⟩

end

end Sys2Proof.Machine
end

section
/-! PROOFS. The configuration read's end at a station that halts or stops (R18, R43, R44, R109, R147, R165, R172 to
R174). -/

namespace Sys2Proof.Machine

open Sys2Proof

section
variable {s t v w y : State} {n : PortNo} {c : Cfg} {i : Bool} {code : HaltCode}

/-! ## HALTED (R43, R44, R109) -/

/-- The station in HALTED at the end of the command. -/
structure HaltsDone (code : HaltCode) (c : Cfg) (i : Bool) (s t : State) : Prop where
  phase : t.phase = .running
  cfg : t.cfg = c
  live : t.power.frontEnd = .live
  wire : t.wire = haltedWire s
  hold : t.hold.state = .halted ∧ t.hold.halt = some code ∧ t.hold.eligible = false
  lamp : t.fault.lamp = .double
  port : ∃ x, t.port .one =
    if s.pins.hook1 then Port.lifted true x s.now (Port.halt s.now Port.start) else Port.halt s.now Port.start

theorem halting_done (h : StartsUp s) (charged : s.pins.battEmpty = false)
    (up : s.pins.mains = true ∨ s.pins.battLow = false) :
    HaltsDone code c i s (finish ((enterHalted code (completing c i s)).eachPort startHook)) := by
  obtain ⟨begun, wire, hold, port, idle⟩ := haltsAtStart (c := c) (i := i) h code
  generalize enterHalted code (completing c i s) = w at *
  obtain ⟨begun, only, one⟩ := begun.hooks idle
  have state : w.hold.state = .halted := by rw [hold]; rfl
  have halted : w.halted = true := decide_eq_true state
  rw [port, halted] at one
  have done := begun.done (firstPower_up charged up).2
  generalize w.eachPort startHook = v at *
  have silent : (v.port .one).tone ≠ .dial ∧ (v.port .one).tone ≠ .stutter := by
    rw [one]
    cases s.pins.hook1 <;> exact ⟨nofun, nofun⟩
  obtain ⟨-, live⟩ := done.power
  have halted' : v.halted = true := (halted_congr (congrArg Hold.state only.hold)).trans halted
  have ended := done.hold
  rw [halted', only.hold, hold, Bool.not_true, Bool.and_false] at ended
  exact
    { phase := done.phase
      cfg := done.cfg
      live := live
      wire := done.wire.trans (only.wire.trans wire)
      hold := by rw [ended]; exact ⟨rfl, rfl, rfl⟩
      lamp := done.lamp (by rw [only.hold, state])
      port := ⟨_, (done.tone .one silent.1 silent.2).trans one⟩ }

theorem HaltsDone.wireOpens (done : HaltsDone code c i s t) (h : StartsUp s) : WireOpens s t := by
  obtain ⟨state, -, -⟩ := done.hold
  have enters : t.hold.state = .halted ∧ s.hold.state ≠ .halted := ⟨state, by rw [h.state]; nofun⟩
  exact wireOpens_of done.live (by rw [done.wire]; rfl) (by rw [if_pos enters, done.wire]; rfl) fun _ _ _ => h.wire.rx

theorem startCode_some {modem bad interface : Bool} (halts : bad = true ∨ (modem = true ∧ interface = false)) :
    startCode modem bad interface = some (if bad then .configBad else .noLineInterface) := by
  unfold startCode
  cases bad with
  | true => rfl
  | false =>
    obtain ⟨modem, interface⟩ := halts.resolve_left nofun
    rw [modem, interface]
    rfl

theorem startCode_isSome (modem bad interface : Bool) :
    (startCode modem bad interface).isSome = (bad || (modem && !interface)) := by
  cases bad <;> cases modem <;> cases interface <;> rfl

theorem exec_halts {r : ConfigRead} (h : StartsUp s)
    (halts : (readConfig r).2 = true ∨ (s.straps.modem = true ∧ i = false)) (charged : s.pins.battEmpty = false) :
    exec (.configurationReadEnd r i) s =
      .next (finish ((enterHalted (if (readConfig r).2 then .configBad else .noLineInterface)
        (completing (readConfig r).1 i s)).eachPort startHook)) := by
  have run := exec_configurationRead (i := i) (r := r) h.phase
  rw [startCode_some halts, complete_eq (some _) h.readyTimer, charged] at run
  exact run

theorem configurationRead_halts {r : ConfigRead} (h : StartsUp s)
    (halts : (readConfig r).2 = true ∨ (s.straps.modem = true ∧ i = false)) (charged : s.pins.battEmpty = false)
    (up : s.pins.mains = true ∨ s.pins.battLow = false) :
    Answers (.configurationReadEnd r i) s fun t =>
       t.phase = .running ∧ t.cfg = (readConfig r).1 ∧ WireOpens s t ∧ t.hold.state = .halted ∧
         t.hold.halt = some (if (readConfig r).2 then .configBad else .noLineInterface) ∧ t.hold.eligible = false ∧
         t.wire.control = s.wire.control ++ [newEntry (some 0) .halt s.now] ∧ t.fault.lamp = .double ∧
         t.ports.one.state = (if s.pins.hook1 then .cleared else .idle) ∧
         t.ports.one.tone = (if s.pins.hook1 then .fault else .silent) := by
  have run := exec_halts h halts charged
  have done := halting_done (code := if (readConfig r).2 then .configBad else .noLineInterface) (c := (readConfig r).1)
    (i := i) h charged up
  generalize finish _ = t at run done
  obtain ⟨state, halt, eligible⟩ := done.hold
  obtain ⟨x, port⟩ := done.port
  have port : t.ports.one = _ := port
  refine answers_of run ⟨done.phase, done.cfg, done.wireOpens h, state, halt, eligible, by rw [done.wire]; rfl,
    done.lamp,
    ?_, ?_⟩
  · rw [port]
    cases s.pins.hook1 <;> rfl
  · rw [port]
    cases s.pins.hook1 <;> rfl

/-! ## The last-gasp window at once (R165, R172 to R174) -/

theorem begun_completes (h : StartsUp s) (code : Option HaltCode) :
    ∃ w, complete code (takeConfig c i s.quiet) = w ∧ Begun c i s w ∧ w.halted = code.isSome ∧
      w.wire.round = (liveWire s).round ∧ w.wire.rx = if code.isSome then none else (liveWire s).rx := by
  cases code with
  | none => exact ⟨_, complete_eq none h.readyTimer, begun_listening h, rfl, rfl, rfl⟩
  | some k =>
    have halts := haltsAtStart (c := c) (i := i) h k
    refine ⟨_, complete_eq (some k) h.readyTimer, halts.begun, ?_, by rw [halts.wire]; rfl, by rw [halts.wire]; rfl⟩
    rw [State.halted, halts.hold]
    rfl

theorem openWindow_read (s : State) : (openWindow s).phase = s.phase ∧ (openWindow s).cfg = s.cfg ∧
    (openWindow s).hold = s.hold ∧ (openWindow s).power = windowPower (sendsGasp s) s ∧
    (openWindow s).wire.round = s.wire.round ∧ (openWindow s).wire.rx = s.wire.rx ∧
    (openWindow s).fault.conds = s.fault.conds := by
  rw [openWindow_eq]
  cases sendsGasp s <;> exact ⟨rfl, rfl, rfl, rfl, rfl, rfl, rfl⟩

theorem configurationRead_stops {r : ConfigRead} (h : StartsUp s) (flat : s.pins.battEmpty = true) :
    Answers (.configurationReadEnd r i) s fun t =>
       t.phase = .running ∧ t.cfg = (readConfig r).1 ∧ WireOpens s t ∧ t.power.state = .stop ∧
         t.power.window = some s.now ∧ t.cond .mainsOff = true ∧
         t.power.gasp = (if (readConfig r).2 || (s.straps.modem && !i) then .notSent else .offered) := by
  have stop : firstPower s.pins = .stop := if_pos flat
  have run := exec_configurationRead (i := i) (r := r) h.phase
  obtain ⟨w, completes, begun, halted, round, rx⟩ := begun_completes (c := (readConfig r).1) (i := i) h
    (startCode s.straps.modem (readConfig r).2 i)
  have done := begun.done fun no => by rw [stop] at no; cases no
  rw [completes] at run
  have run := run.trans (congrArg Host.Outcome.next (if_pos flat))
  generalize finish w = v at run done
  obtain ⟨phase, cfg, hold, power, round', rx', conds⟩ := openWindow_read v
  obtain ⟨state, live⟩ := done.power
  have same : v.hold.state = w.hold.state := by rw [done.hold]
  have code_halts : v.halted = ((readConfig r).2 || (s.straps.modem && !i)) := by
    rw [halted_congr same, halted, startCode_isSome]
  refine answers_of run ⟨phase.trans done.phase, cfg.trans done.cfg, wireOpens_of ?_ ?_ ?_ ?_, ?_, ?_, ?_, ?_⟩
  · show (openWindow v).power.frontEnd = .live
    rw [power]
    exact live
  · show (openWindow v).wire.round = _
    rw [round', done.wire, round]
  · show (openWindow v).wire.rx = if (openWindow v).hold.state = .halted ∧ s.hold.state ≠ .halted then _ else _
    have enters : (w.hold.state = .halted ∧ s.hold.state ≠ .halted) ↔
        (startCode s.straps.modem (readConfig r).2 i).isSome = true := by
      rw [← halted, h.state]
      exact ⟨fun is => decide_eq_true is.1, fun is => ⟨of_decide_eq_true is, nofun⟩⟩
    rw [rx', done.wire, rx, hold, same]
    exact (if_congr enters rfl rfl).symm
  · exact fun _ _ _ => h.wire.rx
  · show (openWindow v).power.state = .stop
    rw [power]
    exact state.trans stop
  · show (openWindow v).power.window = some s.now
    rw [power]
    exact congrArg some done.now
  · show (openWindow v).fault.conds.getLsbD _ = true
    rw [conds]
    refine done.mainsOff.trans ?_
    rw [stop]
    rfl
  · show (openWindow v).power.gasp = _
    have sends : sendsGasp v = !((readConfig r).2 || (s.straps.modem && !i)) := by
      rw [sendsGasp, code_halts, State.live, live, decide_eq_true rfl, Bool.and_true]
    rw [power, windowPower, sends]
    cases ((readConfig r).2 || (s.straps.modem && !i)) <;> rfl

/-- Settles O13. -/
theorem configurationReadHaltsOrStops : Obligations.ConfigurationReadHaltsOrStops :=
  ⟨fun _ _ _ h halts charged up => configurationRead_halts (startsUp h) halts charged up,
    fun _ _ _ h flat => configurationRead_stops (startsUp h) flat⟩

end

end Sys2Proof.Machine
end

section
/-! PROOFS. What a heard frame leaves of its sender's entry, the lost set, the receive path and the power (R8, R23, R25,
R27): the operations that a frame of any kind can bring about. -/

namespace Sys2Proof.Machine

open Sys2Proof

section
variable {id : Nat} {s t u v : State}

/-! ## The receive path is left alone -/

theorem rx_offerControl (dst : Nat) (b : Body) (s : State) : (offerControl dst b s).wire.rx = s.wire.rx := by
  unfold offerControl
  split
  · rfl
  · split
    · rfl
    · split
      · rfl
      · split <;> rfl

theorem rx_sendClear (st po id : Nat) (c : ClearCause) (s : State) : (sendClear st po id c s).wire.rx = s.wire.rx := by
  by_cases inside : st = s.own
  · rw [(sendClear_inside inside).wire]
  · rw [sendClear_outside inside, rx_offerControl]

theorem rx_endRecord (c : Option ClearCause) (s : State) : (endRecord c s).wire.rx = s.wire.rx := by
  unfold endRecord
  split
  · split
    · exact foldl_read (P := fun t : State => t.wire.rx) (fun t p => rx_sendClear _ _ _ _ t) _ _
    · rfl
  · rfl

theorem rx_leaveHolding (c : Option ClearCause) (s : State) : (leaveHolding c s).wire.rx = s.wire.rx := by
  have left : (leaveHolding c s).wire = (goOff (endRecord c s)).wire := rfl
  rw [left, (goOff_only _).wire, rx_endRecord]

theorem rx_enterYielding (c : Option ClearCause) (s : State) : (enterYielding c s).wire.rx = s.wire.rx := by
  rw [enterYielding, rx_offerControl]
  exact rx_leaveHolding c s

theorem rx_staleFrame (st po ref : Nat) (s : State) : (staleFrame st po ref s).wire.rx = s.wire.rx := by
  unfold staleFrame
  split
  · rfl
  · rw [rx_sendClear]
    rfl

theorem rx_takeDial (st po ref : Nat) (i : DialItem) (s : State) : (takeDial st po ref i s).wire.rx = s.wire.rx := by
  unfold takeDial
  split
  · rfl
  · exact rx_staleFrame _ _ _ _

theorem rx_dialFrame (st : Nat) (m : DialMsg) (s : State) : (dialFrame st m s).wire.rx = s.wire.rx := by
  unfold dialFrame
  split
  · exact rx_takeDial _ _ _ _ _
  · split
    · rfl
    · exact rx_staleFrame _ _ _ _

theorem rx_voiceFrame (src : Nat) (m : VoiceMsg) (s : State) : (voiceFrame src m s).wire.rx = s.wire.rx := by
  unfold voiceFrame
  split
  · unfold partyVoice
    split
    · rfl
    · exact rx_staleFrame _ _ _ _
  · split
    · unfold portVoice
      split <;> rfl
    · rfl

theorem rx_requestFrame (k : RequestKind) (st : Nat) (m : RequestMsg) (s : State) :
    (requestFrame k st m s).wire.rx = s.wire.rx := by
  have judged := judge_only k st m.port m.cls s
  unfold requestFrame
  split
  · next t v same =>
    rw [same] at judged
    rw [rx_offerControl, judged.wire]
  · next t same =>
    rw [same] at judged
    rw [judged.wire]

theorem rx_offerFrame (st : Nat) (m : RequestMsg) (s : State) : (offerFrame st m s).wire.rx = s.wire.rx := by
  unfold offerFrame
  split
  · rfl
  · rw [rx_offerControl, (judgeOffer_only _ _ _ _ _).wire]

theorem rx_sendRequest (k : RequestKind) (dst : Nat) (m : RequestMsg) (s : State) :
    (sendRequest k dst m s).wire.rx = s.wire.rx := by
  rw [sendRequest, rx_offerControl]
  rfl

theorem rx_acceptFrame (st : Nat) (m : RequestMsg) (s : State) : (acceptFrame st m s).wire.rx = s.wire.rx := by
  have late := rx_sendRequest .endCall st ⟨m.target, ((portOf m.target).map s.classNo).getD 0, m.port, m.ref, 0⟩ s
  unfold acceptFrame
  split
  · rfl
  · dsimp only
    split
    · split
      · rfl
      · exact late
    · exact late

theorem rx_putSlot (n : SlotName) (t : Option Track) (s : State) : (putSlot n t s).wire.rx = s.wire.rx := by
  obtain same | opened := putSlot_wire n t s
  · rw [same]
  · rw [opened]
    rfl

theorem rx_makeSeize (n : PortNo) (k : RequestKind) (s : State) : (makeSeize n k s).wire.rx = s.wire.rx := by
  have judged := judge_only k s.own (portNo n) (s.portClass n) (useTag s)
  unfold makeSeize
  split
  · rfl
  · split
    · split
      · next t v same =>
        rw [same] at judged
        rw [(takeAnswer_only _ _ _ _ _).wire, judged.wire]
        rfl
      · next t same =>
        rw [same] at judged
        exact congrArg Wire.rx judged.wire
    · rw [rx_sendRequest]
      rfl

theorem rx_releaseHeld (n : PortNo) (s : State) : (releaseHeld false n s).wire.rx = s.wire.rx := by
  unfold releaseHeld
  split
  · split
    · split
      · rfl
      · exact rx_makeSeize _ _ _
    · rfl
  · rfl

theorem rx_eachPort {f : PortNo → State → State} (each : ∀ n t, (f n t).wire.rx = t.wire.rx) (s : State) :
    (s.eachPort f).wire.rx = s.wire.rx :=
  foldl_read (P := fun t : State => t.wire.rx) (fun t n => each n t) _ _

theorem rx_takeTracks (src : Nat) (start : Tick) (ms : List TrackMsg) (s : State) :
    (takeTracks src start ms s).wire.rx = s.wire.rx := by
  refine foldl_read (P := fun t : State => t.wire.rx) (fun t m => ?_) _ _
  have announced (arrival : Tick) (u : State) (n : SlotName) :
      (announceAt src start arrival m u n).wire.rx = u.wire.rx := by
    unfold announceAt
    split
    · split
      · exact rx_putSlot _ _ _
      · rfl
    · rfl
  show (takeTrack src start t m).wire.rx = t.wire.rx
  unfold takeTrack
  dsimp only
  split
  · split
    · exact foldl_read (P := fun t : State => t.wire.rx) (announced _) _ _
    · split
      · exact rx_putSlot _ _ _
      · split
        · exact rx_putSlot _ _ _
        · rfl
  · rfl

end

end Sys2Proof.Machine
end

section
/-! PROOFS. A heard frame's contents, and what they leave of its sender's entry (R8, R23 to R25). -/

namespace Sys2Proof.Machine

open Sys2Proof

section
variable {id : Nat} {s t u v : State}

/-- What hearing a frame writes into its sender's entry (R23). -/
def Peer.heardAs (p : Peer) : Coded HoldState × Nat × Tick := (p.hold, p.miss, p.lastHeard)

/-- The entry of a station, as frames heard from it wrote it. -/
def entryOf (id : Nat) (s : State) : Option (Coded HoldState × Nat × Tick) := (s.peer id).map Peer.heardAs

/-- What a frame's contents and the level rules leave of the entry of station `id`, the lost set, the receive path, the
inputs and the power. -/
structure HeardKept (id : Nat) (s t : State) : Prop where
  entry : entryOf id t = entryOf id s
  lost : t.hold.lost = s.hold.lost
  rx : t.wire.rx = s.wire.rx
  pins : t.pins = s.pins
  power : t.power = s.power

theorem HeardKept.refl (id : Nat) (s : State) : HeardKept id s s := ⟨rfl, rfl, rfl, rfl, rfl⟩

theorem HeardKept.trans (h : HeardKept id s t) (k : HeardKept id t u) : HeardKept id s u :=
  ⟨k.entry.trans h.entry, k.lost.trans h.lost, k.rx.trans h.rx, k.pins.trans h.pins, k.power.trans h.power⟩

theorem entryOf_congr (roster : t.hold.roster = s.hold.roster) : entryOf id t = entryOf id s := by
  rw [entryOf, entryOf, peer_eq, peer_eq, roster]

theorem HeardKept.of_hold (only : Only [.wire, .hold, .noise, .sup, .ports, .call, .fault, .report, .outs] s t)
    (roster : t.hold.roster = s.hold.roster) (lost : t.hold.lost = s.hold.lost) (rx : t.wire.rx = s.wire.rx) :
    HeardKept id s t :=
  ⟨entryOf_congr roster, lost, rx, only.pins, only.power⟩

theorem HeardKept.of_wire (only : Only [.wire, .noise, .sup, .ports, .call, .fault, .report, .outs] s t)
    (rx : t.wire.rx = s.wire.rx) : HeardKept id s t :=
  .of_hold (only.mono (by decide)) (by rw [only.hold]) (by rw [only.hold]) rx

theorem HeardKept.of_away (only : Only [.noise, .sup, .ports, .call, .fault, .report, .outs] s t) : HeardKept id s t :=
  .of_wire (only.mono (by decide)) (by rw [only.wire])

theorem peerIn_map {f : Peer → Peer} (same : ∀ p, (f p).id = p.id) (id : Nat) :
    ∀ l : List Peer, peerIn id (l.map f) = (peerIn id l).map f
  | [] => rfl
  | p :: l => by
    rw [List.map_cons, peerIn_cons, peerIn_cons, same, peerIn_map same id l]
    split <;> rfl

/-- Contents that a frame writes into its sender's entry, which say nothing of how it was heard. -/
theorem heardKept_modPeer {src : Nat} {f : Peer → Peer} (same : ∀ p, (f p).id = p.id)
    (heard : ∀ p, s.peer id = some p → p.id = src → (f p).heardAs = p.heardAs) : HeardKept id s (modPeer src f s) := by
  refine ⟨?_, rfl, rfl, rfl, rfl⟩
  have found : peerIn id (modPeer src f s).hold.roster =
      (peerIn id s.hold.roster).map fun p => if p.id = src then f p else p :=
    peerIn_map (fun p => by split <;> simp [same]) id s.hold.roster
  rw [entryOf, entryOf, peer_eq, peer_eq, found, Option.map_map]
  cases there : peerIn id s.hold.roster with
  | none => rfl
  | some p =>
    refine congrArg some ?_
    show (if p.id = src then f p else p).heardAs = p.heardAs
    split
    · next named => exact heard p ((peer_eq id s).trans there) named
    · rfl

theorem heardKept_enterPassive (f : Option Follow) (s : State) : HeardKept id s (enterPassive f s) :=
  .of_hold ((State.modHold_only _ _).mono (by decide)) rfl rfl rfl

theorem heardKept_enterSeeking (s : State) : HeardKept id s (enterSeeking s) :=
  .of_hold ((State.modHold_only _ _).mono (by decide)) rfl rfl rfl

theorem enterYielding_hold (c : Option ClearCause) (s : State) :
    (enterYielding c s).hold = { s.hold with state := .yielding, degraded := false } := by
  rw [enterYielding, (offerControl_only _ _ _).hold, State.modHold_hold, (leaveHolding_only _ _).hold]

theorem heardKept_enterYielding (c : Option ClearCause) (s : State) : HeardKept id s (enterYielding c s) :=
  .of_hold ((enterYielding_only _ _).mono (by decide)) (by rw [enterYielding_hold]) (by rw [enterYielding_hold])
    (rx_enterYielding c s)

theorem heardKept_takeTracks (src : Nat) (start : Tick) (ms : List TrackMsg) (s : State) :
    HeardKept id s (takeTracks src start ms s) :=
  .of_wire ((takeTracks_only _ _ _ _).mono (by decide)) (rx_takeTracks _ _ _ _)

theorem heardKept_keeperRule (src : Nat) (h : Coded HoldState) (m : BeaconMsg) (s : State) :
    HeardKept id s (keeperRule src h m s) := by
  unfold keeperRule
  exact iteInduction (fun _ => heardKept_enterYielding _ _) fun _ => .refl _ _

theorem heardKept_claimHeard (src : Nat) (x : BitVec 16) (s : State) : HeardKept id s (claimHeard src x s) := by
  have written : HeardKept id s (modPeer src (fun p => { p with tiebreak := some x }) s) :=
    heardKept_modPeer (fun _ => rfl) fun _ _ _ => rfl
  have follows := written.trans (heardKept_enterPassive (some ⟨src, s.now⟩) _)
  unfold claimHeard
  dsimp only
  split
  · exact follows
  · split
    · exact follows
    · exact written
  · split
    · split
      · exact follows
      · exact written
    · exact written
  · exact written

end

end Sys2Proof.Machine
end

section
/-! PROOFS. Every heard frame of another station: its sender's entry, the lost set, the known holder (R8, R23, R25, R27,
R28). -/

namespace Sys2Proof.Machine

open Sys2Proof

section
variable {id : Nat} {s t u v : State}

/-! ## The contents (R24, R25) -/

theorem heardKept_beacon (src : Nat) (h : Coded HoldState) (start : Tick) (m : BeaconMsg) (t : State) :
    HeardKept id t (keeperRule src h m (takeTracks src start m.tracks (modPeer src (Peer.beaconed h m) t))) := by
  have written : HeardKept id t (modPeer src (Peer.beaconed h m) t) :=
    heardKept_modPeer (fun _ => rfl) fun _ _ _ => rfl
  exact written.trans ((heardKept_takeTracks _ _ _ _).trans (heardKept_keeperRule _ _ _ _))

theorem heardKept_adoptProfile (x : Nat) (t : State) : HeardKept id t (adoptProfile x t) :=
  .of_away ((adoptProfile_only x t).mono (by decide))

theorem heardKept_yieldProfile (m : YieldMsg) (t : State) : HeardKept id t (yieldProfile m t) := by
  unfold yieldProfile
  exact iteInduction (fun _ => heardKept_adoptProfile _ _) fun _ => .refl _ _

theorem heardKept_takeGasp (r : FaultRecord) (t : State) : HeardKept id t (takeGasp r t) :=
  .of_away ((takeGasp_only r t).mono (by decide))

theorem heardKept_gasped {src : Nat} (away : ∀ p, t.peer src = some p → p.hold ≠ .listed .holding) :
    HeardKept src t (modPeer src Peer.gasped t) :=
  heardKept_modPeer (fun _ => rfl) fun p there _ => by
    show ((if p.hold = .listed .holding then _ else p.hold), _, _) = _
    rw [if_neg (away p there)]
    rfl

theorem heardKept_requestFrame (k : RequestKind) (st : Nat) (m : RequestMsg) (t : State) :
    HeardKept id t (requestFrame k st m t) :=
  .of_wire ((requestFrame_only k st m t).mono (by decide)) (rx_requestFrame k st m t)

theorem heardKept_takeLeave (st po ref : Nat) (t : State) : HeardKept id t (takeLeave st po ref t) :=
  .of_away ((takeLeave_only st po ref t).mono (by decide))

theorem heardKept_offerFrame (st : Nat) (m : RequestMsg) (t : State) : HeardKept id t (offerFrame st m t) :=
  .of_wire ((offerFrame_only st m t).mono (by decide)) (rx_offerFrame st m t)

theorem heardKept_acceptFrame (st : Nat) (m : RequestMsg) (t : State) : HeardKept id t (acceptFrame st m t) :=
  .of_wire ((acceptFrame_only st m t).mono (by decide)) (rx_acceptFrame st m t)

theorem heardKept_endFrame (st : Nat) (m : RequestMsg) (t : State) : HeardKept id t (endFrame st m t) :=
  .of_away ((endFrame_only st m t).mono (by decide))

theorem heardKept_replyFrame (src : Nat) (m : ReplyMsg) (t : State) : HeardKept id t (replyFrame src m t) :=
  .of_away ((replyFrame_only src m t).mono (by decide))

theorem heardKept_takeClear (n : PortNo) (x : Nat) (c : ClearCause) (t : State) : HeardKept id t (takeClear n x c t) :=
  .of_away ((takeClear_only n x c t).mono (by decide))

theorem heardKept_dialFrame (st : Nat) (m : DialMsg) (t : State) : HeardKept id t (dialFrame st m t) :=
  .of_wire ((dialFrame_only st m t).mono (by decide)) (rx_dialFrame st m t)

theorem heardKept_voiceFrame (src : Nat) (m : VoiceMsg) (t : State) : HeardKept id t (voiceFrame src m t) :=
  .of_wire ((voiceFrame_only src m t).mono (by decide)) (rx_voiceFrame src m t)

theorem heardKept_reportFrame (src : Nat) (r : FaultRecord) (t : State) : HeardKept id t (reportFrame src r t) :=
  .of_away ((reportFrame_only src r t).mono (by decide))

theorem heardKept_judgeReceipt (a b : Nat) (t : State) : HeardKept id t (judgeReceipt a b t) :=
  .of_away ((judgeReceipt_only a b t).mono (by decide))

theorem heardKept_dataFrame (src dst : Nat) (f : LinkFrame) (t : State) : HeardKept id t (dataFrame src dst f t) :=
  .of_away ((dataFrame_only src dst f t).mono (by decide))

theorem heardHold_lastgasp (q : Header) (m : GaspMsg) (x : Coded HoldState) :
    heardHold (.lastgasp q m) x ≠ .listed .holding := by
  cases x with
  | listed y => cases y <;> nofun
  | unlisted b => nofun

/-- The contents of no frame say how it was heard. -/
theorem heardKept_contents {c : Instr} {h : Header} (hc : frameHeader c = some h) (start : Tick)
    (heard : ∀ p, t.peer h.src = some p → p.hold = heardHold c h.hold) : HeardKept h.src t (contents c start t) := by
  cases c
  case beacon q m => cases hc; exact heardKept_beacon _ _ _ _ _
  case claim q x => cases hc; exact heardKept_claimHeard _ _ _
  case yield q m => cases hc; exact (heardKept_takeTracks _ _ _ _).trans (heardKept_yieldProfile m _)
  case lastgasp q m =>
    cases hc
    have gasped := (heardKept_gasped fun p there => by rw [heard p there]; exact heardHold_lastgasp _ _ _).trans
      (heardKept_takeGasp m.record _)
    show HeardKept h.src t (if m.held then _ else _)
    exact iteInduction
      (fun _ => gasped.trans ((heardKept_takeTracks _ _ _ _).trans (heardKept_adoptProfile _ _))) fun _ => gasped
  case halt q m => cases hc; exact heardKept_modPeer (fun _ => rfl) fun _ _ _ => rfl
  case seize q m => cases hc; exact heardKept_requestFrame _ _ _ _
  case answer q m => cases hc; exact heardKept_requestFrame _ _ _ _
  case leave q m => cases hc; exact heardKept_takeLeave _ _ _ _
  case offer q m => cases hc; exact heardKept_offerFrame _ _ _
  case accept q m => cases hc; exact heardKept_acceptFrame _ _ _
  case endCall q m => cases hc; exact heardKept_endFrame _ _ _
  case reply q m => cases hc; exact heardKept_replyFrame _ _ _
  case clear q m =>
    cases hc
    show HeardKept h.src t ((portOf m.port).elim t fun n => takeClear n m.ref m.cause t)
    cases portOf m.port with
    | none => exact .refl _ _
    | some n => exact heardKept_takeClear _ _ _ _
  case dial q m => cases hc; exact heardKept_dialFrame _ _ _
  case voice q m => cases hc; exact heardKept_voiceFrame _ _ _
  case report q r => cases hc; exact heardKept_reportFrame _ _ _
  case receipt q a b => cases hc; exact heardKept_judgeReceipt _ _ _
  case data q f => cases hc; exact heardKept_dataFrame _ _ _ _
  all_goals exact .refl _ _

/-! ## The rules up to the notices -/

theorem heardKept_settleEligible (s : State) : HeardKept id s (settleEligible s) := by
  have noted : HeardKept id s (s.modHold fun h => { h with eligible := s.eligibleNow }) :=
    .of_hold ((State.modHold_only _ _).mono (by decide)) rfl rfl rfl
  have more (f : Hold → Hold) (t : State) (roster : (f t.hold).roster = t.hold.roster)
      (lost : (f t.hold).lost = t.hold.lost) : HeardKept id t (t.modHold f) :=
    .of_hold ((State.modHold_only _ _).mono (by decide)) roster lost rfl
  unfold settleEligible
  split
  · exact .refl _ _
  · refine noted.trans ?_
    generalize s.modHold (fun h => { h with eligible := s.eligibleNow }) = t
    unfold eligibleRules
    split
    · exact more _ _ rfl rfl
    · exact more _ _ rfl rfl
    · exact heardKept_enterSeeking _
    · exact more _ _ rfl rfl
    · exact iteInduction (fun _ => heardKept_enterYielding _ _) fun _ => more _ _ rfl rfl
    · exact .refl _ _

theorem heardKept_settleDegraded (s : State) : HeardKept id s (settleDegraded s) := by
  unfold settleDegraded
  exact iteInduction (fun _ => heardKept_enterYielding _ _) fun _ => .refl _ _

theorem heardKept_holderTiming (old new : Option Nat) (s : State) : HeardKept id s (holderTiming old new s) := by
  unfold holderTiming
  split
  · exact .of_hold ((State.modHold_only _ _).mono (by decide)) rfl rfl rfl
  · have noted : HeardKept id s (s.modHold fun h => { h with noHolder := none }) :=
      .of_hold ((State.modHold_only _ _).mono (by decide)) rfl rfl rfl
    exact noted.trans (.of_away ((setCond_only _ _ _).mono (by decide)))
  · exact .refl _ _

theorem eachRelease_only (s : State) : Only [.wire, .ports, .call, .fault] s (s.eachPort (releaseHeld false)) :=
  Only.eachPort (fun n t => releaseHeld_only false n t) s

theorem heardKept_holderRules (s : State) : HeardKept id s (holderRules s) := by
  unfold holderRules
  split
  · exact iteInduction (fun _ => heardKept_enterSeeking _) fun _ => .refl _ _
  · exact .of_hold ((State.modHold_only _ _).mono (by decide)) rfl rfl rfl
  · exact heardKept_enterPassive _ _
  · exact heardKept_enterPassive _ _
  · exact .of_wire ((eachRelease_only s).mono (by decide)) (rx_eachPort rx_releaseHeld s)
  · exact .refl _ _

theorem heardKept_settleHolder (s : State) : HeardKept id s (settleHolder s) := by
  have noted : HeardKept id s (s.modHold fun h => { h with known := s.computeHolder }) :=
    .of_hold ((State.modHold_only _ _).mono (by decide)) rfl rfl rfl
  unfold settleHolder
  split
  · exact .refl _ _
  · exact noted.trans ((heardKept_holderTiming _ _ _).trans (heardKept_holderRules _))

theorem heardKept_droppedNotice (s : State) (b : Body) : HeardKept id s (droppedNotice s b) := by
  unfold droppedNotice
  split
  · exact iteInduction (fun _ => heardKept_enterSeeking _) fun _ => .refl _ _
  · refine iteInduction (fun _ => ?_) fun _ => .refl _ _
    unfold yieldDone
    exact iteInduction (fun _ => heardKept_enterPassive _ _) fun _ => heardKept_enterSeeking _
  · exact .of_away ((Only.eachPort (fun n t => requestDropped_only _ _ n t) s).mono (by decide))
  · exact .refl _ _

theorem heardKept_settleNotices (s : State) : HeardKept id s (settleNotices s) := by
  have cleared : HeardKept id s (s.modWire fun w => { w with dropped := [] }) :=
    .of_wire ((State.modWire_only _ _).mono (by decide)) rfl
  unfold settleNotices
  refine cleared.trans ?_
  generalize s.modWire (fun w => { w with dropped := [] }) = t
  generalize s.wire.dropped = l
  induction l generalizing t with
  | nil => exact .refl _ _
  | cons b l ih => exact (heardKept_droppedNotice t b).trans (ih _)

theorem heardKept_settleFirst (s : State) : HeardKept id s (settleFirst s) :=
  (heardKept_settleEligible s).trans ((heardKept_settleDegraded _).trans
    ((heardKept_settleHolder _).trans (heardKept_settleNotices _)))

/-! ## The known holder (R28) -/

/-- The known holder and the holder computed are what they were. -/
structure HolderKept (s t : State) : Prop where
  known : t.hold.known = s.hold.known
  computed : t.computeHolder = s.computeHolder

theorem HolderKept.trans (h : HolderKept s t) (k : HolderKept t u) : HolderKept s u :=
  ⟨k.known.trans h.known, k.computed.trans h.computed⟩

theorem computeHolder_unheld (roster : t.hold.roster = s.hold.roster)
    (free : s.holding = false) (free' : t.holding = false) : t.computeHolder = s.computeHolder := by
  rw [State.computeHolder, State.computeHolder, candidates_eq, candidates_eq, free, free', roster]
  rfl

theorem holderKept_unheld (known : t.hold.known = s.hold.known)
    (roster : t.hold.roster = s.hold.roster) (free : s.hold.state ≠ .holding) (free' : t.hold.state ≠ .holding) :
    HolderKept s t :=
  ⟨known, computeHolder_unheld roster (decide_eq_false free) (decide_eq_false free')⟩

theorem holderKept_holderRules (s : State) : HolderKept s (holderRules s) := by
  unfold holderRules
  split
  · next state _ =>
    refine iteInduction (fun _ => ?_) fun _ => ⟨rfl, rfl⟩
    exact holderKept_unheld rfl rfl (by rw [state]; nofun) nofun
  · next state _ =>
    exact holderKept_unheld rfl rfl (by rw [state]; nofun) (by show s.hold.state ≠ _; rw [state]; nofun)
  · next state _ => exact holderKept_unheld rfl rfl (by rw [state]; nofun) nofun
  · next state _ => exact holderKept_unheld rfl rfl (by rw [state]; nofun) nofun
  · next state _ =>
    have only := eachRelease_only s
    exact holderKept_unheld (by rw [only.hold]) (by rw [only.hold]) (by rw [state]; nofun)
      (by rw [only.hold, state]; nofun)
  · exact ⟨rfl, rfl⟩

theorem settleHolder_known (s : State) : (settleHolder s).hold.known = (settleHolder s).computeHolder := by
  unfold settleHolder
  split
  · next same => exact same.symm
  · obtain ⟨known, computed⟩ := holderKept_holderRules
      (holderTiming s.hold.known s.computeHolder (s.modHold fun h => { h with known := s.computeHolder }))
    have timed : HolderKept (s.modHold fun h => { h with known := s.computeHolder })
        (holderTiming s.hold.known s.computeHolder (s.modHold fun h => { h with known := s.computeHolder })) := by
      unfold holderTiming
      split
      · exact ⟨rfl, rfl⟩
      · refine ⟨by rw [(setCond_only _ _ _).hold]; rfl, ?_⟩
        have only := setCond_only .noHolder false
          ((s.modHold fun h => { h with known := s.computeHolder }).modHold fun h => { h with noHolder := none })
        exact (computeHolder_congr only.straps (by rw [only.hold]) (by rw [only.hold]) (by rw [only.call])).trans rfl
      · exact ⟨rfl, rfl⟩
    rw [known, computed, timed.known, timed.computed]
    rfl

theorem holderKept_droppedNotice (s : State) (b : Body) : HolderKept s (droppedNotice s b) := by
  unfold droppedNotice
  split
  · refine iteInduction (fun named => ?_) fun _ => ⟨rfl, rfl⟩
    exact holderKept_unheld rfl rfl (by rw [named.1]; nofun) nofun
  · refine iteInduction (fun state => ?_) fun _ => ⟨rfl, rfl⟩
    unfold yieldDone
    exact iteInduction (fun _ => holderKept_unheld rfl rfl (by rw [state]; nofun) nofun)
      fun _ => holderKept_unheld rfl rfl (by rw [state]; nofun) nofun
  · next k m =>
    have steady := steady_eachPort (f := requestDropped k m.tag) (fun n t => steady_requestDropped k m.tag n t) s
    exact ⟨by rw [steady.only.hold], steady.computeHolder⟩
  · exact ⟨rfl, rfl⟩

theorem holderKept_settleNotices (s : State) : HolderKept s (settleNotices s) := by
  have cleared : HolderKept s (s.modWire fun w => { w with dropped := [] }) := ⟨rfl, rfl⟩
  unfold settleNotices
  refine cleared.trans ?_
  generalize s.modWire (fun w => { w with dropped := [] }) = t
  generalize s.wire.dropped = l
  induction l generalizing t with
  | nil => exact ⟨rfl, rfl⟩
  | cons b l ih => exact (holderKept_droppedNotice t b).trans (ih _)

theorem settleFirst_known (s : State) : (settleFirst s).hold.known = (settleFirst s).computeHolder := by
  obtain ⟨known, computed⟩ := holderKept_settleNotices (settleHolder (settleDegraded (settleEligible s)))
  rw [settleFirst, known, computed, settleHolder_known]

end

end Sys2Proof.Machine
end

section
/-! PROOFS. Every heard frame of another station (R8, R23, R25, R27, R102). -/

namespace Sys2Proof.Machine

open Sys2Proof

section
variable {id : Nat} {s t u v : State} {h : Header} {start : Tick}

/-! ## The rules after the notices -/

theorem rx_settleRest (up : StaysUp s) : (settleRest s).wire.rx = s.wire.rx := by
  have addressed (t : State) : (addressHead t).wire.rx = t.wire.rx := by
    unfold addressHead
    split
    · split
      · split
        · rfl
        · split
          · split
            · rw [(uplinkTake_only _ _ _).wire]
              rfl
            · rfl
          · rfl
      · rfl
    · rfl
  have head : (settleDataHead s).wire.rx = s.wire.rx :=
    foldl_read (P := fun t : State => t.wire.rx) (fun t _ => addressed t) _ _
  have reports (t : State) : (settleReports t).wire.rx = t.wire.rx := by
    unfold settleReports
    split
    · rw [takeIn_wire]
    · unfold sendReport
      split
      · split
        · split
          · rw [rx_offerControl]
            rfl
          · rfl
        · rfl
      · rfl
  have middle : (settleMiddle s).wire.rx = s.wire.rx := by
    rw [settleMiddle_staysUp up, State.modPower_wire, (settleConds_only _).wire, head]
  have cleared (t : State) : (clearNotices t).wire.rx = t.wire.rx := rfl
  rw [settleRest, cleared, (settleTones_only _).wire, settleLater, (settleLamp_only _).wire, (settleLoss_only _).wire,
    (startOutpulse_only _).wire, (startTransfer_only _).wire, (mailboxOffer_only _).wire, reports, middle]

/-- The holder computed reads the record only as there or not. -/
theorem settleRest_computeHolder (up : StaysUp s) : (settleRest s).computeHolder = s.computeHolder := by
  have only := settleRest_only up
  obtain ⟨-, parties⟩ := settleRest_call s
  have record := congrArg Option.isSome parties
  rw [Option.isSome_map, Option.isSome_map] at record
  exact computeHolder_congr only.straps (by rw [only.hold]) (by rw [only.hold]) record

/-! ## The frame heard (R23, R27) -/

/-- The station as the hold controller has heard a frame. -/
def heardBy (src : Nat) (start : Tick) (hold : Coded HoldState) (s : State) : State :=
  heardFrame src start hold (received s)

theorem entryOf_heardBy (src : Nat) (start : Tick) (hold : Coded HoldState) (s : State) :
    entryOf src (heardBy src start hold s) = some (hold, 0, start) := by
  have roster : (heardBy src start hold s).hold.roster = hearIn src start hold s.hold.roster := rfl
  rw [entryOf, peer_eq, roster]
  obtain ⟨p, -, heard⟩ | heard := peerIn_hearIn_same src start hold s.hold.roster
  · rw [heard]
    rfl
  · rw [heard]
    rfl

theorem lost_heardBy (src : Nat) (start : Tick) (hold : Coded HoldState) (s : State) :
    src ∉ (heardBy src start hold s).hold.lost := by
  have lost : (heardBy src start hold s).hold.lost = s.hold.lost.filter fun i => decide (i ≠ src) := rfl
  rw [lost, List.mem_filter]
  exact fun no => absurd rfl (of_decide_eq_true no.2)

/-- The station before the end of the command in which it has heard a checked frame of another station. -/
theorem heardKept_dispatch {c : Instr} (hc : frameHeader c = some h) (other : h.src ≠ s.own)
    (tie : Option (BitVec 16)) :
    HeardKept h.src (heardBy h.src start (heardHold c h.hold) s)
      (dispatch { h with hold := heardHold c h.hold } tie (contents c) start (received s)) := by
  have known := heardKept_settleHolder (id := h.src) (heardBy h.src start (heardHold c h.hold) s)
  have away : ¬ h.src = (received s).own := other
  unfold dispatch
  rw [if_neg away]
  refine iteInduction (fun _ => known.trans (heardKept_contents hc start fun p there => ?_)) fun _ => known
  have entry := known.entry.trans (entryOf_heardBy _ _ _ _)
  rw [entryOf, there] at entry
  exact congrArg Prod.fst (Option.some.inj entry)

theorem heard_answers {c : Instr} (calm : Calm s) (awake : Awake s) (hear : Hearing s start)
    (hc : frameHeader c = some h) (other : h.src ≠ s.own) : Answers c s fun t =>
      (t.peer h.src).map (fun p => (p.hold, p.miss, p.lastHeard)) = some (heardHold c h.hold, 0, start) ∧
         h.src ∉ t.hold.lost ∧ t.wire.rx = none ∧ t.pins.carrier = false ∧ t.hold.known = t.computeHolder ∧
         t.cond .peerLost = !t.hold.lost.isEmpty := by
  have run := exec_contents s hc
  rw [frame_heard _ _ calm.active hear] at run
  have kept := (heardKept_dispatch (start := start) hc other (frameTie c)).trans (heardKept_settleFirst _)
  have known := settleFirst_known (dispatch { h with hold := heardHold c h.hold } (frameTie c) (contents c) start
    (received s))
  rw [finish_eq] at run
  generalize settleFirst (dispatch { h with hold := heardHold c h.hold } (frameTie c) (contents c) start
    (received s)) = v
    at run kept known
  have up : StaysUp v := staysUp_of_awake (by
    rw [Awake, kept.power, kept.pins]
    exact awake)
  have only := settleRest_only up
  refine answers_of run ⟨?_, ?_, ?_, ?_, ?_, ?_⟩
  · exact (entryOf_congr (by rw [only.hold])).trans (kept.entry.trans (entryOf_heardBy _ _ _ _))
  · rw [only.hold, kept.lost]
    exact lost_heardBy _ _ _ _
  · rw [rx_settleRest up, kept.rx]
    rfl
  · rw [only.pins, kept.pins]
    rfl
  · rw [only.hold, settleRest_computeHolder up, known]
  · have lost : (settleDataHead v).hold.lost = v.hold.lost := by rw [(settleDataHead_only v).hold]
    rw [settleRest_cond up, condWanted, lost, only.hold]

/-! ## A frame for another station (R8, R102) -/

theorem heardNow_only (h : Header) (start : Tick) (s : State) :
    Only [.pins, .wire, .hold, .ports, .outs] s (heardNow h start s) := by
  intro p hp
  cases p <;> first | rfl | exact absurd (by decide) hp

theorem overheard_answers {c : Instr} (calm : Calm s) (hear : Hearing s start) (fam : Familiar s h)
    (hc : frameHeader c = some h) (hold : heardHold c h.hold = h.hold) (other : h.src ≠ s.own) (single : h.dst ≠ 0)
    (away : h.dst ≠ s.own) : exec c s = .next (heardNow h start s) := by
  have run := exec_contents s hc
  rw [hold] at run
  rw [run, frame_familiar (frameTie c) (contents c) calm hear fam other, if_neg (not_or.mpr ⟨single, away⟩),
    finish_of_calm (calm_heardNow start calm fam)]

/-- Settles O21. -/
theorem heardFrameUpdatesRoster : Obligations.HeardFrameUpdatesRoster := by
  refine ⟨fun s c h start calm awake hear hc other => heard_answers calm awake hear hc other,
    fun s c h start calm hear fam hc hold other single away => ?_⟩
  refine answers_of (overheard_answers calm hear fam hc hold other single away) ⟨heardNow_only h start s, rfl, ?_, ?_⟩
  · have lost : s.hold.lost.filter (fun i => decide (i ≠ h.src)) = s.hold.lost :=
      List.filter_eq_self.mpr fun i hi => decide_eq_true fun same => fam.2 (same ▸ hi)
    have heard : (heardNow h start s).hold = { s.hold with
        roster := hearIn h.src start h.hold s.hold.roster
        lost := s.hold.lost.filter fun i => decide (i ≠ h.src) } := rfl
    rw [heard, lost]
  · intro fed
    have same (p : Port) : feedHolder h.src s.now p = fed p := by
      unfold feedHolder fed
      cases callRef : p.callRef with
      | none => rfl
      | some x =>
        cases x with
        | intercom st po ref l => rfl
        | outside k ref =>
          cases silence : p.silence with
          | none => exact if_neg fun no => nomatch no.2
          | some y =>
            by_cases named : k = h.src
            · simp [named]
            · simp only [named, false_and, if_false, ← silence, ← callRef]
    have ports : (heardNow h start s).ports =
        { s.ports with one := feedHolder h.src s.now s.ports.one, two := feedHolder h.src s.now s.ports.two } := rfl
    rw [ports, same, same]

end

end Sys2Proof.Machine
end

section
/-! PROOFS. The rules up to the notices leave eligibility, the degraded holder and the known holder settled (R28, R30,
R38; log 10). -/

set_option Elab.async false

namespace Sys2Proof.Machine

open Sys2Proof

section
variable {s t u : State}

/-! ## Held requests released away from the line (R97) -/

/-- Away from HOLDING a SEIZE or ANSWER changes nothing at the call controller (R112). -/
theorem judge_away (k : RequestKind) (st po cls : Nat) (away : s.holding = false) : (judge k st po cls s).1 = s := by
  have state : s.hold.state ≠ .holding := fun e => by simp [State.holding, e] at away
  unfold judge
  split
  · next here => exact absurd here state
  · rfl
  · rfl
  · rfl

theorem steady_takeAnswer (n : PortNo) (k : RequestKind) (h : Nat) (v : Verdict) (s : State) :
    Steady s (takeAnswer n k h v s) := by
  unfold takeAnswer
  split
  · exact steady_clearPort _ _ _ _
  · exact .refl s
  · split
    · exact steady_modPort _ _ _ (.inr (.inr ⟨nofun, nofun⟩))
    · exact steady_connectPort _ _ _

theorem steady_await (n : PortNo) (st : PortState) (q : Pending × OutReq) (now : Tick) (s : State) :
    Steady s (s.modPort n (Port.await now st q)) :=
  steady_modPort _ _ _ (.inr (.inr ⟨nofun, nofun⟩))

theorem steady_sendRequest (k : RequestKind) (dst : Nat) (m : RequestMsg) (s : State) :
    Steady s (sendRequest k dst m s) :=
  (steady_useTag s).trans (steady_offerControl _ _ nofun nofun)

theorem steady_makeSeize (n : PortNo) (k : RequestKind) (away : s.holding = false) : Steady s (makeSeize n k s) := by
  have judged := judge_away (s := useTag s) k s.own (portNo n) (s.portClass n) away
  unfold makeSeize
  split
  · exact steady_clearPort _ _ _ _
  · split
    · split
      · next answer => rw [answer] at judged; subst judged; exact (steady_useTag s).trans (steady_takeAnswer _ _ _ _ _)
      · next answer => rw [answer] at judged; subst judged; exact (steady_useTag s).trans (steady_await _ _ _ _ _)
    · exact (steady_await _ _ _ _ _).trans (steady_sendRequest _ _ _ _)

theorem steady_foldl_ring (r : Pending) (l : List PortNo) (s : State) :
    Steady s (l.foldl (fun s n => s.modPort n (Port.ring s.now r)) s) := by
  induction l generalizing s with
  | nil => exact .refl s
  | cons n l ih => exact (steady_modPort n (Port.ring s.now r) s (.inr (.inr ⟨nofun, nofun⟩))).trans (ih _)

theorem steady_takeOffer (st po : Nat) (tag : Option Nat) (takers : List PortNo) (s : State) :
    Steady s (takeOffer st po tag takers s) := by
  unfold takeOffer
  exact (steady_foldl_ring _ takers s).trans
    (.of_ports ((State.modCall_only _ _).mono (by decide)) (fun _ => .inl rfl) rfl)

theorem steady_makeOffer (n : PortNo) (st target : Nat) (s : State) : Steady s (makeOffer n st target s) := by
  unfold makeOffer
  split
  · unfold makeLocalOffer
    dsimp only
    split
    · exact steady_clearPort _ _ _ _
    · split
      · exact steady_clearPort _ _ _ _
      · split
        · exact (steady_takeOffer _ _ _ _ s).trans (steady_modPort _ _ _ (.inr (.inr ⟨nofun, nofun⟩)))
        · exact steady_clearPort _ _ _ _
  · split
    · exact steady_clearPort _ _ _ _
    · split
      · exact steady_clearPort _ _ _ _
      · exact (steady_await _ _ _ _ _).trans (steady_sendRequest _ _ _ _)

theorem steady_releaseHeld (all : Bool) (n : PortNo) (away : s.holding = false) : Steady s (releaseHeld all n s) := by
  unfold releaseHeld
  split
  · split
    · split
      · split
        · exact steady_makeOffer _ _ _ _
        · exact .refl s
      · exact steady_makeSeize _ _ away
    · exact .refl s
  · exact .refl s

theorem steady_eachRelease (all : Bool) (away : s.holding = false) : Steady s (s.eachPort (releaseHeld all)) := by
  unfold State.eachPort
  generalize s.fittedPorts = l
  induction l generalizing s with
  | nil => exact .refl s
  | cons n l ih =>
    have first := steady_releaseHeld all n away
    exact first.trans (ih (first.holding.trans away))

/-! ## Eligibility kept -/

/-- What the eligibility rule reads and writes is what it was. -/
structure EligibleKept (s t : State) : Prop where
  now : t.eligibleNow = s.eligibleNow
  noted : t.hold.eligible = s.hold.eligible

/-- What the rules of the eligibility and of the degraded holder read: a station that holds the line then held it
before, on the same terms. -/
structure LineKept (s t : State) : Prop extends EligibleKept s t where
  held : t.holding = true →
    s.holding = true ∧ t.hold.degraded = s.hold.degraded ∧ t.call.record.isNone = s.call.record.isNone

theorem EligibleKept.trans (h : EligibleKept s t) (k : EligibleKept t u) : EligibleKept s u :=
  ⟨k.now.trans h.now, k.noted.trans h.noted⟩

theorem LineKept.refl (s : State) : LineKept s s := ⟨⟨rfl, rfl⟩, fun h => ⟨h, rfl, rfl⟩⟩

theorem LineKept.trans (h : LineKept s t) (k : LineKept t u) : LineKept s u := by
  refine ⟨h.toEligibleKept.trans k.toEligibleKept, fun holding => ?_⟩
  obtain ⟨here, degraded, record⟩ := k.held holding
  obtain ⟨there, degraded', record'⟩ := h.held here
  exact ⟨there, degraded.trans degraded', record.trans record'⟩

/-- The eligibility of a station that is HALTED just when it was. -/
theorem eligibleNow_halted (straps : t.straps = s.straps) (power : t.power = s.power)
    (absent : t.cond .modemAbsent = s.cond .modemAbsent) (halted : t.halted = s.halted) :
    t.eligibleNow = s.eligibleNow := by
  simp only [State.eligibleNow, State.full, straps, power, absent, halted]

theorem Steady.lineKept (h : Steady s t) : LineKept s t := by
  have only := h.only
  refine ⟨⟨?_, by rw [only.hold]⟩, fun holding => ⟨h.holding ▸ holding, by rw [only.hold], by rw [h.record]⟩⟩
  rw [State.eligibleNow, State.eligibleNow, only.straps, h.full, h.rejoin, h.halted, State.cond, State.cond, only.fault]

/-- A change of the hold controller away from the line and from HALTED. -/
theorem lineKept_modHold {f : Hold → Hold} (halted : (f s.hold).state = .halted ↔ s.hold.state = .halted)
    (away : (f s.hold).state ≠ .holding) (noted : (f s.hold).eligible = s.hold.eligible) :
    LineKept s (s.modHold f) := by
  refine ⟨⟨eligibleNow_halted rfl rfl rfl ?_, noted⟩, fun holding => absurd (of_decide_eq_true holding) away⟩
  simp only [State.halted, State.modHold_hold, halted]

theorem lineKept_setCond {c : Cond} (b : Bool) (other : c ≠ .modemAbsent) (s : State) :
    LineKept s (setCond c b s) := by
  have only := setCond_only c b s
  refine ⟨⟨eligibleNow_congr only.straps only.power (setCond_cond_other b s other.symm) (by rw [only.hold]),
    by rw [only.hold]⟩, fun holding => ⟨?_, by rw [only.hold], by rw [only.call]⟩⟩
  rw [State.holding, only.hold] at holding
  exact holding

theorem lineKept_enterSeeking (awake : s.hold.state ≠ .halted) : LineKept s (enterSeeking s) :=
  lineKept_modHold (by simp [awake]) nofun rfl

theorem lineKept_enterPassive (f : Option Follow) (awake : s.hold.state ≠ .halted) : LineKept s (enterPassive f s) :=
  lineKept_modHold (by simp [awake]) nofun rfl

/-- Leaving the line for YIELDING changes no eligibility (R40). -/
theorem eligibleKept_enterYielding (c : Option ClearCause) (holding : s.holding = true) :
    EligibleKept s (enterYielding c s) := by
  have only := enterYielding_only c s
  have state := holding_iff.mp holding
  refine ⟨eligibleNow_halted only.straps only.power ?_ ?_, by rw [enterYielding_hold]⟩
  · have conds : (enterYielding c s).fault.conds = s.fault.conds := by
      rw [enterYielding, (offerControl_only _ _ _).fault]
      exact leaveHolding_conds c s
    rw [State.cond, conds, State.cond]
  · rw [State.halted, enterYielding_hold, State.halted, state]
    rfl

/-! ## Each rule -/

/-- After the eligibility rule the eligibility on record is the present one (R30). -/
theorem settleEligible_settled (s : State) : (settleEligible s).eligibleNow = (settleEligible s).hold.eligible := by
  have keeps {t : State} (k : EligibleKept (s.modHold fun h => { h with eligible := s.eligibleNow }) t) :
      t.eligibleNow = t.hold.eligible := by
    rw [k.now, k.noted]
    rfl
  unfold settleEligible
  split
  · next same => exact same
  · refine keeps ?_
    generalize s.modHold (fun h => { h with eligible := s.eligibleNow }) = t
    unfold eligibleRules
    split
    · exact ⟨rfl, rfl⟩
    · exact ⟨rfl, rfl⟩
    · next state _ => exact (lineKept_enterSeeking (by rw [state]; nofun)).toEligibleKept
    · exact ⟨rfl, rfl⟩
    · next state _ =>
      split
      · exact eligibleKept_enterYielding none (holding_iff.mpr state)
      · exact ⟨rfl, rfl⟩
    · exact ⟨rfl, rfl⟩

theorem eligibleKept_settleDegraded (s : State) : EligibleKept s (settleDegraded s) := by
  unfold settleDegraded
  split
  · next left =>
    simp only [Bool.and_eq_true] at left
    exact eligibleKept_enterYielding none left.1.1
  · exact ⟨rfl, rfl⟩

/-- After the degraded holder's rule no degraded holder is without a record (R38). -/
theorem settleDegraded_settled (s : State) :
    ((settleDegraded s).holding && (settleDegraded s).hold.degraded && (settleDegraded s).call.record.isNone) =
      false := by
  unfold settleDegraded
  split
  · rw [State.holding, enterYielding_state]
    rfl
  · next none => simpa only [Bool.not_eq_true] using none

theorem lineKept_holderTiming (old new : Option Nat) (s : State) : LineKept s (holderTiming old new s) := by
  have timed (x : Option Tick) (s : State) : LineKept s (s.modHold fun h => { h with noHolder := x }) :=
    ⟨⟨rfl, rfl⟩, fun h => ⟨h, rfl, rfl⟩⟩
  unfold holderTiming
  split
  · exact timed _ s
  · exact (timed none s).trans (lineKept_setCond (c := .noHolder) false nofun _)
  · exact .refl s

theorem lineKept_holderRules (s : State) : LineKept s (holderRules s) := by
  unfold holderRules
  split
  · next state _ =>
    split
    · exact lineKept_enterSeeking (by rw [state]; nofun)
    · exact .refl s
  · next state _ => exact lineKept_modHold Iff.rfl (by show s.hold.state ≠ _; rw [state]; nofun) rfl
  · next state _ => exact lineKept_enterPassive _ (by rw [state]; nofun)
  · next state _ => exact lineKept_enterPassive _ (by rw [state]; nofun)
  · next state _ => exact (steady_eachRelease false (by rw [State.holding, state]; rfl)).lineKept
  · exact .refl s

theorem lineKept_settleHolder (s : State) : LineKept s (settleHolder s) := by
  have noted : LineKept s (s.modHold fun h => { h with known := s.computeHolder }) :=
    ⟨⟨rfl, rfl⟩, fun h => ⟨h, rfl, rfl⟩⟩
  unfold settleHolder
  split
  · exact .refl s
  · exact noted.trans ((lineKept_holderTiming _ _ _).trans (lineKept_holderRules _))

theorem lineKept_droppedNotice (s : State) (b : Body) : LineKept s (droppedNotice s b) := by
  unfold droppedNotice
  split
  · split
    · next named => exact lineKept_enterSeeking (by rw [named.1]; nofun)
    · exact .refl s
  · split
    · next state =>
      unfold yieldDone
      split
      · exact lineKept_enterPassive _ (by rw [state]; nofun)
      · exact lineKept_enterSeeking (by rw [state]; nofun)
    · exact .refl s
  · exact (steady_eachPort (fun n t => steady_requestDropped _ _ n t) s).lineKept
  · exact .refl s

theorem lineKept_settleNotices (s : State) : LineKept s (settleNotices s) := by
  have cleared : LineKept s (s.modWire fun w => { w with dropped := [] }) := ⟨⟨rfl, rfl⟩, fun h => ⟨h, rfl, rfl⟩⟩
  unfold settleNotices
  refine cleared.trans ?_
  generalize s.modWire (fun w => { w with dropped := [] }) = t
  generalize s.wire.dropped = l
  induction l generalizing t with
  | nil => exact .refl t
  | cons b l ih => exact (lineKept_droppedNotice t b).trans (ih _)

/-! ## The rules together -/

/-- Eligibility, the degraded holder and the known holder have nothing left to do. -/
structure LineSettled (s : State) : Prop where
  eligible : s.eligibleNow = s.hold.eligible
  degraded : (s.holding && s.hold.degraded && s.call.record.isNone) = false
  holder : s.computeHolder = s.hold.known

theorem lineSettled_settleFirst (s : State) : LineSettled (settleFirst s) := by
  have kept : LineKept (settleDegraded (settleEligible s)) (settleFirst s) :=
    (lineKept_settleHolder _).trans (lineKept_settleNotices _)
  have before := (eligibleKept_settleDegraded (settleEligible s)).trans kept.toEligibleKept
  refine ⟨?_, ?_, (settleFirst_known s).symm⟩
  · rw [before.now, before.noted, settleEligible_settled]
  · cases holding : (settleFirst s).holding with
    | false => rfl
    | true =>
      obtain ⟨there, degraded, record⟩ := kept.held holding
      have settled := settleDegraded_settled (settleEligible s)
      rw [there] at settled
      rw [degraded, record]
      exact settled

end

end Sys2Proof.Machine
end

section
/-! PROOFS. Entry to WATCH (R45, R66, R169), and the rules from the data head to the idle timer: each leaves its own level
settled (log 10). -/

set_option Elab.async false

namespace Sys2Proof.Machine

open Sys2Proof

section
variable {s t : State}

/-! ## Entry to WATCH (R45, R66, R169) -/

/-- The wire controller emptied for WATCH: no receive, no round, and of the queues the frame in transmission alone. -/
def watchWire (w : Wire) : Wire :=
  { w with
    voice := flushQueue w.voice, control := flushQueue w.control, data := flushQueue w.data, rx := none, round := none
    errors := 0, dropped := w.dropped ++ (w.control.filter waiting).map (·.body) }

theorem enterWatch_power (s : State) :
    (enterWatch s).power = { s.power with state := .watch, idle := none, frontEnd := powerDown s } := by
  unfold enterWatch
  dsimp only
  rw [(setCond_only _ _ _).power, (setCond_only _ _ _).power, (setCond_only _ _ _).power]
  rfl

theorem enterWatch_noise (s : State) : (enterWatch s).noise = freshNoise := by
  unfold enterWatch
  dsimp only
  rw [(setCond_only _ _ _).noise, (setCond_only _ _ _).noise, (setCond_only _ _ _).noise]
  rfl

theorem enterWatch_wire (s : State) : (enterWatch s).wire = watchWire s.wire := by
  unfold enterWatch
  dsimp only
  rw [(setCond_only _ _ _).wire, (setCond_only _ _ _).wire, (setCond_only _ _ _).wire]
  rfl

/-- The conditions that entry to WATCH ends; the others stand. -/
theorem enterWatch_cond (s : State) (c : Cond) :
    (enterWatch s).cond c =
      if c = .noiseTracked ∨ c = .peerLost ∨ c = .noHolder then false else s.cond c := by
  unfold enterWatch
  dsimp only
  generalize hu : State.modHold _ _ = u
  have same : u.cond c = s.cond c := by subst hu; rfl
  rw [← same]
  cases c <;> simp (disch := decide) only [setCond_cond_same, setCond_cond_other, reduceCtorEq, or_false,
    or_true, if_true, if_false, or_self]

/-! ## The data head (R12) -/

/-- Addressing settles the head of the data queue, or takes it off the queue. -/
theorem addressHead_shortens (s : State) :
    headSettled (addressHead s) = true ∨ (addressHead s).wire.data.length + 1 = s.wire.data.length := by
  cases queue : s.wire.data with
  | nil =>
    have settled : headSettled s = true := by rw [headSettled, queue]
    rw [addressHead_of settled]
    exact .inl settled
  | cons e rest =>
    by_cases open_ : (e.dst.isNone && !e.inTx) = true
    · unfold addressHead
      simp only [queue, open_, if_true]
      split
      · exact .inr rfl
      · split
        · split
          · exact .inr (by rw [(uplinkTake_only _ _ _).wire]; rfl)
          · exact .inr rfl
        · exact .inl rfl
    · have settled : headSettled s = true := by
        rw [headSettled, queue]
        cases named : e.dst <;> cases sending : e.inTx <;> simp_all
      rw [addressHead_of settled]
      exact .inl settled

theorem headSettled_foldl : ∀ (l : List TxEntry) (s : State), s.wire.data.length ≤ l.length →
    headSettled (l.foldl (fun s _ => addressHead s) s) = true
  | [], s, short => by
    rw [List.foldl_nil, headSettled, List.length_eq_zero_iff.mp (Nat.le_zero.mp short)]
  | _ :: l, s, short => by
    rw [List.foldl_cons]
    rcases addressHead_shortens s with settled | shorter
    · rw [foldl_of_fixed fun _ _ => addressHead_of settled]
      exact settled
    · exact headSettled_foldl l _ (by simp only [List.length_cons] at short; omega)

theorem headSettled_settleDataHead (s : State) : headSettled (settleDataHead s) = true :=
  headSettled_foldl _ s (Nat.le_refl _)

/-! ## Conditions that follow a level (R27, R59, R104, R105, R134, R135) -/

theorem condsSettled_settleConds (s : State) : condsSettled (settleConds s) = true := by
  have only := settleConds_only s
  have parked : (settleConds s).anyParked = s.anyParked :=
    anyParked_congr only.cfg fun n => by rw [port_congr only.ports]
  have short : (settleConds s).anyShort = s.anyShort := anyShort_congr only.cfg fun n => by rw [only.pins]
  have full : (settleConds s).full = s.full := by rw [State.full, State.full, only.power]
  have holding : (settleConds s).holding = s.holding := by rw [State.holding, State.holding, only.hold]
  simp only [condsSettled, settleConds_cond, condWanted, only.noise, only.hold, only.pins, parked, short, full, holding,
    decide_true, Bool.and_true]
  cases s.holding <;> rfl

/-- The conditions stay settled as WATCH is entered (R45, R66). -/
theorem condsSettled_enterWatch (battery : s.power.state = .battery) (away : s.holding = false)
    (h : condsSettled s = true) : condsSettled (enterWatch s) = true := by
  have only := enterWatch_only s
  have parked : (enterWatch s).anyParked = s.anyParked :=
    anyParked_congr only.cfg fun n => by rw [port_congr only.ports]
  have short : (enterWatch s).anyShort = s.anyShort := anyShort_congr only.cfg fun n => by rw [only.pins]
  have dim : s.full = false := by simp [State.full, battery]
  have full : (enterWatch s).full = s.full := by rw [dim, State.full, enterWatch_power]; rfl
  have away' : (enterWatch s).holding = false := by
    rw [State.holding, enterWatch_hold, watchHold]
    dsimp only
    split <;> rfl
  have lost : (enterWatch s).hold.lost = [] := by rw [enterWatch_hold]; rfl
  have tracked : (enterWatch s).noise.tracked = 0 := by rw [enterWatch_noise]; rfl
  simp only [condsSettled, away, Bool.and_eq_true, decide_eq_true_eq, Bool.false_or] at h
  obtain ⟨⟨⟨⟨⟨-, mains⟩, low⟩, park⟩, loop⟩, line⟩ := h
  simp [condsSettled, enterWatch_cond, away', lost, tracked, full, parked, short, only.pins, mains, low, park, loop,
    line]

/-! ## The idle timer (R168) -/

theorem idleHolds_modPower (s : State) (x : Power → Option Tick) :
    (s.modPower fun p => { p with idle := x p }).idleHolds = s.idleHolds := rfl

theorem idleHolds_enterWatch (s : State) : (enterWatch s).idleHolds = false := by
  simp [State.idleHolds, enterWatch_power]

theorem idleSettled_settleIdle (s : State) : idleSettled (settleIdle s) = true := by
  unfold settleIdle
  split
  · next holds =>
    split
    · rw [idleSettled, idleHolds_enterWatch, enterWatch_power]
      rfl
    · next low =>
      rw [idleSettled, idleHolds_modPower, holds]
      simp [low]
  · next not =>
    rw [idleSettled, idleHolds_modPower, if_neg not]
    rfl

/-- The idle rule leaves all but the idle timer, or enters WATCH from BATTERY, away from the line. -/
theorem settleIdle_cases (s : State) : (∃ x, settleIdle s = s.modPower fun p => { p with idle := x }) ∨
    (settleIdle s = enterWatch s ∧ s.power.state = .battery ∧ s.holding = false) := by
  unfold settleIdle
  split
  · next holds =>
    split
    · simp only [State.idleHolds, Bool.and_eq_true, decide_eq_true_eq, Bool.not_eq_true', Bool.or_eq_false_iff] at holds
      exact .inr ⟨rfl, holds.1.1.1.1, holds.2.1.1⟩
    · exact .inl ⟨_, rfl⟩
  · exact .inl ⟨_, rfl⟩

theorem headSettled_flushQueue (data : t.wire.data = flushQueue s.wire.data) : headSettled t = true := by
  rw [headSettled, data]
  cases queue : flushQueue s.wire.data with
  | nil => rfl
  | cons e rest =>
    have member : e ∈ flushQueue s.wire.data := queue ▸ List.mem_cons_self
    obtain ⟨f, sending, rfl⟩ := List.mem_map.mp member
    simp [(List.mem_filter.mp sending).2]

theorem headSettled_settleIdle (h : headSettled s = true) : headSettled (settleIdle s) = true := by
  rcases settleIdle_cases s with ⟨x, e⟩ | ⟨e, -, -⟩
  · rw [e]
    exact h
  · rw [e]
    exact headSettled_flushQueue (s := s) (by rw [enterWatch_wire]; rfl)

theorem condsSettled_settleIdle (h : condsSettled s = true) : condsSettled (settleIdle s) = true := by
  rcases settleIdle_cases s with ⟨x, e⟩ | ⟨e, battery, away⟩
  · rw [e]
    exact h
  · rw [e]
    exact condsSettled_enterWatch battery away h

/-! ## The rules together -/

theorem settleMiddle_settled (s : State) : headSettled (settleMiddle s) = true ∧
    condsSettled (settleMiddle s) = true ∧ idleSettled (settleMiddle s) = true := by
  have head : headSettled (settleConds (settleDataHead s)) = true := by
    exact (headSettled_congr (by rw [(settleConds_only _).wire])).trans (headSettled_settleDataHead s)
  exact ⟨headSettled_settleIdle head, condsSettled_settleIdle (condsSettled_settleConds _), idleSettled_settleIdle _⟩

end

end Sys2Proof.Machine
end

section
/-! PROOFS. The rules from the reports to the tones each leave their own level settled and those before it, so that every
command of an active station ends with all of them settled (log 10). -/

set_option Elab.async false

namespace Sys2Proof.Machine

open Sys2Proof

section
variable {s t : State}

/-! ## The reports (R154, R158) -/

theorem placeReport_none {r : FaultRecord} {q : List FaultRecord} :
    placeReport r q = none ↔ q.any (sameKey r) = false ∧ Config.reportMax ≤ q.length := by
  unfold placeReport
  split
  · next there => simp [there]
  · next not =>
    split
    · next room => simp [Nat.not_le.mpr room]
    · next full => simpa [not] using Nat.not_lt.mp full

/-- A record that finds no room finds none after another has been placed (R157). -/
theorem placeReport_stays {r x : FaultRecord} {q q' : List FaultRecord} (placed : placeReport x q = some q')
    (noRoom : placeReport r q = none) : placeReport r q' = none := by
  obtain ⟨absent, full⟩ := placeReport_none.mp noRoom
  unfold placeReport at placed
  split at placed
  · cases placed
    refine placeReport_none.mpr ⟨?_, by simpa using full⟩
    rw [List.any_map, List.any_eq_false]
    intro e he
    have other := List.any_eq_false.mp absent e he
    dsimp only [Function.comp]
    split
    · next same =>
      simp only [sameKey, Bool.and_eq_true, decide_eq_true_eq] at same other ⊢
      rw [same.1, same.2]
      exact other
    · exact other
  · rw [if_neg (Nat.not_lt.mpr full)] at placed
    cases placed

theorem takeInList_stays {r : FaultRecord} : ∀ (l q : List FaultRecord), placeReport r q = none →
    placeReport r (takeInList l q).2 = none
  | [], _, noRoom => noRoom
  | x :: l, q, noRoom => by
    unfold takeInList
    split
    · split
      · next placed => exact takeInList_stays l _ (placeReport_stays placed noRoom)
      · exact takeInList_stays l q noRoom
    · exact takeInList_stays l q noRoom

/-- A holder's records that stay NEW found no room in its queue (R158). -/
theorem takeInList_settled : ∀ l q : List FaultRecord,
    ((takeInList l q).1.all fun r => !isNew r || (placeReport (asSent r) (takeInList l q).2).isNone) = true
  | [], _ => rfl
  | x :: l, q => by
    unfold takeInList
    split
    · split
      · rw [List.all_cons, takeInList_settled l _]
        rfl
      · next full =>
        rw [List.all_cons, takeInList_settled l q, takeInList_stays l q full]
        simp
    · next old =>
      rw [List.all_cons, takeInList_settled l q]
      simp [old]

theorem reportsSettled_settleReports (s : State) : reportsSettled (settleReports s) = true := by
  unfold settleReports
  split
  · next holding =>
    have still : (takeIn s).holding = true := holding
    rw [reportsSettled, if_pos still]
    exact takeInList_settled s.fault.list s.report.queue
  · next away =>
    have settled {t : State} (hold : t.hold = s.hold) (h : s.hold.known = none ∨ t.report.outstanding.isSome = true ∨
        (∃ k, s.hold.known = some k ∧ s.broadbandOf k = false) ∨ s.halted = true ∨
          (t.fault.list.all fun r => !isNew r) = true) : reportsSettled t = true := by
      have away' : ¬ t.holding = true := by rw [State.holding, hold]; exact away
      have halted : t.halted = s.halted := halted_congr (by rw [hold])
      rw [reportsSettled, if_neg away', hold, halted]
      rcases h with unknown | out | ⟨k, known, narrow⟩ | halted | none
      · rw [unknown]
      · split <;> simp [out]
      · have narrow' : t.broadbandOf k = false := by rw [← narrow]; simp only [State.broadbandOf, State.peer, hold]
        rw [known]
        simp [narrow']
      · split <;> simp [halted]
      · split <;> simp only [none, Bool.or_true]
    unfold sendReport
    split
    · next k known =>
      split
      · split
        · refine settled (by rw [(offerControl_only _ _ _).hold]; rfl) (.inr (.inl ?_))
          rw [(offerControl_only _ _ _).report]
          rfl
        · next none =>
          refine settled rfl (.inr (.inr (.inr (.inr (List.all_eq_true.mpr fun r hr => ?_)))))
          simpa using List.find?_eq_none.mp none r hr
      · next not =>
        simp only [Bool.and_eq_true, Bool.not_eq_true', not_and_or, Bool.not_eq_true, Option.isNone_eq_false_iff,
          Bool.not_eq_false] at not
        obtain (out | narrow) | halted := not
        · exact settled rfl (.inr (.inl out))
        · exact settled rfl (.inr (.inr (.inl ⟨k, known, narrow⟩)))
        · exact settled rfl (.inr (.inr (.inr (.inl halted))))
    · next unknown => exact settled rfl (.inl unknown)

/-! ## The mailbox, the upstream transfer and the exchange loop (R81, R86, R119, R124) -/

theorem offerSettled_mailboxOffer (s : State) : offerSettled (mailboxOffer s) = true := by
  unfold mailboxOffer
  split
  · split
    · simp [offerSettled, State.emit, State.modSup]
    · next not => simp only [offerSettled, Bool.not_eq_true _ ▸ not, Bool.not_false, Bool.or_true]
  · next empty => simp [offerSettled, empty]

/-- The transfer's rule leaves of the supervisor all that the mailbox reads. -/
theorem startTransfer_mailbox (s : State) :
    (startTransfer s).sup.state = s.sup.state ∧ (startTransfer s).sup.mailbox = s.sup.mailbox := by
  unfold startTransfer
  split
  · split <;> exact ⟨rfl, rfl⟩
  · exact ⟨rfl, rfl⟩

theorem transferSettled_startTransfer (s : State) : transferSettled (startTransfer s) = true := by
  unfold startTransfer
  split
  · split
    · simp [transferSettled, State.emit, State.modSup]
    · next not => simp only [transferSettled, Bool.not_eq_true _ ▸ not, Bool.not_false, Bool.or_true]
  · next empty => simp [transferSettled, empty]

theorem firstBreak_busy (now : Tick) (i : DialItem) : firstBreak now i ≠ .idle := by cases i <;> nofun

theorem outpulseSettled_startOutpulse (s : State) : outpulseSettled (startOutpulse s) = true := by
  cases record : s.call.record with
  | none => simp [startOutpulse, record, outpulseSettled]
  | some r =>
    have free (x : CallRecord) (h : x = r.started s.now) :
        (x.queue.isEmpty || !(x.seized && decide (x.outpulse = .idle))) = true := by
      subst h
      unfold CallRecord.started
      split
      · split
        · simp [firstBreak_busy]
        · next not => simp only [Bool.not_eq_true _ ▸ not, Bool.not_false, Bool.or_true]
      · next empty => simp [empty]
    rw [outpulseSettled, startOutpulse_record record]
    exact free _ rfl

theorem settleLoss_none (record : s.call.record = none) : (settleLoss s).call.record = none := by
  rw [settleLoss, modRecord, State.modCall_call, record]
  rfl

theorem outpulseSettled_settleLoss (h : outpulseSettled s = true) : outpulseSettled (settleLoss s) = true := by
  cases record : s.call.record with
  | none => rw [outpulseSettled, settleLoss_none record]
  | some r =>
    rw [outpulseSettled, record] at h
    rw [outpulseSettled, settleLoss_record record]
    exact h

theorem lossSettled_settleLoss (s : State) : lossSettled (settleLoss s) = true := by
  cases record : s.call.record with
  | none => rw [lossSettled, settleLoss_none record]
  | some r =>
    have after := settleLoss_record record
    have loop : (settleLoss s).loopClosed = s.loopClosed := by rw [State.loopClosed, State.loopClosed, after, record]
    rw [lossSettled, after]
    simp only [loop, (settleLoss_only s).pins, decide_eq_true_eq, lossNow]
    cases r.seized && s.loopClosed && !s.pins.loopCurrent <;> rfl

/-! ## The lamp and the tones (R93, R147, R148) -/

theorem settleLamp_shape (s : State) :
    ∃ l k a, settleLamp s = s.modFault fun m => { m with lamp := l, lampStep := k, lampAt := a } := by
  unfold settleLamp
  split
  · exact ⟨_, _, _, rfl⟩
  · exact ⟨_, _, _, rfl⟩

theorem lampSettled_settleLamp (s : State) : (settleLamp s).lampWanted = (settleLamp s).fault.lamp := by
  unfold settleLamp
  split
  · next same => exact same
  · rfl

theorem toneSettled_tonePort (n : PortNo) (s : State) : toneSettled (tonePort n s) n = true := by
  have dial : (tonePort n s).dialTone = s.dialTone := dialTone_eq_of_fault (tonePort_only n s).fault
  rw [toneSettled, dial]
  unfold tonePort
  rw [State.port_modPort_same]
  split
  · simp [Port.setTone]
  · next not =>
    by_cases same : (s.port n).tone = s.dialTone
    · simp [same]
    · have other : ¬ ((s.port n).tone = .dial ∨ (s.port n).tone = .stutter) := fun h => not ⟨h, same⟩
      simp [not_or.mp other]

theorem toneSettled_tonePort_other {n m : PortNo} (h : toneSettled s n = true) :
    toneSettled (tonePort m s) n = true := by
  by_cases same : n = m
  · subst same
    exact toneSettled_tonePort n s
  · have dial : (tonePort m s).dialTone = s.dialTone := dialTone_eq_of_fault (tonePort_only m s).fault
    have port : (tonePort m s).port n = s.port n := State.port_modPort_other _ s same
    rw [toneSettled, dial, port]
    exact h

theorem tonesSettled_settleTones (s : State) :
    (settleTones s).fittedPorts.all (toneSettled (settleTones s)) = true := by
  have cfg := (settleTones_only s).cfg
  rw [State.fittedPorts, cfg, settleTones_eq]
  split
  · simp [toneSettled_tonePort, toneSettled_tonePort_other]
  · simp [toneSettled_tonePort]

/-- Of what the other rules read, the tones' rule leaves all. -/
theorem settleTones_read (s : State) : (settleTones s).anyParked = s.anyParked ∧
    (settleTones s).idleHolds = s.idleHolds := by
  have only := settleTones_only s
  have kept (n : PortNo) : ((settleTones s).port n).state = (s.port n).state ∧
      portIdle ((settleTones s).port n) = portIdle (s.port n) := by
    rcases port_settleTones s n with e | ⟨-, e⟩ <;> rw [e] <;> exact ⟨rfl, rfl⟩
  have one : portIdle (settleTones s).ports.one = portIdle s.ports.one := (kept .one).2
  have two : portIdle (settleTones s).ports.two = portIdle s.ports.two := (kept .two).2
  refine ⟨anyParked_congr only.cfg fun n => (kept n).1, ?_⟩
  rw [State.idleHolds, one, two]
  simp only [State.live, State.holding, only.power, only.hold, State.idleHolds]

/-! ## The levels read by parts of the state -/

theorem idleSettled_congr (idle : t.idleHolds = s.idleHolds) (power : t.power = s.power) (pins : t.pins = s.pins) :
    idleSettled t = idleSettled s := by
  rw [idleSettled, idleSettled, idle, power, pins]

theorem reportsSettled_congr (hold : t.hold = s.hold) (list : t.fault.list = s.fault.list)
    (report : t.report = s.report) : reportsSettled t = reportsSettled s := by
  have holding : t.holding = s.holding := by rw [State.holding, State.holding, hold]
  have halted : t.halted = s.halted := halted_congr (by rw [hold])
  have broad (k : Nat) : t.broadbandOf k = s.broadbandOf k := by rw [State.broadbandOf, State.peer, hold]; rfl
  simp only [reportsSettled, holding, halted, broad, hold, list, report]

theorem offerSettled_congr (hold : t.hold = s.hold) (report : t.report = s.report)
    (state : t.sup.state = s.sup.state) (mailbox : t.sup.mailbox = s.sup.mailbox) :
    offerSettled t = offerSettled s := by
  simp only [offerSettled, State.holding, hold, report, state, mailbox]

theorem transferSettled_congr (sup : t.sup = s.sup) (pins : t.pins = s.pins) :
    transferSettled t = transferSettled s := by
  rw [transferSettled, transferSettled, sup, pins]

theorem outpulseSettled_congr (call : t.call = s.call) : outpulseSettled t = outpulseSettled s := by
  rw [outpulseSettled, outpulseSettled, call]

theorem lossSettled_congr (call : t.call = s.call) (pins : t.pins = s.pins) : lossSettled t = lossSettled s := by
  rw [lossSettled, State.loopClosed, call, pins]
  rfl

/-! ## The rules together -/

/-- What the rules from the reports on leave of what the rules before them read. -/
theorem settleLater_read (s : State) : (settleLater s).wire.data = s.wire.data ∧
    (settleLater s).fault.conds = s.fault.conds := by
  refine ⟨?_, settleLater_conds s⟩
  have reports (t : State) : (settleReports t).wire.data = t.wire.data := by
    unfold settleReports
    split
    · rw [takeIn_wire]
    · exact sendReport_data t
  rw [settleLater, (settleLamp_only _).wire, (settleLoss_only _).wire, (startOutpulse_only _).wire,
    (startTransfer_only _).wire, (mailboxOffer_only _).wire, reports]

/-- The levels that the rules from the reports to the lamp settle. -/
structure LaterSettled (s : State) : Prop where
  reports : reportsSettled s = true
  offer : offerSettled s = true
  transfer : transferSettled s = true
  outpulse : outpulseSettled s = true
  loss : lossSettled s = true
  lamp : s.lampWanted = s.fault.lamp

theorem laterSettled_settleLater (s : State) : LaterSettled (settleLater s) := by
  have reports := reportsSettled_settleReports s
  have offer := offerSettled_mailboxOffer (settleReports s)
  have transfer := transferSettled_startTransfer (mailboxOffer (settleReports s))
  have outpulse := outpulseSettled_startOutpulse (startTransfer (mailboxOffer (settleReports s)))
  have loss := lossSettled_settleLoss (startOutpulse (startTransfer (mailboxOffer (settleReports s))))
  have kept := startTransfer_mailbox (mailboxOffer (settleReports s))
  have box := mailboxOffer_only (settleReports s)
  unfold settleLater
  generalize settleReports s = a at *
  generalize mailboxOffer a = b at *
  have began := startTransfer_only b
  generalize startTransfer b = c at *
  have dialled := startOutpulse_only c
  generalize startOutpulse c = d at *
  have lost := settleLoss_only d
  have busy := outpulseSettled_settleLoss outpulse
  generalize settleLoss d = e at *
  have calls : Only [.call] c e := lost.after dialled (by decide)
  have lamp := lampSettled_settleLamp e
  obtain ⟨l, k, x, shape⟩ := settleLamp_shape e
  rw [shape] at lamp ⊢
  have sent : Only [.sup, .call, .outs] a c := (began.after box (by decide)).mono (by decide)
  have all : Only [.sup, .call, .outs] a e := calls.after sent (by decide)
  refine ⟨?_, ?_, ?_, busy, loss, lamp⟩
  · exact (reportsSettled_congr (s := a) all.hold (by rw [← all.fault]) all.report).trans reports
  · refine (offerSettled_congr (s := b) ?_ ?_ ?_ ?_).trans offer
    · exact calls.hold.trans began.hold
    · exact calls.report.trans began.report
    · exact (congrArg Sup.state calls.sup).trans kept.1
    · exact (congrArg Sup.mailbox calls.sup).trans kept.2
  · exact (transferSettled_congr (s := c) calls.sup calls.pins).trans transfer

theorem restSettled_settleRest (s : State) : RestSettled (settleRest s) := by
  obtain ⟨head, conds, idle⟩ := settleMiddle_settled s
  have later := laterSettled_settleLater (settleMiddle s)
  obtain ⟨data, stand⟩ := settleLater_read (settleMiddle s)
  have only := settleLater_only (settleMiddle s)
  unfold settleRest
  generalize settleLater (settleMiddle s) = v at *
  have tones := tonesSettled_settleTones v
  have toned := settleTones_only v
  obtain ⟨parked, holds⟩ := settleTones_read v
  generalize settleTones v = w at *
  have power : w.power = (settleMiddle s).power := toned.power.trans only.power
  have hold : w.hold = (settleMiddle s).hold := toned.hold.trans only.hold
  have pins : w.pins = (settleMiddle s).pins := toned.pins.trans only.pins
  have cfg : w.cfg = (settleMiddle s).cfg := toned.cfg.trans only.cfg
  refine RestSettled.clearNotices ⟨⟨?_, ?_, ?_, ?_, ?_, ?_, ?_, ?_, tones⟩, ?_⟩
  · exact (headSettled_congr (by rw [toned.wire, data])).trans head
  · refine condsSettled_congr (s := settleMiddle s) (by rw [toned.fault, stand]) ?_ (by rw [hold]) ?_ (by rw [pins]) ?_
      ?_ ?_ conds
    · rw [toned.noise, only.noise]
    · rw [State.full, State.full, power]
    · exact parked.trans (anyParked_congr only.cfg fun n => by rw [port_congr only.ports])
    · exact anyShort_congr cfg fun n => by rw [pins]
    · rw [State.holding, State.holding, hold]
  · exact (reportsSettled_congr toned.hold (by rw [toned.fault]) toned.report).trans later.reports
  · exact (offerSettled_congr toned.hold toned.report (by rw [toned.sup]) (by rw [toned.sup])).trans later.offer
  · exact (transferSettled_congr toned.sup toned.pins).trans later.transfer
  · exact (outpulseSettled_congr toned.call).trans later.outpulse
  · exact (lossSettled_congr toned.call toned.pins).trans later.loss
  · rw [lampWanted_congr toned.hold toned.fault, toned.fault]
    exact later.lamp
  · refine (idleSettled_congr ?_ power pins).trans idle
    exact holds.trans (idleHolds_congr only.power only.ports (by rw [only.hold]))

/-- The rules after the notices leave the first rules settled: WATCH, which ends the known holder, is entered away from
the line, from BATTERY (R45, R169). -/
theorem lineSettled_settleRest (h : LineSettled s) : LineSettled (settleRest s) := by
  have before : Only [.wire, .sup, .fault, .report] s (settleConds (settleDataHead s)) :=
    (settleConds_only _).after ((settleDataHead_only s).mono (by decide)) (by decide)
  have after : Only [.wire, .sup, .ports, .call, .fault, .report, .outs] (settleMiddle s) (settleRest s) :=
    (clearNotices_only _).after ((settleTones_only _).after ((settleLater_only _).mono (by decide)) (by decide))
      (by decide)
  have absent : (settleRest s).cond .modemAbsent = s.cond .modemAbsent := settleRest_cond_other s rfl
  have record := congrArg Option.isSome (settleRest_call s).2
  simp only [Option.isSome_map] at record
  have kept := after.straps
  have middle := (settleMiddle_only s).straps
  have straps : (settleRest s).straps = s.straps := kept.trans middle
  rcases settleIdle_cases (settleConds (settleDataHead s)) with ⟨x, e⟩ | ⟨e, battery, away⟩
  · have hold : (settleRest s).hold = s.hold := by rw [after.hold, settleMiddle, e, State.modPower_hold, before.hold]
    have power : (settleRest s).power = { s.power with idle := x } := by
      rw [after.power, settleMiddle, e, State.modPower_power, before.power]
    have full : (settleRest s).full = s.full := by rw [State.full, power]; rfl
    have halted : (settleRest s).halted = s.halted := halted_congr (by rw [hold])
    have holding : (settleRest s).holding = s.holding := by rw [State.holding, State.holding, hold]
    refine ⟨?_, ?_, ?_⟩
    · rw [← h.eligible.trans (by rw [hold] : s.hold.eligible = (settleRest s).hold.eligible), State.eligibleNow,
        State.eligibleNow, straps, full, absent, halted, power]
    · rw [← h.degraded, holding, hold, ← Option.not_isSome, ← Option.not_isSome, record]
    · rw [computeHolder_congr straps (by rw [hold]) (by rw [hold]) record, hold]
      exact h.holder
  · have hold : (settleRest s).hold = watchHold s.hold := by
      rw [after.hold, settleMiddle, e, enterWatch_hold, before.hold]
    have power : (settleRest s).power.state = .watch := by rw [after.power, settleMiddle, e, enterWatch_power]
    have dim : s.full = false := by rw [before.power] at battery; simp [State.full, battery]
    have away' : (settleRest s).holding = false := by
      rw [State.holding, hold, watchHold]
      dsimp only
      split <;> rfl
    refine ⟨?_, by rw [away']; rfl, ?_⟩
    · have noted : (settleRest s).hold.eligible = s.hold.eligible := by rw [hold]; rfl
      rw [noted, ← h.eligible]
      simp [State.eligibleNow, State.full, power, show s.power.state ≠ .full by simpa [State.full] using dim]
    · rw [State.computeHolder, candidates_eq, away', hold]
      rfl

/-- A command's end opens no last-gasp window, and closes none. -/
theorem finish_window (s : State) : (finish s).power.window = s.power.window := by
  have first : Only [.wire, .hold, .sup, .ports, .call, .fault, .report, .outs] s (settleFirst s) :=
    (settleNotices_only _).after ((settleHolder_only _).after ((settleDegraded_only _).after (settleEligible_only s)
      (by decide)) (by decide)) (by decide)
  have before : Only [.wire, .sup, .fault, .report] (settleFirst s) (settleConds (settleDataHead (settleFirst s))) :=
    (settleConds_only _).after ((settleDataHead_only _).mono (by decide)) (by decide)
  have after : Only [.wire, .sup, .ports, .call, .fault, .report, .outs] (settleMiddle (settleFirst s)) (finish s) :=
    (clearNotices_only _).after ((settleTones_only _).after ((settleLater_only _).mono (by decide)) (by decide))
      (by decide)
  rw [after.power, settleMiddle]
  rcases settleIdle_cases (settleConds (settleDataHead (settleFirst s))) with ⟨x, e⟩ | ⟨e, -, -⟩
  · rw [e, State.modPower_power, before.power, first.power]
  · rw [e, enterWatch_power, before.power, first.power]

theorem finish_active (s : State) : (finish s).active = s.active := by
  rw [State.active, (finish_only s).phase, finish_window, State.active]

/-- However a command has left an active station, its end leaves every level rule settled. -/
theorem calm_finish (active : (finish s).active = true) : Calm (finish s) := by
  have line : LineSettled (finish s) := lineSettled_settleRest (lineSettled_settleFirst s)
  have dropped : (finish s).wire.dropped = [] := rfl
  exact calm_of active (.of_none line.eligible line.degraded line.holder dropped) dropped
    (restSettled_settleRest (settleFirst s))

end

end Sys2Proof.Machine
end

section
/-! PROOFS. Every step leaves a running station settled: a command ends with the level rules, or finds no running station
outside the last-gasp window (log 10). -/

set_option Elab.async false

namespace Sys2Proof.Machine

open Sys2Proof

section
variable {s : State} {f : State → State}

/-! ## The wrappers of a meaning -/

/-- Settled, unless it takes no commands. -/
def CalmIfActive (s : State) : Prop := s.active = true → Calm s

theorem active_iff : s.active = true ↔ s.phase = .running ∧ s.power.window = none := by
  simp [State.active]

theorem calmIfActive_of_inactive (inactive : s.active = false) : CalmIfActive s :=
  fun active => absurd (inactive.symm.trans active) nofun

/-- A station in start-up, or one that has stopped, is not active. -/
theorem calmIfActive_of_phase (phase : s.phase = .startUp ∨ s.phase = .stopped) : CalmIfActive s :=
  fun active => absurd (active_iff.mp active).1 (by rcases phase with e | e <;> rw [e] <;> nofun)

/-- A command ends settled, or at a station that takes none. -/
theorem calm_running (f : State → State) (s : State) : CalmIfActive (running f s) := by
  unfold running
  exact iteInduction (fun _ => calm_finish) fun inactive =>
    calmIfActive_of_inactive (s := s.quiet) (Bool.not_eq_true _ ▸ inactive)

theorem window_of_inactive (inactive : ¬ s.active = true) (phase : s.phase = .running) :
    s.power.window.isSome = true := by
  cases isOpen : s.power.window with
  | none => exact absurd (active_iff.mpr ⟨phase, isOpen⟩) inactive
  | some x => rfl

theorem inactive_of_window (window : s.power.window.isSome = true) : s.active = false := by
  rw [State.active, ← Option.not_isSome, window, Bool.not_true, Bool.and_false]

/-- An event on the wire that leaves an open last-gasp window open. -/
theorem calm_onWire (s : State)
    (window : ∀ t : State, t.power.window.isSome = true → (f t).power.window.isSome = true) :
    CalmIfActive (onWire f s) := by
  unfold onWire
  refine iteInduction (fun _ => calm_finish) fun inactive => iteInduction (fun phase => ?_) fun _ =>
    calmIfActive_of_inactive (s := s.quiet) (Bool.not_eq_true _ ▸ inactive)
  refine calmIfActive_of_inactive (inactive_of_window ?_)
  rw [(clearNotices_only _).power]
  exact window s.quiet (window_of_inactive inactive phase)

/-- What the service port answers in start-up does not end it. -/
theorem serve_starting (q : SvcReq) (s : State) : Only [.svc, .outs] s (serve takeStarting q s) := by
  unfold serve
  exact iteInduction (fun _ => (State.modSvc_only _ _).mono (by decide)) fun _ => takeStarting_only q s

theorem serveNext_starting (s : State) : Only [.svc, .outs] s (serveNext takeStarting s) := by
  unfold serveNext
  split
  · exact iteInduction
      (fun _ => (takeStarting_only _ _).after ((State.modSvc_only _ _).mono (by decide)) (by decide))
      fun _ => (respond_only _ _).after ((State.modSvc_only _ _).mono (by decide)) (by decide)
  · exact (State.modSvc_only _ _).mono (by decide)

theorem calm_request (q : SvcReq) (s : State) : CalmIfActive (request q s) := by
  unfold request
  refine iteInduction (fun starting => calmIfActive_of_phase (.inl ?_)) fun _ => calm_running _ s
  exact (serve_starting q s.quiet).phase.trans starting

/-! ## Events on the wire in an open window (R172) -/

theorem window_of_only {ps : List Part} {t u : State} (only : Only ps t u) (h : Part.power ∉ ps := by decide)
    (window : t.power.window.isSome = true) : u.power.window.isSome = true := by
  rw [only.power h]
  exact window

theorem closeFront_window (s : State) : (closeFront s).power.window = s.power.window := by
  unfold closeFront
  split <;> rfl

theorem transmitted_window (b : Body) (s : State) : (transmitted b s).power.window = s.power.window := by
  unfold transmitted
  split
  · split <;> rfl
  · split
    · split <;> rfl
    · split
      · rw [(yieldDone_only s).power]
      · rfl
    · rfl

theorem transmissionEnd_window (s : State) : (transmissionEnd s).power.window = s.power.window := by
  unfold transmissionEnd
  split
  · rw [closeFront_window, State.modWire_power]
    split
    · rw [(flushedEnd_only _ _ s).power]
    · rw [transmitted_window, (removeTx_only _ s).power]
  · rfl

theorem gaspDropped_window (e : TxEntry) (s : State) : (gaspDropped e s).power.window = s.power.window := by
  unfold gaspDropped
  split <;> rfl

theorem collided_window (s : State) : (collided s).power.window = s.power.window := by
  unfold collided
  split
  · next c e _ =>
    have before : (closeFront (gaspDropped e ((collideFrame c e s).modWire fun w =>
        { w with collided := w.collided + 1 }))).power.window = s.power.window := by
      rw [closeFront_window, gaspDropped_window, State.modWire_power, (collideFrame_only c e s).power]
    dsimp only
    split
    · rw [(enterHalted_only _ _).power, before]
    · exact before
  · rfl

theorem calm_frameEnd (count : Nat → Nat) (s : State)
    (window : ∀ t : State, t.power.window.isSome = true → (f t).power.window.isSome = true) :
    CalmIfActive (frameEnd count f s) := by
  unfold frameEnd
  refine iteInduction (fun starting => calmIfActive_of_phase (.inl ?_)) fun _ => calm_onWire s window
  exact (outlivedEnd_only count s.quiet).phase.trans starting

/-! ## Starts, stops and the clock -/

/-- A station whose last-gasp window has opened takes no commands but those of the wire (R172). -/
theorem calm_openWindow (s : State) : CalmIfActive (clearNotices (openWindow s)) :=
  calmIfActive_of_inactive (inactive_of_window (by rw [(clearNotices_only _).power]; rfl))

theorem calm_resetChip (p : StrapPins) (s : State) : CalmIfActive (resetChip p s) := by
  unfold resetChip
  exact iteInduction (fun _ => calmIfActive_of_phase (.inl rfl)) fun _ => iteInduction
    (fun window => calmIfActive_of_inactive (inactive_of_window (s := s.quiet) window))
    fun _ => calmIfActive_of_phase (.inl rfl)

theorem calm_configRead (r : ConfigRead) (i : Bool) (calm : CalmIfActive s) : CalmIfActive (configRead r i s) := by
  unfold configRead
  exact iteInduction (fun _ => iteInduction (fun _ => calm_openWindow _) fun _ => calm_finish) fun _ => calm

theorem calm_batteryEmptied (s : State) : CalmIfActive (batteryEmptied s) := by
  unfold batteryEmptied
  exact iteInduction (fun _ => calm_openWindow _) fun inactive =>
    calmIfActive_of_inactive (s := s.quiet) (Bool.not_eq_true _ ▸ inactive)

theorem calm_windowEnd (calm : CalmIfActive s) : CalmIfActive (windowEnd s) := by
  unfold windowEnd
  exact iteInduction (fun _ => calmIfActive_of_phase (.inr rfl)) fun _ => calm

/-- A fall of battery empty is read by the next start alone (R165, log 16). -/
theorem calm_emptyFell (calm : Calm s) : Calm (s.tell fun p => { p with battEmpty := false }).quiet := by
  have first := calm.first
  have rest := calm.rest
  refine calm_of calm.active (.of_none first.eligible first.degraded first.holder calm.dropped) calm.dropped
    ⟨⟨rest.head, ?_, rest.reports, rest.offer, rest.transfer, rest.outpulse, rest.loss, rest.lamp, rest.tones⟩,
      rest.idle⟩
  have short : (s.tell fun p => { p with battEmpty := false }).quiet.anyShort = s.anyShort :=
    anyShort_congr rfl fun n => by cases n <;> rfl
  exact condsSettled_congr (s := s) rfl rfl rfl rfl rfl rfl short rfl rest.conds

/-- A fall of SEND-OK starts no transfer (R81, log 17). -/
theorem calm_sendOkFell (calm : Calm s) : Calm (s.tell fun p => { p with sendOk := false }).quiet := by
  have first := calm.first
  have rest := calm.rest
  refine calm_of calm.active (.of_none first.eligible first.degraded first.holder calm.dropped) calm.dropped
    ⟨⟨rest.head, ?_, rest.reports, rest.offer, ?_, rest.outpulse, rest.loss, rest.lamp, rest.tones⟩, rest.idle⟩
  · have short : (s.tell fun p => { p with sendOk := false }).quiet.anyShort = s.anyShort :=
      anyShort_congr rfl fun n => by cases n <;> rfl
    exact condsSettled_congr (s := s) rfl rfl rfl rfl rfl rfl short rfl rest.conds
  · simp [transferSettled, State.quiet, State.tell]

theorem calm_batteryTold (told : BatteryTold) (calm : CalmIfActive s) : CalmIfActive (batteryTold told s) := by
  cases told with
  | low level => exact calm_running _ _
  | emptyFell => exact fun active => calm_emptyFell (calm active)

theorem calm_upstreamTold (told : UpstreamTold) (calm : CalmIfActive s) : CalmIfActive (upstreamTold told s) := by
  cases told with
  | ended level => exact calm_running _ _
  | sendOkFell => exact fun active => calm_sendOkFell (calm active)

theorem calm_responseEnd (p : StrapPins) (calm : CalmIfActive s) : CalmIfActive (responseEnd p s) := by
  unfold responseEnd
  refine iteInduction (fun _ => calm) fun _ => iteInduction (fun _ => calmIfActive_of_phase (.inl rfl)) fun _ =>
    iteInduction (fun starting => calmIfActive_of_phase (.inl ?_)) fun _ => calm_running _ s
  exact (serveNext_starting s.quiet).phase.trans starting

/-- No level rule reads the time (R163). -/
theorem calm_tick (calm : CalmIfActive s) : CalmIfActive (tick s) := by
  unfold tick
  exact iteInduction (fun _ => calm) fun _ => calm

/-! ## The commands -/

theorem calm_carrierEnd (act : Tick → State → State) (s : State) : CalmIfActive (carrierEnd act s) := by
  unfold carrierEnd
  exact calm_running _ _

theorem calm_heard {c : Instr} {h : Header} (hc : frameHeader c = some h) : Answers c s CalmIfActive :=
  answers_of (exec_contents s hc) (calm_carrierEnd _ s)

theorem calm_exec (c : Instr) (calm : CalmIfActive s) : Answers c s CalmIfActive := by
  have next (f : State → State) (t : State) (run : exec c s = .next (running f t)) : Answers c s CalmIfActive :=
    answers_of run (calm_running f t)
  have asked (q : SvcReq) (run : exec c s = .next (request q s)) : Answers c s CalmIfActive :=
    answers_of run (calm_request q s)
  cases c
  case powerUp levels => exact answers_of rfl (calmIfActive_of_phase (.inl rfl))
  case reset straps => exact answers_of rfl (calm_resetChip straps s)
  case configurationReadEnd r i => exact answers_of rfl (calm_configRead r i calm)
  case batteryLowChange told => exact answers_of rfl (calm_batteryTold told calm)
  case batteryEmpty => exact answers_of rfl (calm_batteryEmptied _)
  case lastGaspWindowEnd => exact answers_of rfl (calm_windowEnd calm)
  case carrierRise => exact answers_of rfl (calm_onWire _ fun t => window_of_only (carrierUp_only t))
  case contentionPoint =>
    refine answers_of rfl (calm_onWire _ fun t => window_of_only (ps := [.wire]) ?_ (by decide))
    exact (contend_only _).after (dropRx_only t) (by decide)
  case beacon h m => exact calm_heard rfl
  case claim h x => exact calm_heard rfl
  case yield h m => exact calm_heard rfl
  case lastgasp h m => exact calm_heard rfl
  case halt h m => exact calm_heard rfl
  case seize h m => exact calm_heard rfl
  case answer h m => exact calm_heard rfl
  case leave h m => exact calm_heard rfl
  case offer h m => exact calm_heard rfl
  case accept h m => exact calm_heard rfl
  case endCall h m => exact calm_heard rfl
  case reply h m => exact calm_heard rfl
  case clear h m => exact calm_heard rfl
  case dial h m => exact calm_heard rfl
  case voice h m => exact calm_heard rfl
  case report h r => exact calm_heard rfl
  case receipt h n k => exact calm_heard rfl
  case data h f => exact calm_heard rfl
  case slotBegin slot => exact answers_of rfl (calm_onWire _ fun t => window_of_only (slotBegin_only slot t))
  case transmissionEnd => exact answers_of rfl (calm_frameEnd _ _ fun t h => by rwa [transmissionEnd_window])
  case collision => exact answers_of rfl (calm_frameEnd _ _ fun t h => by rwa [collided_window])
  case quietWindowOpen n =>
    refine answers_of rfl (calm_onWire _ fun t => window_of_only (ps := [.wire, .noise]) ?_ (by decide))
    exact iteInduction (fun _ => refreshWindow_only n t) fun _ => .refl _ _
  case quietWindowClose n =>
    refine answers_of rfl (calm_onWire _ fun t => window_of_only (ps := [.wire, .noise]) ?_ (by decide))
    exact iteInduction (fun _ => refreshWindow_only n t) fun _ => .refl _ _
  case fragment bytes => exact answers_of rfl (calm_carrierEnd _ s)
  case damagedFrame bytes => exact answers_of rfl (calm_carrierEnd _ s)
  case upstreamTransferEnd told => exact answers_of rfl (calm_upstreamTold told calm)
  case status => exact asked _ rfl
  case roster => exact asked _ rfl
  case tracks => exact asked _ rfl
  case faults => exact asked _ rfl
  case calls => exact asked _ rfl
  case lineTest => exact asked _ rfl
  case forget id => exact asked _ rfl
  case restart => exact asked _ rfl
  case unknownRequest name => exact asked _ rfl
  case serviceResponseEnd p => exact answers_of rfl (calm_responseEnd p calm)
  all_goals exact next _ _ rfl

/-- Settles O57: every command of an active station ends with the level rules, which leave none of them undone. -/
theorem calmKept : Obligations.CalmKept := by
  intro s t calm run active
  cases pending : s.pending with
  | nil =>
    simp only [step, pending, Host.Outcome.next.injEq] at run
    subst run
    exact calm_tick calm active
  | cons c rest =>
    obtain ⟨u, answer, settled⟩ := calm_exec (s := { s with pending := rest }) c calm
    simp only [step, pending, answer, Host.Outcome.next.injEq] at run
    subst run
    exact settled active

end

end Sys2Proof.Machine
end

section
/-! PROOFS. What a step can do, once for every property that steps keep: the blocks' actions, the wrappers they are
taken in, the starts and the clock. -/

set_option Elab.async false

namespace Sys2Proof.Machine

open Sys2Proof

/-- What the blocks of a running station do at a command that is no checked frame. -/
inductive Action : (State → State) → Prop
  | same : Action id
  | mainsFall : Action mainsFall
  | mainsRise : Action mainsRise
  | idleExpiry : Action idleExpiry
  | rejoinExpiry : Action rejoinExpiry
  | settleExpiry : Action settleExpiry
  | tap10ms (a b l : Speech) :
      Action (handOut (·.ten) (fun q => { q with ten := false }) (voiceTap (codecOf a b) l))
  | tap1s : Action (handOut (·.one) (fun q => { q with one := false }) tapOne)
  | tap10s : Action (handOut (·.slow) (fun q => { q with slow := false }) tapSlow)
  | carrierUp : Action carrierUp
  | contend : Action fun t => contend (dropRx t)
  | slotBegin (slot : Nat) : Action (slotBegin slot)
  | transmissionEnd : Action transmissionEnd
  | collided : Action collided
  | windowOpen (n : SlotName) : Action fun t => if dueWindowOpen n t then refreshWindow n t else t
  | windowClose (n : SlotName) : Action fun t => if dueWindowClose n t then refreshWindow n t else t
  | voiceDeadline : Action fun t => t.modWire fun w => { w with voice := w.voice.eraseP (overdue t.now) }
  | packetReceive (f : LinkFrame) : Action (packetReceive f)
  | impulseDetect : Action fun t => if t.live then impulse t else t
  | burst : Action fun t => if t.holding && decide (t.sup.state = .synced) then impulse t else t
  | captureExpiry (n : SlotName) : Action (captureExpiry n)
  | refreshExpiry (n : SlotName) : Action (refreshExpiry n)
  | noHolderTimeout : Action noHolderTimeout
  | listenTimeout : Action listenTimeout
  | claimFollowTimeout : Action claimFollowTimeout
  | deferralEnd : Action deferralEnd
  | contestEnd : Action contestEnd
  | readyChange (old new : Bool) : Action (readyChange old new)
  | readyTimerExpiry : Action readyTimerExpiry
  | syncRise : Action syncRise
  | syncFall : Action syncFall
  | trainingTimeout : Action trainingTimeout
  | graceTimeout : Action graceTimeout
  | backoffWaitEnd : Action backoffWaitEnd
  | transferEnd : Action transferEnd
  | downstreamFrame (began : Tick) (f : LinkFrame) : Action (downstreamFrame began f)
  | mailboxDelivered : Action mailboxDelivered
  | mailboxRefused : Action mailboxRefused
  | mailboxTimeout : Action mailboxTimeout
  | hookFall (n : PortNo) : Action (hookFall n)
  | hookRise (n : PortNo) : Action (hookRise n)
  | onHook (n : PortNo) : Action (onHookEvent n)
  | pulseCountClose (n : PortNo) : Action (pulseCountClose n)
  | toneDigit (n : PortNo) (k : Key) : Action (toneDigit n k)
  | firstDigitTimeout (n : PortNo) : Action (firstDigitTimeout n)
  | portDigitTimeout (n : PortNo) : Action (portDigitTimeout n)
  | requestTimeout (n : PortNo) : Action (requestTimeout n)
  | ringBurst : Action ringBurst
  | ringingEnd : Action ringingEnd
  | ringDriveTimeout (n : PortNo) : Action (ringDriveTimeout n)
  | intercomCadence (n : PortNo) : Action (intercomCadence n)
  | offerRingTimeout (n : PortNo) : Action (offerRingTimeout n)
  | ringBackTimeout (n : PortNo) : Action (ringBackTimeout n)
  | holderSilence (n : PortNo) : Action (holderSilence n)
  | farSilence (n : PortNo) : Action (farSilence n)
  | howlerTimeout (n : PortNo) : Action (howlerTimeout n)
  | toneCadence (n : PortNo) : Action (toneCadence n)
  | seizeTimeout : Action seizeTimeout
  | currentRise : Action currentRise
  | lossTimeout : Action lossTimeout
  | partySilence (st po : Nat) : Action (partySilence st po)
  | breakEnd : Action breakEnd
  | makeEnd : Action makeEnd
  | pauseEnd : Action pauseEnd
  | testStepEnd (out : Bool) : Action (testStepEnd out)
  | receiptTimeout : Action receiptTimeout
  | lampCadence : Action lampCadence
  | serve (q : SvcReq) : Action (serve takeRunning q)
  | serveNext : Action (serveNext takeRunning)

/-- The parts that no bound and no order of the state's lists speaks of. -/
def looseParts : List Part := [.now, .taps, .pins, .svc, .draws, .outs, .pending]

/-- A property at a station that has completed start-up. -/
def Runs (P : State → Prop) (s : State) : Prop := s.phase = .running ∧ P s

/-- A property that every command keeps, but for the dispatch of its checked frame. -/
structure Invariant (P : State → Prop) : Prop where
  loose : ∀ {s t : State}, Only looseParts s t → P s → P t
  action : ∀ {f : State → State}, Action f → ∀ {s : State}, Runs P s → Runs P (f s)
  finish : ∀ {s : State}, Runs P s → P (finish s)
  dropRx : ∀ {s : State}, P s → P (dropRx s)
  noneLate : ∀ {s : State}, P s → P (s.modSup fun u => { u with late := 0 })
  countError : ∀ {s : State}, Runs P s → P (countError s)
  clearNotices : ∀ {s : State}, P s → P (clearNotices s)
  outlivedEnd : ∀ (count : Nat → Nat) {s : State}, P s → P (outlivedEnd count s)
  stopping : ∀ {s : State}, Runs P s → P (openWindow (enterStop s))
  configured : ∀ (r : ConfigRead) (i : Bool) {s : State}, s.phase = .startUp → P s → P (configRead r i s)
  start : ∀ (levels : Pins) (draws : Nat) (pending : List Instr), P (State.atStart levels draws pending)
  stopped : ∀ {s : State}, P s → P (stopChip s)
  restart : ∀ (straps : StrapPins) {s : State}, P s → P (beginRestart straps s)

section
variable {P : State → Prop} (inv : Invariant P) {s : State} {f : State → State} {act : Tick → State → State}

include inv

theorem Invariant.told {g : Pins → Pins} (h : P s) : P (s.tell g) := inv.loose ((s.tell_only g).mono (by decide)) h

theorem Invariant.quiet (h : P s) : P s.quiet := inv.loose (s.quiet_only.mono (by decide)) h

theorem Invariant.quietRuns (active : s.active = true) (h : P s) : Runs P s.quiet :=
  ⟨(active_iff.mp active).1, inv.quiet h⟩

theorem Invariant.running (taken : Runs P s.quiet → Runs P (f s.quiet)) (h : P s) : P (running f s) := by
  unfold Machine.running
  exact iteInduction (fun active => inv.finish (taken (inv.quietRuns active h))) fun _ => inv.quiet h

theorem Invariant.onWire (taken : Runs P s.quiet → Runs P (f s.quiet)) (h : P s) : P (onWire f s) := by
  unfold Machine.onWire
  exact iteInduction (fun active => inv.finish (taken (inv.quietRuns active h))) fun _ =>
    iteInduction (fun runs => inv.clearNotices (taken ⟨runs, inv.quiet h⟩).2) fun _ => inv.quiet h

theorem Invariant.frameEnd (count : Nat → Nat) (taken : Runs P s.quiet → Runs P (f s.quiet)) (h : P s) :
    P (frameEnd count f s) := by
  unfold Machine.frameEnd
  exact iteInduction (fun _ => inv.outlivedEnd count (inv.quiet h)) fun _ => inv.onWire taken h

theorem Invariant.carrierEnd (taken : ∀ start t, Runs P t → Runs P (act start t)) (h : P s) : P (carrierEnd act s) := by
  have off : P (carrierOff s) := inv.told h
  unfold Machine.carrierEnd
  refine inv.running (fun quiet => ?_) (iteInduction (fun _ => off) fun _ => inv.dropRx off)
  split
  · have dropped : Runs P (Machine.dropRx (State.quiet _)) := ⟨quiet.1, inv.dropRx quiet.2⟩
    exact iteInduction (motive := Runs P) (fun _ => taken _ _ dropped) fun _ => dropped
  · exact quiet

theorem Invariant.request (q : SvcReq) (h : P s) : P (request q s) := by
  unfold Machine.request
  exact iteInduction (fun _ => inv.loose ((serve_starting q s.quiet).mono (by decide)) (inv.quiet h)) fun _ =>
    inv.running (inv.action (.serve q)) h

theorem Invariant.responseEnd (straps : StrapPins) (h : P s) : P (responseEnd straps s) := by
  unfold Machine.responseEnd
  exact iteInduction (fun _ => inv.quiet h) fun _ => iteInduction (fun _ => inv.restart straps h) fun _ =>
    iteInduction (fun _ => inv.loose ((serveNext_starting s.quiet).mono (by decide)) (inv.quiet h)) fun _ =>
      inv.running (inv.action .serveNext) h

theorem Invariant.resetChip (straps : StrapPins) (h : P s) : P (resetChip straps s) := by
  unfold Machine.resetChip
  exact iteInduction (fun _ => inv.start _ _ _) fun _ => iteInduction (fun _ => inv.quiet h) fun _ =>
    inv.restart straps h

theorem Invariant.configRead (r : ConfigRead) (i : Bool) (h : P s) : P (configRead r i s) := by
  by_cases phase : s.phase = .startUp
  · exact inv.configured r i phase h
  · rw [Machine.configRead, if_neg phase]
    exact inv.quiet h

theorem Invariant.batteryEmptied (h : P s) : P (batteryEmptied s) := by
  unfold Machine.batteryEmptied
  exact iteInduction (fun active => inv.clearNotices (inv.stopping (inv.quietRuns active h))) fun _ => inv.quiet h

theorem Invariant.windowEnd (h : P s) : P (windowEnd s) := by
  unfold Machine.windowEnd
  exact iteInduction (fun _ => inv.stopped h) fun _ => inv.quiet h

theorem Invariant.batteryTold (told : BatteryTold) (h : P s) : P (batteryTold told s) := by
  cases told with
  | low level => exact inv.running (inv.action .same) (inv.told h)
  | emptyFell => exact inv.quiet (inv.told h)

theorem Invariant.upstreamTold (told : UpstreamTold) (h : P s) : P (upstreamTold told s) := by
  cases told with
  | ended level => exact inv.running (inv.action .transferEnd) (inv.told h)
  | sendOkFell => exact inv.quiet (inv.told h)

theorem Invariant.tick (h : P s) : P (tick s) := by
  unfold Machine.tick
  refine iteInduction (fun _ => inv.quiet h) fun _ => inv.loose (fun p hp => ?_) (inv.noneLate h)
  cases p <;> first | rfl | exact absurd (by decide) hp

/-- The dispatch of a command's checked frame keeps the property. -/
def DispatchKeeps (P : State → Prop) (c : Instr) : Prop :=
  ∀ h, frameHeader c = some h → ∀ start t, Runs P t →
    Runs P (dispatch { h with hold := heardHold c h.hold } (frameTie c) (contents c) start t)

theorem Invariant.heard {c : Instr} {h : Header} (hc : frameHeader c = some h) (frames : DispatchKeeps P c)
    (holds : P s) : Answers c s P :=
  answers_of (exec_contents s hc) (inv.carrierEnd (frames h hc) holds)

theorem Invariant.damagedFrame (bytes : List Byte) (frames : DispatchKeeps P (.damagedFrame bytes)) (h : P s) :
    Answers (.damagedFrame bytes) s P := by
  cases read : receiveBytes bytes with
  | nameless q => exact inv.heard (h := q) (by rw [frameHeader, read]) frames h
  | damaged =>
    refine answers_of rfl (inv.carrierEnd (fun start t ht => ?_) h)
    rw [untoldFrame, read]
    exact ⟨ht.1, inv.countError ht⟩
  | fragment =>
    refine answers_of rfl (inv.carrierEnd (fun start t ht => ?_) h)
    rwa [untoldFrame, read]
  | checked q p =>
    refine answers_of rfl (inv.carrierEnd (fun start t ht => ?_) h)
    rwa [untoldFrame, read]

theorem Invariant.exec (c : Instr) (frames : DispatchKeeps P c) (h : P s) : Answers c s P := by
  have run {f : State → State} {t : State} (taken : Action f) (ht : P t) : P (Machine.running f t) :=
    inv.running (inv.action taken) ht
  have wire {f : State → State} {t : State} (taken : Action f) (ht : P t) : P (Machine.onWire f t) :=
    inv.onWire (inv.action taken) ht
  cases c
  case powerUp levels => exact answers_of rfl (inv.start _ _ _)
  case reset straps => exact answers_of rfl (inv.resetChip straps h)
  case configurationReadEnd r i => exact answers_of rfl (inv.configRead r i h)
  case batteryLowChange told => exact answers_of rfl (inv.batteryTold told h)
  case batteryEmpty => exact answers_of rfl (inv.batteryEmptied (inv.told h))
  case lastGaspWindowEnd => exact answers_of rfl (inv.windowEnd h)
  case upstreamTransferEnd told => exact answers_of rfl (inv.upstreamTold told h)
  case serviceResponseEnd straps => exact answers_of rfl (inv.responseEnd straps h)
  case carrierRise => exact answers_of rfl (wire .carrierUp (inv.told h))
  case contentionPoint => exact answers_of rfl (wire .contend (inv.told h))
  case slotBegin slot => exact answers_of rfl (wire (.slotBegin slot) h)
  case quietWindowOpen n => exact answers_of rfl (wire (.windowOpen n) h)
  case quietWindowClose n => exact answers_of rfl (wire (.windowClose n) h)
  case transmissionEnd => exact answers_of rfl (inv.frameEnd _ (inv.action .transmissionEnd) h)
  case collision => exact answers_of rfl (inv.frameEnd _ (inv.action .collided) h)
  case fragment bytes => exact answers_of rfl (inv.carrierEnd (fun _ _ ht => ht) h)
  case damagedFrame bytes => exact inv.damagedFrame bytes frames h
  case beacon q m => exact inv.heard rfl frames h
  case claim q x => exact inv.heard rfl frames h
  case yield q m => exact inv.heard rfl frames h
  case lastgasp q m => exact inv.heard rfl frames h
  case halt q m => exact inv.heard rfl frames h
  case seize q m => exact inv.heard rfl frames h
  case answer q m => exact inv.heard rfl frames h
  case leave q m => exact inv.heard rfl frames h
  case offer q m => exact inv.heard rfl frames h
  case accept q m => exact inv.heard rfl frames h
  case endCall q m => exact inv.heard rfl frames h
  case reply q m => exact inv.heard rfl frames h
  case clear q m => exact inv.heard rfl frames h
  case dial q m => exact inv.heard rfl frames h
  case voice q m => exact inv.heard rfl frames h
  case report q r => exact inv.heard rfl frames h
  case receipt q n k => exact inv.heard rfl frames h
  case data q f => exact inv.heard rfl frames h
  case status => exact answers_of rfl (inv.request _ h)
  case roster => exact answers_of rfl (inv.request _ h)
  case tracks => exact answers_of rfl (inv.request _ h)
  case faults => exact answers_of rfl (inv.request _ h)
  case calls => exact answers_of rfl (inv.request _ h)
  case lineTest => exact answers_of rfl (inv.request _ h)
  case forget id => exact answers_of rfl (inv.request _ h)
  case restart => exact answers_of rfl (inv.request _ h)
  case unknownRequest name => exact answers_of rfl (inv.request _ h)
  case mainsPresentFall => exact answers_of rfl (run .mainsFall (inv.told h))
  case mainsPresentRise => exact answers_of rfl (run .mainsRise (inv.told h))
  case readyChange level => exact answers_of rfl (run (.readyChange _ level) (inv.told h))
  case syncRise => exact answers_of rfl (run .syncRise (inv.told h))
  case syncFall => exact answers_of rfl (run .syncFall (inv.told h))
  case sendOkRise => exact answers_of rfl (run .same (inv.told h))
  case hookFall n => exact answers_of rfl (run (.hookFall n) (inv.told h))
  case hookRise n => exact answers_of rfl (run (.hookRise n) (inv.told h))
  case loopFaultChange n level => exact answers_of rfl (run .same (inv.told h))
  case loopCurrentRise => exact answers_of rfl (run .currentRise (inv.told h))
  case loopCurrentFall => exact answers_of rfl (run .same (inv.told h))
  all_goals exact answers_of rfl (run (by constructor) h)

end

theorem Invariant.step {P : State → Prop} (inv : Invariant P) {s t : State} (frames : ∀ c, DispatchKeeps P c)
    (h : P s) (run : step s = .next t) : P t := by
  cases pending : s.pending with
  | nil =>
    simp only [Machine.step, pending, Host.Outcome.next.injEq] at run
    exact run ▸ inv.tick h
  | cons c rest =>
    have taken : P { s with pending := rest } := inv.loose (fun p hp => by
      cases p <;> first | rfl | exact absurd (by decide) hp) h
    obtain ⟨u, answer, holds⟩ := inv.exec c (frames c) taken
    simp only [Machine.step, pending, answer, Host.Outcome.next.injEq] at run
    exact run ▸ holds

end Sys2Proof.Machine
end

section
/-! PROOFS. A station that takes no commands: in start-up, in the last-gasp window and stopped (R172, R175, R177;
log 14). -/

set_option Elab.async false

namespace Sys2Proof.Machine

open Sys2Proof

section
variable {s : State}

theorem exec_blockEvent (c : Instr) (event : blockEvent c = true) (inactive : s.active = false) :
    exec c s = .next s.quiet := by
  cases c
  all_goals first
    | exact absurd event Bool.false_ne_true
    | exact congrArg Host.Outcome.next (running_inactive inactive)

/-- An input's level is followed, and nothing else changes (log 6). -/
theorem told_only (g : Pins → Pins) (s : State) : Only [.pins, .outs] s (s.tell g).quiet :=
  (s.tell g).quiet_only.after ((s.tell_only g).mono (by decide)) (by decide)

theorem answers_told {c : Instr} {f : State → State} (g : Pins → Pins) (inactive : s.active = false)
    (run : exec c s = .next (running f (s.tell g))) :
    Answers c s fun t => Only [.pins, .outs] s t ∧ t.outs = [] := by
  refine answers_of run ?_
  rw [running_inactive (s := s.tell g) inactive]
  exact ⟨told_only g s, rfl⟩

theorem exec_tellsInput (c : Instr) (tells : tellsInput c = true) (inactive : s.active = false) :
    Answers c s fun t => Only [.pins, .outs] s t ∧ t.outs = [] := by
  cases c
  case batteryLowChange told =>
    cases told with
    | low level => exact answers_told _ inactive rfl
    | emptyFell => exact answers_of rfl ⟨told_only _ s, rfl⟩
  case batteryEmpty =>
    refine answers_of rfl ?_
    rw [batteryEmptied, if_neg (by rw [show (s.tell _).active = s.active from rfl, inactive]; nofun)]
    exact ⟨told_only _ s, rfl⟩
  case upstreamTransferEnd told =>
    cases told with
    | ended level => exact answers_told _ inactive rfl
    | sendOkFell => exact answers_of rfl ⟨told_only _ s, rfl⟩
  all_goals first
    | exact absurd tells Bool.false_ne_true
    | exact answers_told _ inactive rfl

theorem exec_frame_inactive (c : Instr) {h : Header} (hc : frameHeader c = some h) (inactive : s.active = false) :
    exec c s = .next (received s) := by
  rw [exec_contents s hc]
  exact congrArg Host.Outcome.next (carrierEnd_inactive _ inactive)

/-- Settles O5. -/
theorem inactiveTakesNothing : Obligations.InactiveTakesNothing := fun c _ inactive =>
  ⟨fun event => exec_blockEvent c event inactive, fun tells => exec_tellsInput c tells inactive, fun _ hc =>
    answers_of (exec_frame_inactive c hc inactive) ⟨rfl, rfl, rfl, received_only _⟩⟩

end

end Sys2Proof.Machine
end

section
/-! PROOFS. The bounds of queues, lists, tracks, roster and record as one relation from a state to the next, and the
condition set, the wire and the noise tracker under it. -/

set_option Elab.async false

namespace Sys2Proof.Machine

open Sys2Proof

section
variable {s t u : State}

/-! ## The relation -/

/-- From `s` to `t` the phase and the straps stay, and each bound of a queue, a list, the tracks and the roster that holds
goes on holding. -/
structure Bounded (s t : State) : Prop where
  phase : t.phase = s.phase
  straps : t.straps = s.straps
  queues : QueueBounds s → QueueBounds t
  tracks : TracksOk s → TracksOk t
  lists : ListBounds s → ListBounds t
  roster : RosterOk s → RosterOk t

/-- The bounds, and that of the record too at a station that has completed start-up. -/
structure Keeps (s t : State) : Prop extends Bounded s t where
  record : s.phase = .running → RecordOk s → RecordOk t

theorem Bounded.after (second : Bounded t u) (first : Bounded s t) : Bounded s u where
  phase := second.phase.trans first.phase
  straps := second.straps.trans first.straps
  queues h := second.queues (first.queues h)
  tracks h := second.tracks (first.tracks h)
  lists h := second.lists (first.lists h)
  roster h := second.roster (first.roster h)

theorem Keeps.refl (s : State) : Keeps s s := ⟨⟨rfl, rfl, id, id, id, id⟩, fun _ => id⟩

theorem Keeps.after (second : Keeps t u) (first : Keeps s t) : Keeps s u where
  toBounded := second.toBounded.after first.toBounded
  record runs h := second.record (first.phase.trans runs) (first.record runs h)

theorem Keeps.foldl {α : Type} {f : State → α → State} (each : ∀ t x, Keeps t (f t x)) :
    ∀ (l : List α) (s : State), Keeps s (l.foldl f s)
  | [], s => .refl s
  | x :: l, s => (Keeps.foldl each l (f s x)).after (each s x)

theorem Keeps.eachPort {f : PortNo → State → State} (each : ∀ n t, Keeps t (f n t)) (s : State) :
    Keeps s (s.eachPort f) := Keeps.foldl (fun t n => each n t) _ s

/-- The parts that no bound speaks of. -/
def otherParts : List Part :=
  [.now, .taps, .interface, .cfg, .pins, .power, .sup, .ports, .svc, .draws, .outs, .pending]

theorem queueBounds_of (wire : t.wire = s.wire) (h : QueueBounds s) : QueueBounds t := by
  unfold QueueBounds
  rw [wire]
  exact h

theorem tracksOk_of (noise : t.noise = s.noise) (h : TracksOk s) : TracksOk t := by
  unfold TracksOk
  rw [noise]
  exact h

theorem listBounds_of (fault : t.fault = s.fault) (report : t.report = s.report) (h : ListBounds s) :
    ListBounds t := by
  unfold ListBounds
  rw [fault, report]
  exact h

theorem rosterOk_of (straps : t.straps = s.straps) (roster : t.hold.roster = s.hold.roster) (h : RosterOk s) :
    RosterOk t := by
  unfold RosterOk State.own
  rw [roster, straps]
  exact h

theorem recordOk_of (phase : t.phase = s.phase) (state : t.hold.state = s.hold.state)
    (record : t.call.record = s.call.record) (h : RecordOk s) : RecordOk t := by
  unfold RecordOk
  rw [phase, state, record]
  exact h

theorem Keeps.other (only : Only otherParts s t) : Keeps s t where
  phase := only.phase
  straps := only.straps
  queues := queueBounds_of only.wire
  tracks := tracksOk_of only.noise
  lists := listBounds_of only.fault only.report
  roster := rosterOk_of only.straps (congrArg Hold.roster only.hold)
  record _ := recordOk_of only.phase (congrArg Hold.state only.hold) (congrArg Call.record only.call)

theorem Keeps.wire (only : Only (.wire :: otherParts) s t) (queues : QueueBounds s → QueueBounds t) : Keeps s t where
  phase := only.phase
  straps := only.straps
  queues := queues
  tracks := tracksOk_of only.noise
  lists := listBounds_of only.fault only.report
  roster := rosterOk_of only.straps (congrArg Hold.roster only.hold)
  record _ := recordOk_of only.phase (congrArg Hold.state only.hold) (congrArg Call.record only.call)

theorem Keeps.noise (only : Only (.noise :: otherParts) s t) (tracks : TracksOk s → TracksOk t) : Keeps s t where
  phase := only.phase
  straps := only.straps
  queues := queueBounds_of only.wire
  tracks := tracks
  lists := listBounds_of only.fault only.report
  roster := rosterOk_of only.straps (congrArg Hold.roster only.hold)
  record _ := recordOk_of only.phase (congrArg Hold.state only.hold) (congrArg Call.record only.call)

theorem Keeps.ofLists (only : Only (.fault :: .report :: otherParts) s t) (lists : ListBounds s → ListBounds t) :
    Keeps s t where
  phase := only.phase
  straps := only.straps
  queues := queueBounds_of only.wire
  tracks := tracksOk_of only.noise
  lists := lists
  roster := rosterOk_of only.straps (congrArg Hold.roster only.hold)
  record _ := recordOk_of only.phase (congrArg Hold.state only.hold) (congrArg Call.record only.call)

theorem Keeps.ofRecord (only : Only (.call :: otherParts) s t) (record : s.phase = .running → RecordOk s → RecordOk t) :
    Keeps s t where
  phase := only.phase
  straps := only.straps
  queues := queueBounds_of only.wire
  tracks := tracksOk_of only.noise
  lists := listBounds_of only.fault only.report
  roster := rosterOk_of only.straps (congrArg Hold.roster only.hold)
  record := record

/-- The call controller's other parts than the record. -/
theorem Keeps.call (only : Only (.call :: otherParts) s t) (record : t.call.record = s.call.record) : Keeps s t :=
  .ofRecord only fun _ => recordOk_of only.phase (congrArg Hold.state only.hold) record

theorem Keeps.ofHold (only : Only (.hold :: otherParts) s t) (roster : RosterOk s → RosterOk t)
    (record : s.phase = .running → RecordOk s → RecordOk t) :
    Keeps s t where
  phase := only.phase
  straps := only.straps
  queues := queueBounds_of only.wire
  tracks := tracksOk_of only.noise
  lists := listBounds_of only.fault only.report
  roster := roster
  record := record

/-- Queues that only shrink. -/
theorem Keeps.shrinks (only : Only (.wire :: otherParts) s t)
    (le : ∀ c, (t.wire.queue c).length ≤ (s.wire.queue c).length) : Keeps s t :=
  .wire only fun ⟨voice, control, data⟩ =>
    ⟨(le .voice).trans voice, (le .control).trans control, (le .data).trans data⟩

/-- Lists that grow no longer. -/
theorem Keeps.listsShrink (only : Only (.fault :: .report :: otherParts) s t)
    (list : t.fault.list.length ≤ s.fault.list.length) (queue : t.report.queue.length ≤ s.report.queue.length) :
    Keeps s t := .ofLists only fun ⟨l, q⟩ => ⟨list.trans l, queue.trans q⟩

/-! ## The fault list (R139 to R144) -/

theorem keeps_modRun (n : Nat) (f : TrigRun → TrigRun) (s : State) : Keeps s (modRun n f s) :=
  .listsShrink ((modRun_only n f s).mono (by decide)) le_rfl le_rfl

theorem keeps_setFaultList (l : List FaultRecord) (s : State)
    (le : s.fault.list.length ≤ 16 → l.length ≤ 16) : Keeps s (setFaultList l s) :=
  .ofLists ((setFaultList_only l s).mono (by decide)) fun ⟨list, queue⟩ => ⟨le list, queue⟩

/-- Room for one record more, as R144 makes it. -/
theorem makeRoom_keeps {v : Nat} (h : makeRoom v s = some t) :
    Keeps s t ∧ (s.fault.list.length ≤ 16 → t.fault.list.length < 16) := by
  unfold makeRoom at h
  split at h
  · next room =>
    cases h
    exact ⟨.refl s, fun _ => room⟩
  · split at h
    · next r found =>
      cases h
      have shorter := List.length_eraseP_of_mem (List.mem_of_find?_eq_some found) (List.find?_some found)
      have some := List.length_pos_of_mem (List.mem_of_find?_eq_some found)
      exact ⟨keeps_setFaultList _ s fun le => by omega, fun le => by
        show (s.fault.list.eraseP _).length < 16
        omega⟩
    · split at h
      · split at h
        · next r found =>
          cases h
          have shorter := List.length_eraseP_of_mem (List.mem_of_find?_eq_some found) (List.find?_some found)
          have some := List.length_pos_of_mem (List.mem_of_find?_eq_some found)
          refine ⟨(keeps_modRun _ _ _).after (keeps_setFaultList _ s fun le => by omega), fun le => ?_⟩
          show (s.fault.list.eraseP _).length < 16
          omega
        · cases h
      · cases h

theorem keeps_createRecord (n : Nat) (g : TrigCfg) (s : State) : Keeps s (createRecord n g s) := by
  unfold createRecord
  split
  · next t made =>
    obtain ⟨kept, room⟩ := makeRoom_keeps made
    refine (keeps_modRun _ _ _).after
      (.ofLists ((setFaultList_only _ t).after (s := s) ((makeRoom_only made).mono (by decide)) (by decide))
        fun bounds => ⟨?_, (kept.lists bounds).2⟩)
    have short := room bounds.1
    show (t.fault.list ++ [_]).length ≤ 16
    rw [List.length_append, List.length_singleton]
    omega
  · exact .refl s

theorem keeps_rewriteQueued (n : Nat) (s : State) : Keeps s (rewriteQueued n s) := by
  refine .ofLists ((rewriteQueued_only n s).mono (by decide)) fun ⟨list, queue⟩ => ?_
  unfold rewriteQueued
  split
  · refine iteInduction (motive := ListBounds) (fun _ => ⟨?_, ?_⟩) fun _ => ⟨list, queue⟩
    · exact (List.length_map _).trans_le list
    · exact (List.length_map _).trans_le queue
  · exact ⟨list, queue⟩

theorem keeps_coalesce (n : Nat) (s : State) : Keeps s (coalesce n s) := by
  have bumped := keeps_setFaultList (s.fault.list.map fun r => if outstandingOf n r then bumpCount r else r) s
    fun le => by rwa [List.length_map]
  unfold coalesce
  exact iteInduction (motive := Keeps s) (fun _ => (keeps_rewriteQueued n _).after bumped) fun _ => bumped

theorem keeps_rise (n : Nat) (g : TrigCfg) (r : TrigRun) (s : State) : Keeps s (rise n g r s) := by
  unfold rise
  exact iteInduction (motive := Keeps s) (fun _ => keeps_createRecord n g s) fun _ =>
    iteInduction (motive := Keeps s) (fun _ => keeps_coalesce n s) fun _ => .refl s

theorem keeps_evalTrigger (s : State) (n : Nat) : Keeps s (evalTrigger s n) := by
  unfold evalTrigger
  split
  · refine iteInduction (motive := Keeps s) (fun _ => ?_) fun _ => .refl s
    exact iteInduction (motive := Keeps s) (fun _ => keeps_modRun _ _ s) fun _ =>
      (keeps_modRun _ _ _).after (keeps_rise _ _ _ s)
  · exact .refl s

theorem keeps_setConds (v : BitVec 16) (s : State) : Keeps s (setConds v s) := by
  unfold setConds
  refine iteInduction (motive := Keeps s) (fun _ => .refl s) fun _ => ?_
  exact (Keeps.foldl keeps_evalTrigger _ _).after
    (.listsShrink ((State.modFault_only _ s).mono (by decide)) le_rfl le_rfl)

theorem keeps_setCond (c : Cond) (b : Bool) (s : State) : Keeps s (setCond c b s) := keeps_setConds _ s

theorem keeps_settleLamp (s : State) : Keeps s (settleLamp s) := by
  unfold settleLamp
  exact iteInduction (motive := Keeps s) (fun _ => .refl s) fun _ =>
    .listsShrink ((State.modFault_only _ s).mono (by decide)) le_rfl le_rfl

/-! ## The transmit queues (R10 to R18) -/

theorem keeps_noteDropped (b : Body) (s : State) : Keeps s (noteDropped b s) :=
  .shrinks ((noteDropped_only b s).mono (by decide)) fun c => by cases c <;> exact le_rfl

theorem keeps_offerVoice (dst : Nat) (m : VoiceMsg) (s : State) : Keeps s (offerVoice dst m s) := by
  refine .wire ((offerVoice_only dst m s).mono (by decide)) fun ⟨voice, control, data⟩ => ?_
  unfold offerVoice
  refine iteInduction (motive := QueueBounds) (fun _ => ⟨voice, control, data⟩) fun _ => ⟨?_, control, data⟩
  show (_ ++ [_]).length ≤ 4
  rw [List.length_append, List.length_singleton]
  split
  · next room => exact room
  · exact Nat.succ_le_succ (List.length_take_le _ _)

/-- A control frame that joins its queue, where there is room or where a waiting BEACON has made it. -/
theorem keeps_joinsControl (q : List TxEntry) (e : TxEntry) (room : s.wire.control.length ≤ 8 → q.length < 8) :
    Keeps s (s.modWire fun w => { w with control := q ++ [e] }) := by
  refine .wire ((s.modWire_only _).mono (by decide)) fun ⟨voice, control, data⟩ => ⟨voice, ?_, data⟩
  show (q ++ [e]).length ≤ 8
  rw [List.length_append, List.length_singleton]
  exact room control

theorem keeps_offerControl (dst : Nat) (b : Body) (s : State) : Keeps s (offerControl dst b s) := by
  unfold offerControl
  refine iteInduction (motive := Keeps s) (fun _ => keeps_noteDropped b s) fun _ => ?_
  refine iteInduction (motive := Keeps s) (fun room => keeps_joinsControl _ _ fun _ => room) fun _ => ?_
  refine iteInduction (motive := Keeps s) (fun _ => keeps_noteDropped b s) fun _ => ?_
  refine iteInduction (motive := Keeps s) (fun beacon => ?_) fun _ => keeps_noteDropped b s
  obtain ⟨e, mem, waits⟩ := List.any_eq_true.mp beacon
  have shorter := List.length_eraseP_of_mem mem waits
  have some := List.length_pos_of_mem mem
  exact (keeps_noteDropped _ _).after (keeps_joinsControl _ _ fun le => by omega)

theorem length_placeGasp_le (e : TxEntry) (q : List TxEntry) (le : q.length ≤ 8) : (placeGasp e q).length ≤ 8 := by
  have room : (if q.length < Config.controlMax then q else q.dropLast).length < 8 := by
    have cap : Config.controlMax = 8 := rfl
    split
    · omega
    · rw [List.length_dropLast]
      omega
  unfold placeGasp
  split
  · exact Nat.le_add_left 1 7
  · next h t eq =>
    rw [eq] at room
    split <;> exact room

theorem keeps_offerGasp (r : FaultRecord) (held : Bool) (s : State) : Keeps s (offerGasp r held s) :=
  .wire ((offerGasp_only r held s).mono (by decide)) fun ⟨voice, control, data⟩ =>
    ⟨voice, length_placeGasp_le _ _ control, data⟩

theorem keeps_offerData (dst : Option Nat) (f : LinkFrame) (s : State) : Keeps s (offerData dst f s) := by
  refine .wire ((offerData_only dst f s).mono (by decide)) fun ⟨voice, control, data⟩ => ?_
  unfold offerData
  refine iteInduction (motive := QueueBounds) (fun _ => ⟨voice, control, data⟩) fun full => ⟨voice, control, ?_⟩
  show (s.wire.data ++ [_]).length ≤ 32
  have room : s.wire.data.length < 32 := by
    have cap : Config.dataMax = 32 := rfl
    simp only [Bool.or_eq_true, decide_eq_true_eq, not_or] at full
    omega
  rw [List.length_append, List.length_singleton]
  exact room

theorem length_flushQueue_le (q : List TxEntry) : (flushQueue q).length ≤ q.length := by
  rw [flushQueue, List.length_map]
  exact List.length_filter_le _ _

theorem keeps_flushData (s : State) : Keeps s (flushData s) :=
  .shrinks ((flushData_only s).mono (by decide)) fun c => by
    cases c
    · exact le_rfl
    · exact le_rfl
    · exact length_flushQueue_le _

theorem keeps_flushAll (s : State) : Keeps s (flushAll s) :=
  .shrinks ((flushAll_only s).mono (by decide)) fun c => by cases c <;> exact length_flushQueue_le _

theorem keeps_contend (s : State) : Keeps s (contend s) := by
  unfold contend
  refine iteInduction (motive := Keeps s) (fun _ => ?_) fun _ => .refl s
  refine .shrinks ((openRound_only s).mono (by decide)) fun c => ?_
  cases c
  · exact (List.length_map _).le
  · exact (List.length_map _).le
  · exact le_rfl

theorem trackOk_busyTrack (k : Option Track) : trackOk (busyTrack k) = trackOk k := by cases k <;> rfl

theorem keeps_markBusy (s : State) : Keeps s (markBusy s) :=
  .noise ((markBusy_only s).mono (by decide)) fun ⟨a, b, candidates⟩ =>
    ⟨(trackOk_busyTrack _).trans a, (trackOk_busyTrack _).trans b, candidates⟩

theorem length_updFirst {α : Type} (p : α → Bool) (f : α → α) (l : List α) : (updFirst p f l).length = l.length := by
  induction l with
  | nil => rfl
  | cons x l ih =>
    unfold updFirst
    split
    · rfl
    · rw [List.length_cons, ih, List.length_cons]

/-- One queue rewritten at no greater length. -/
theorem Keeps.setQueue {c : FrameClass} {q : List TxEntry} {x : Option Tx} {o : Option Round}
    (le : q.length ≤ (s.wire.queue c).length) :
    Keeps s (s.modWire fun w => { w.setQueue q c with tx := x, round := o }) :=
  .shrinks ((s.modWire_only _).mono (by decide)) fun d => by cases c <;> cases d <;> first | exact le | exact le_rfl

theorem keeps_startFrame (c : FrameClass) (e : TxEntry) (s : State) : Keeps s (startFrame c e s) := by
  refine (Keeps.other ((State.emit_only _ _).mono (by decide))).after ((keeps_markBusy _).after ?_)
  exact .setQueue (length_updFirst _ _ _).le

theorem keeps_slotBegin (slot : Nat) (s : State) : Keeps s (slotBegin slot s) := by
  have passed : Keeps s (s.modWire fun w => { w with round := some ⟨slot + 1⟩ }) :=
    .shrinks ((s.modWire_only _).mono (by decide)) fun d => by cases d <;> exact le_rfl
  unfold slotBegin
  refine iteInduction (motive := Keeps s) (fun _ => ?_) fun _ => .refl s
  dsimp only
  split
  · exact iteInduction (motive := Keeps s) (fun _ => keeps_startFrame _ _ s) fun _ => passed
  · exact passed

theorem keeps_removeTx (c : FrameClass) (s : State) : Keeps s (removeTx c s) := by
  have kept : Keeps s (s.modWire fun w =>
      { w.setQueue ((s.wire.queue c).eraseP (·.inTx)) c with tx := none, round := s.wire.round }) :=
    .setQueue List.length_eraseP_le
  cases c <;> exact kept

theorem keeps_keepTx (c : FrameClass) (f : TxEntry → TxEntry) (s : State) : Keeps s (keepTx c f s) := by
  have kept : Keeps s (s.modWire fun w =>
      { w.setQueue (updFirst (·.inTx) (fun e => { f e with inTx := false }) (s.wire.queue c)) c with
        tx := none, round := s.wire.round }) := .setQueue (length_updFirst _ _ _).le
  cases c <;> exact kept

theorem keeps_reportDropped (c : FrameClass) (b : Body) (s : State) : Keeps s (reportDropped c b s) := by
  unfold reportDropped
  exact iteInduction (motive := Keeps s) (fun _ => keeps_noteDropped b s) fun _ => .refl s

theorem keeps_flushedEnd (c : FrameClass) (e : TxEntry) (s : State) : Keeps s (flushedEnd c e s) := by
  unfold flushedEnd
  exact iteInduction (motive := Keeps s) (fun _ => keeps_removeTx c s) fun _ =>
    (keeps_reportDropped c _ _).after (keeps_removeTx c s)

theorem keeps_drew (s : State) : Keeps s s.drew := .other (s.drew_only.mono (by decide))

theorem keeps_collideFrame (c : FrameClass) (e : TxEntry) (s : State) : Keeps s (collideFrame c e s) := by
  have lost : Keeps s (reportDropped c e.body (removeTx c s)) := (keeps_reportDropped c _ _).after (keeps_removeTx c s)
  have kept (f : TxEntry → TxEntry) : Keeps s (keepTx c f s).drew := (keeps_drew _).after (keeps_keepTx c f s)
  unfold collideFrame
  refine iteInduction (motive := Keeps s) (fun _ => keeps_flushedEnd c e s) fun _ => ?_
  cases c <;> exact iteInduction (motive := Keeps s) (fun _ => lost) fun _ => kept _

theorem keeps_errors (n : Nat) (s : State) : Keeps s (s.modWire fun w => { w with errors := n }) :=
  .shrinks ((s.modWire_only _).mono (by decide)) fun d => by cases d <;> exact le_rfl

theorem keeps_wireTap (s : State) : Keeps s (wireTap s) := (keeps_errors 0 _).after (keeps_setCond _ _ s)

theorem keeps_countError (s : State) : Keeps s (countError s) := keeps_errors _ s

theorem keeps_dropRx (s : State) : Keeps s (dropRx s) :=
  .shrinks ((dropRx_only s).mono (by decide)) fun d => by cases d <;> exact le_rfl

theorem keeps_clearNotices (s : State) : Keeps s (clearNotices s) :=
  .shrinks ((clearNotices_only s).mono (by decide)) fun d => by cases d <;> exact le_rfl

theorem keeps_carrierUp (s : State) : Keeps s (carrierUp s) := by
  unfold carrierUp
  refine iteInduction (motive := Keeps s) (fun _ => ?_) fun _ => .refl s
  exact (Keeps.shrinks ((State.modWire_only _ _).mono (by decide)) fun d => by cases d <;> exact le_rfl).after
    (keeps_markBusy s)

end

end Sys2Proof.Machine
end

section
/-! PROOFS. The bounds kept by the noise tracker and the modem supervisor. -/

set_option Elab.async false

namespace Sys2Proof.Machine

open Sys2Proof

section
variable {s t u : State}

/-! ## Slots and candidates (R50 to R63) -/

theorem trackOk_some {k : Track} : trackOk (some k) = true ↔
    160000 ≤ k.period ∧ k.period ≤ 640000 ∧ 1 ≤ k.conf ∧ k.conf ≤ 15 ∧ (k.lender.isSome = true → k.conf = 4) := by
  cases lent : k.lender <;> simp [trackOk, lent, and_assoc]

theorem trackOk_slot (n : SlotName) (ok : TracksOk s) : trackOk (s.noise.slot n) = true := by
  cases n
  · exact ok.1
  · exact ok.2.1

theorem trackOk_placeWindow (now : Tick) (idle : Bool) (k : Option Track) :
    trackOk (k.map (placeWindow now idle)) = trackOk k := by
  cases k <;> rfl

theorem keeps_putSlot (n : SlotName) (k : Option Track) (s : State) (ok : TracksOk s → trackOk k = true) :
    Keeps s (putSlot n k s) := by
  have set : Keeps s (s.modNoise fun q =>
      q.setSlot (k.map (placeWindow s.now (spanIdle s.wireIdle (s.noise.slot (otherSlot n))))) n) := by
    refine .noise ((s.modNoise_only _).mono (by decide)) fun tracks => ?_
    have fits := (trackOk_placeWindow s.now (spanIdle s.wireIdle (s.noise.slot (otherSlot n))) k).trans (ok tracks)
    obtain ⟨a, b, candidates⟩ := tracks
    cases n
    · exact ⟨fits, b, candidates⟩
    · exact ⟨a, fits, candidates⟩
  unfold putSlot
  exact iteInduction (motive := Keeps s) (fun _ => (keeps_contend _).after set) fun _ => set

theorem trackOk_hit {t : Tick} {k x : Track} (ok : trackOk (some k) = true) (hit : hitTrack t k = some x) :
    trackOk (some x) = true := by
  obtain ⟨_, _, low, high, _⟩ := trackOk_some.mp ok
  have bounds := clampPeriod_bounds (k.period + elapsed t k.tNext)
  unfold hitTrack at hit
  dsimp only at hit
  split at hit
  · cases hit
    refine trackOk_some.mpr ⟨bounds.1, bounds.2, ?_, ?_, nofun⟩
    · show 1 ≤ min 15 (k.conf + 1)
      omega
    · show min 15 (k.conf + 1) ≤ 15
      omega
  · cases hit

theorem keeps_hitOne (t : Tick) (s : State) (n : SlotName) : Keeps s (hitOne t s n) := by
  unfold hitOne
  split
  · next x hit =>
    obtain ⟨k, slot, hit⟩ := Option.bind_eq_some_iff.mp hit
    exact keeps_putSlot n _ s fun ok => trackOk_hit (slot ▸ trackOk_slot n ok) hit
  · exact .refl s

theorem keeps_candidates (cs : List Tick) (s : State)
    (le : s.noise.candidates.length ≤ 6 → cs.length ≤ 6) :
    Keeps s (s.modNoise fun n => { n with candidates := cs }) :=
  .noise ((s.modNoise_only _).mono (by decide)) fun ⟨a, b, candidates⟩ => ⟨a, b, le candidates⟩

theorem length_appendCandidate_le (t : Tick) (cs : List Tick) (le : cs.length ≤ 6) :
    (appendCandidate t cs).length ≤ 6 := by
  unfold appendCandidate
  have length : (cs ++ [t]).length = cs.length + 1 := List.length_append
  dsimp only
  split
  · rw [List.length_tail]
    omega
  · omega

theorem trackOk_formed (t c : Tick) : trackOk (some (formedTrack t c)) = true := by
  have bounds := clampPeriod_bounds (elapsed t c * 4)
  exact trackOk_some.mpr ⟨bounds.1, bounds.2, Nat.le_of_ble_eq_true rfl, Nat.le_of_ble_eq_true rfl, nofun⟩

theorem keeps_formTrack (t : Tick) (s : State) : Keeps s (formTrack t s) := by
  have keep : Keeps s (s.modNoise fun n => { n with candidates := appendCandidate t n.candidates }) :=
    keeps_candidates _ s (length_appendCandidate_le t _)
  unfold formTrack
  dsimp only
  split
  · split
    · exact (keeps_putSlot _ _ _ fun _ => trackOk_formed t _).after
        (keeps_candidates _ s (List.length_filter_le _ _).trans)
    · exact keep
  · exact keep

/-- The tracker's other registers. -/
theorem keeps_noiseOther (last : Option Tick) (n : Nat) (s : State) :
    Keeps s (s.modNoise fun q => { q with lastImpulse := last, unmatched := n }) :=
  .noise ((s.modNoise_only _).mono (by decide)) id

theorem keeps_impulse (s : State) : Keeps s (impulse s) := by
  unfold impulse
  refine iteInduction (motive := Keeps s) (fun _ => iteInduction (motive := Keeps s) (fun _ => ?_) fun _ => ?_)
    fun _ => .refl s
  · exact (Keeps.foldl (keeps_hitOne _) _ _).after (keeps_noiseOther _ s.noise.unmatched s)
  · exact (keeps_formTrack _ _).after (keeps_noiseOther _ _ s)

theorem trackOk_miss {k : Track} (ok : trackOk (some k) = true) : trackOk (missTrack k) = true := by
  obtain ⟨short, long, low, high, lent⟩ := trackOk_some.mp ok
  unfold missTrack
  dsimp only
  split
  · exact trackOk_some.mpr ⟨short, long, low, high, lent⟩
  · next own =>
    split
    · rfl
    · refine trackOk_some.mpr ⟨short, long, ?_, ?_, fun l => absurd l own⟩
      · show 1 ≤ k.conf - 2
        omega
      · show k.conf - 2 ≤ 15
        omega

theorem keeps_captureExpiry (n : SlotName) (s : State) : Keeps s (captureExpiry n s) := by
  unfold captureExpiry
  refine iteInduction (motive := Keeps s) (fun _ => keeps_putSlot n _ s fun ok => ?_) fun _ => .refl s
  have slot := trackOk_slot n ok
  cases held : s.noise.slot n with
  | none => rfl
  | some k => exact trackOk_miss (held ▸ slot)

theorem keeps_refreshExpiry (n : SlotName) (s : State) : Keeps s (refreshExpiry n s) := by
  unfold refreshExpiry
  exact iteInduction (motive := Keeps s) (fun _ => keeps_putSlot n _ s fun _ => rfl) fun _ => .refl s

theorem keeps_lenderGone (s : State) (id : Nat) : Keeps s (lenderGone s id) := by
  refine Keeps.foldl (fun t n => ?_) _ s
  unfold lenderGoneAt
  split
  · exact iteInduction (motive := Keeps t) (fun _ => keeps_putSlot n _ t fun _ => rfl) fun _ => .refl t
  · exact .refl t

theorem keeps_refreshWindow (n : SlotName) (s : State) : Keeps s (refreshWindow n s) :=
  keeps_putSlot n _ s (trackOk_slot n)

theorem announcedOk_bounds {m : TrackMsg} (ok : announcedOk m = true) :
    160000 ≤ m.period.toNat ∧ m.period.toNat ≤ 640000 ∧ 4 ≤ m.conf.toNat := by
  simp only [announcedOk, Bool.and_eq_true, decide_eq_true_eq] at ok
  exact ⟨ok.1.1.1.1, ok.1.1.1.2, ok.1.1.2⟩

theorem trackOk_expireAtOnce (now : Tick) {k : Track} (ok : trackOk (some k) = true) :
    trackOk (expireAtOnce now k) = true := by
  unfold expireAtOnce
  split
  · exact trackOk_miss ok
  · exact ok

theorem trackOk_announcedTo (now : Tick) (src : Nat) (start arrival : Tick) {m : TrackMsg} {k : Track}
    (fits : announcedOk m = true) (ok : trackOk (some k) = true) :
    trackOk (announcedTo now src start arrival m k) = true := by
  obtain ⟨short, long, low, high, lent⟩ := trackOk_some.mp ok
  obtain ⟨short', long', four⟩ := announcedOk_bounds fits
  have conf : min m.conf.toNat 4 = 4 := Nat.min_eq_right four
  unfold announcedTo
  split
  · next l lender =>
    split
    · refine trackOk_expireAtOnce now (trackOk_some.mpr ⟨short', long', ?_, ?_, fun _ => conf⟩) <;>
        simp only [conf] <;> omega
    · exact trackOk_some.mpr ⟨short, long, low, high, fun _ => lent (by rw [lender]; rfl)⟩
  · next lender =>
    split
    · exact trackOk_some.mpr ⟨short, long, Nat.le_of_ble_eq_true rfl, Nat.le_of_ble_eq_true rfl, fun _ => rfl⟩
    · exact ok

theorem trackOk_borrowed (src : Nat) (start arrival : Tick) {m : TrackMsg} (fits : announcedOk m = true) :
    trackOk (some (borrowedTrack src start arrival m)) = true := by
  obtain ⟨short, long, four⟩ := announcedOk_bounds fits
  have conf : min m.conf.toNat 4 = 4 := Nat.min_eq_right four
  refine trackOk_some.mpr ⟨short, long, ?_, ?_, fun _ => conf⟩ <;> simp only [borrowedTrack, conf] <;> omega

theorem keeps_announceAt {m : TrackMsg} (src : Nat) (start arrival : Tick) (fits : announcedOk m = true) (s : State)
    (n : SlotName) : Keeps s (announceAt src start arrival m s n) := by
  unfold announceAt
  split
  · next k slot =>
    exact iteInduction (motive := Keeps s) (fun _ => keeps_putSlot n _ s fun ok =>
      trackOk_announcedTo _ _ _ _ fits (slot ▸ trackOk_slot n ok)) fun _ => .refl s
  · exact .refl s

theorem keeps_takeTrack (src : Nat) (start : Tick) (s : State) (m : TrackMsg) : Keeps s (takeTrack src start s m) := by
  unfold takeTrack
  refine iteInduction (motive := Keeps s) (fun fits => ?_) fun _ => .refl s
  have borrow (n : SlotName) := keeps_putSlot n _ s fun _ => trackOk_expireAtOnce s.now
    (trackOk_borrowed src start (start + m.offset.setWidth 32) fits)
  exact iteInduction (motive := Keeps s) (fun _ => Keeps.foldl (keeps_announceAt src start _ fits) _ s) fun _ =>
    iteInduction (motive := Keeps s) (fun _ => borrow .a) fun _ =>
    iteInduction (motive := Keeps s) (fun _ => borrow .b) fun _ => .refl s

theorem keeps_takeTracks (src : Nat) (start : Tick) (ms : List TrackMsg) (s : State) :
    Keeps s (takeTracks src start ms s) := Keeps.foldl (keeps_takeTrack src start) ms s

theorem keeps_noiseTap (s : State) : Keeps s (noiseTap s) := by
  refine Keeps.after (.noise ((State.modNoise_only _ _).mono (by decide)) fun ⟨a, b, candidates⟩ => ⟨a, b, ?_⟩)
    (keeps_setCond _ _ s)
  exact (List.length_filter_le _ _).trans candidates

/-! ## The modem supervisor (R69 to R86) -/

theorem keeps_modSup (f : Sup → Sup) (s : State) : Keeps s (s.modSup f) := .other ((s.modSup_only f).mono (by decide))

theorem keeps_modPower (f : Power → Power) (s : State) : Keeps s (s.modPower f) :=
  .other ((s.modPower_only f).mono (by decide))

theorem keeps_withdrawOffer (s : State) : Keeps s (withdrawOffer s) := .other ((withdrawOffer_only s).mono (by decide))

theorem keeps_goOff (s : State) : Keeps s (goOff s) := .other ((goOff_only s).mono (by decide))

theorem keeps_enterSynced (s : State) : Keeps s (enterSynced s) := (keeps_setCond _ _ _).after (keeps_modSup _ s)

theorem keeps_enterTraining (s : State) : Keeps s (enterTraining s) := by
  unfold enterTraining
  exact iteInduction (motive := Keeps s) (fun _ => (keeps_enterSynced _).after (keeps_modSup _ s)) fun _ =>
    keeps_modSup _ s

theorem keeps_enterBackoff (s : State) : Keeps s (enterBackoff s) := keeps_modSup _ s

theorem keeps_enterLost (s : State) : Keeps s (enterLost s) := by
  have lost : Keeps s ((withdrawOffer s).modSup fun u =>
      { u with state := .lost, timer := some s.now, holdTime := 0 }) :=
    (keeps_modSup _ _).after (keeps_withdrawOffer s)
  unfold enterLost
  exact iteInduction (motive := Keeps s)
    (fun _ => (keeps_setCond _ _ _).after ((keeps_modSup _ _).after lost)) fun _ => (keeps_modSup _ _).after lost

theorem keeps_pwrOff (s : State) : Keeps s (pwrOff s) :=
  (keeps_setCond _ _ _).after ((keeps_modSup _ _).after (keeps_goOff s))

theorem keeps_pwrOn (s : State) : Keeps s (pwrOn s) := keeps_modSup _ s

theorem keeps_readyChange (old new : Bool) (s : State) : Keeps s (readyChange old new s) := by
  unfold readyChange
  exact iteInduction (motive := Keeps s) (fun _ => iteInduction (motive := Keeps s)
    (fun _ => (keeps_setCond _ _ _).after (keeps_modSup _ s)) fun _ => keeps_modSup _ s) fun _ => .refl s

theorem keeps_readyTimerExpiry (s : State) : Keeps s (readyTimerExpiry s) := by
  unfold readyTimerExpiry
  exact iteInduction (motive := Keeps s) (fun _ => (keeps_setCond _ _ _).after (keeps_modSup _ s)) fun _ => .refl s

theorem keeps_syncRise (s : State) : Keeps s (syncRise s) := by
  unfold syncRise
  exact iteInduction (motive := Keeps s) (fun _ => keeps_enterSynced s) fun _ => .refl s

theorem keeps_syncFall (s : State) : Keeps s (syncFall s) := by
  unfold syncFall
  exact iteInduction (motive := Keeps s) (fun _ => keeps_enterLost s) fun _ => .refl s

theorem keeps_trainingTimeout (s : State) : Keeps s (trainingTimeout s) := by
  unfold trainingTimeout
  refine iteInduction (motive := Keeps s) (fun _ => (keeps_enterBackoff _).after ?_) fun _ => .refl s
  exact iteInduction (motive := Keeps s) (fun _ => (keeps_setCond _ _ _).after (keeps_modSup _ s)) fun _ =>
    keeps_modSup _ s

theorem keeps_graceTimeout (s : State) : Keeps s (graceTimeout s) := .other ((graceTimeout_only s).mono (by decide))

theorem keeps_backoffWaitEnd (s : State) : Keeps s (backoffWaitEnd s) := by
  unfold backoffWaitEnd
  exact iteInduction (motive := Keeps s) (fun _ => keeps_enterTraining s) fun _ => .refl s

theorem keeps_holdTimeTap (s : State) : Keeps s (holdTimeTap s) := by
  unfold holdTimeTap
  refine iteInduction (motive := Keeps s) (fun _ => ?_) fun _ => .refl s
  refine iteInduction (motive := Keeps s) (fun _ => keeps_modSup _ s) fun _ => ?_
  exact iteInduction (motive := Keeps s) (fun _ => (keeps_setCond _ _ _).after (keeps_modSup _ s)) fun _ =>
    keeps_modSup _ s

theorem keeps_supTap (s : State) : Keeps s (supTap s) := keeps_modSup _ s

theorem keeps_uplinkTake (station : Nat) (f : LinkFrame) (s : State) : Keeps s (uplinkTake station f s) :=
  keeps_modSup _ s

theorem keeps_packetReceive (f : LinkFrame) (s : State) : Keeps s (packetReceive f s) := by
  unfold packetReceive
  exact iteInduction (motive := Keeps s) (fun _ => iteInduction (motive := Keeps s)
    (fun _ => keeps_uplinkTake _ f s) fun _ => keeps_offerData _ f s) fun _ => .refl s

theorem keeps_emit (o : Out) (s : State) : Keeps s (s.emit o) := .other ((s.emit_only o).mono (by decide))

theorem keeps_routeDown (f : LinkFrame) (s : State) : Keeps s (routeDown f s) := by
  unfold routeDown
  split
  · exact (keeps_offerData _ f _).after (keeps_emit _ s)
  · exact iteInduction (motive := Keeps s) (fun _ => keeps_emit _ s) fun _ => keeps_offerData _ f s

theorem keeps_downstreamFrame (began : Tick) (f : LinkFrame) (s : State) : Keeps s (downstreamFrame began f s) := by
  unfold downstreamFrame
  exact iteInduction (motive := Keeps s) (fun _ => keeps_routeDown f s) fun _ => .refl s

/-- The data queue without its head, or with its head addressed. -/
theorem keeps_dataQueue (q : List TxEntry) (s : State) (le : q.length ≤ s.wire.data.length) :
    Keeps s (s.modWire fun w => { w with data := q }) :=
  .shrinks ((s.modWire_only _).mono (by decide)) fun d => by
    cases d
    · exact le_rfl
    · exact le_rfl
    · exact le

theorem keeps_addressHead (s : State) : Keeps s (addressHead s) := by
  unfold addressHead
  split
  · next e rest data =>
    have shorter : Keeps s (s.modWire fun w => { w with data := rest }) :=
      keeps_dataQueue rest s (by rw [data]; exact Nat.le_succ _)
    refine iteInduction (motive := Keeps s) (fun _ => ?_) fun _ => .refl s
    split
    · exact shorter
    · refine iteInduction (motive := Keeps s) (fun _ => ?_) fun _ => ?_
      · split
        · exact (keeps_uplinkTake _ _ _).after shorter
        · exact shorter
      · exact keeps_dataQueue _ s (by rw [data]; exact le_rfl)
  · exact .refl s

theorem keeps_settleDataHead (s : State) : Keeps s (settleDataHead s) :=
  Keeps.foldl (fun t _ => keeps_addressHead t) _ s

theorem keeps_startTransfer (s : State) : Keeps s (startTransfer s) := .other ((startTransfer_only s).mono (by decide))

theorem keeps_mailboxOffer (s : State) : Keeps s (mailboxOffer s) := .other ((mailboxOffer_only s).mono (by decide))

end

end Sys2Proof.Machine
end

section
/-! PROOFS. The bounds kept by the call controller and the port controllers. -/

set_option Elab.async false

namespace Sys2Proof.Machine

open Sys2Proof

section
variable {s t u : State}

/-! ## The line call record (R110 to R122) -/

theorem keeps_modPort (n : PortNo) (f : Port → Port) (s : State) : Keeps s (s.modPort n f) :=
  .other ((s.modPort_only n f).mono (by decide))

theorem keeps_modPorts (f : Ports → Ports) (s : State) : Keeps s (s.modPorts f) :=
  .other ((s.modPorts_only f).mono (by decide))

theorem keeps_idlePort (n : PortNo) (s : State) : Keeps s (idlePort n s) := keeps_modPort n _ s

theorem keeps_connectPort (n : PortNo) (c : CallRef) (s : State) : Keeps s (connectPort n c s) := keeps_modPort n _ s

theorem keeps_clearPort (n : PortNo) (cause : Option PortCause) (ref : Option (Nat × Nat)) (s : State) :
    Keeps s (clearPort n cause ref s) :=
  (Keeps.call ((dropBinding_only n _).mono (by decide)) rfl).after (keeps_modPort n _ s)

theorem keeps_refusePort (n : PortNo) (c : RefuseCause) (ref : Nat × Nat) (s : State) :
    Keeps s (refusePort n c ref s) := keeps_clearPort n _ _ s

theorem keeps_sendRequest (k : RequestKind) (dst : Nat) (m : RequestMsg) (s : State) :
    Keeps s (sendRequest k dst m s) := (keeps_offerControl _ _ _).after (keeps_modPorts _ s)

/-- The party list of every record that stands keeps its length in range. -/
theorem keeps_modRecord (f : CallRecord → CallRecord) (s : State)
    (range : ∀ r, s.call.record = some r → 1 ≤ r.parties.length → r.parties.length ≤ 3 →
      1 ≤ (f r).parties.length ∧ (f r).parties.length ≤ 3) : Keeps s (modRecord f s) := by
  refine .ofRecord ((modRecord_only f s).mono (by decide)) fun _ ⟨starting, ok⟩ => ⟨fun phase => ?_, fun r record => ?_⟩
  · show s.call.record.map f = none
    rw [starting phase, Option.map_none]
  · obtain ⟨q, before, rfl⟩ := Option.map_eq_some_iff.mp record
    obtain ⟨holding, low, high⟩ := ok q before
    exact ⟨holding, range q before low high⟩

theorem keeps_abortTest (s : State) : Keeps s (abortTest s) :=
  .listsShrink ((abortTest_only s).mono (by decide)) le_rfl le_rfl

theorem keeps_takeClear (n : PortNo) (id : Nat) (c : ClearCause) (s : State) : Keeps s (takeClear n id c s) := by
  unfold takeClear
  split
  · exact iteInduction (motive := Keeps s) (fun _ => keeps_clearPort n _ _ s) fun _ => .refl s
  · exact .refl s

theorem keeps_sendClear (st po id : Nat) (c : ClearCause) (s : State) : Keeps s (sendClear st po id c s) := by
  unfold sendClear
  refine iteInduction (motive := Keeps s) (fun _ => ?_) fun _ => keeps_offerControl _ _ s
  split
  · exact keeps_takeClear _ id c s
  · exact .refl s

/-- A record that ends bounds nothing. -/
theorem keeps_noRecord {f : Call → Call} (gone : (f s.call).record = none) : Keeps s (s.modCall f) :=
  .ofRecord ((s.modCall_only f).mono (by decide)) fun _ _ =>
    ⟨fun _ => gone, fun _ record => nomatch gone.symm.trans record⟩

theorem keeps_endRecord (cause : Option ClearCause) (s : State) : Keeps s (endRecord cause s) := by
  unfold endRecord
  split
  · dsimp only
    split
    · exact (Keeps.foldl (fun t p => keeps_sendClear _ _ _ _ t) _ _).after (keeps_noRecord rfl)
    · exact keeps_noRecord rfl
  · exact .refl s

theorem keeps_removeParty (st po : Nat) (s : State) : Keeps s (removeParty st po s) := by
  refine .ofRecord ((removeParty_only st po s).mono (by decide)) fun _ ⟨starting, ok⟩ =>
    ⟨fun phase => ?_, fun r record => ?_⟩
  · show s.call.record.bind _ = none
    rw [starting phase, Option.bind_none]
  · obtain ⟨q, before, left⟩ := Option.bind_eq_some_iff.mp record
    obtain ⟨holding, low, high⟩ := ok q before
    have fewer : (q.parties.filter fun p => !isParty st po p).length ≤ q.parties.length := List.length_filter_le _ _
    split at left
    · cases left
    · next some =>
      cases left
      exact ⟨holding, List.length_pos_iff.mpr some, fewer.trans high⟩

theorem keeps_createCall (st po : Nat) (s : State) (holding : s.hold.state = .holding) :
    Keeps s (createCall st po s) := by
  refine Keeps.after (.ofRecord ((State.modCall_only _ _).mono (by decide)) fun runs _ => ⟨fun phase => ?_,
    fun r record => ?_⟩) (keeps_abortTest s)
  · exact nomatch runs.symm.trans phase
  · cases record
    exact ⟨holding, le_rfl, Nat.le_of_ble_eq_true rfl⟩

theorem keeps_regrant (st po : Nat) (s : State) : Keeps s (regrant st po s) :=
  keeps_modRecord _ s fun r _ low high => by
    dsimp only
    rw [List.length_map]
    exact ⟨low, high⟩

/-- A party joins a record that has fewer than three (R115). -/
theorem keeps_joinCall (st po : Nat) (s : State)
    (room : ∀ r, s.call.record = some r → r.parties.length < 3) : Keeps s (joinCall st po s) :=
  keeps_modRecord _ s fun r record _ _ => by
    have fewer := room r record
    dsimp only
    rw [List.length_append, List.length_singleton]
    omega

theorem joinRefusal_none {r : CallRecord} {st po cls : Nat} (admitted : joinRefusal r st po cls s = none) :
    r.parties.length < 3 := by
  unfold joinRefusal at admitted
  split at admitted
  · cases admitted
  · split at admitted
    · cases admitted
    · split at admitted
      · cases admitted
      · omega

theorem keeps_judgeHolding (k : RequestKind) (st po cls : Nat) (s : State) (holding : s.hold.state = .holding) :
    Keeps s (judgeHolding k st po cls s).1 := by
  unfold judgeHolding
  split
  · exact .refl s
  · split
    · exact .refl s
    · split
      · next r record =>
        split
        · exact keeps_regrant st po s
        · split
          · exact .refl s
          · split
            · exact .refl s
            · next admitted =>
              exact keeps_joinCall st po s fun q there => by
                cases record.symm.trans there
                exact joinRefusal_none admitted
      · split
        · exact .refl s
        · split
          · exact .refl s
          · exact keeps_createCall st po s holding

theorem keeps_judge (k : RequestKind) (st po cls : Nat) (s : State) : Keeps s (judge k st po cls s).1 := by
  unfold judge
  split
  · next holding => exact keeps_judgeHolding k st po cls s holding
  · exact .refl s
  · exact .refl s
  · exact .refl s

theorem keeps_requestFrame (k : RequestKind) (st : Nat) (m : RequestMsg) (s : State) :
    Keeps s (requestFrame k st m s) := by
  have judged := keeps_judge k st m.port m.cls s
  unfold requestFrame
  split
  · next t v e =>
    rw [e] at judged
    exact (keeps_offerControl _ _ _).after judged
  · next t e =>
    rw [e] at judged
    exact judged

theorem keeps_takeLeave (st po ref : Nat) (s : State) : Keeps s (takeLeave st po ref s) := by
  unfold takeLeave
  split
  · exact iteInduction (motive := Keeps s) (fun _ => keeps_removeParty st po s) fun _ => .refl s
  · exact .refl s

theorem keeps_seizeTimeout (s : State) : Keeps s (seizeTimeout s) := by
  unfold seizeTimeout
  exact iteInduction (motive := Keeps s) (fun _ => (keeps_endRecord _ _).after (keeps_setCond _ _ s)) fun _ => .refl s

/-- The record rewritten, its parties as they are. -/
theorem keeps_sameParties {f : CallRecord → CallRecord} (s : State)
    (same : ∀ r, (f r).parties.length = r.parties.length := by exact fun _ => rfl) : Keeps s (modRecord f s) :=
  keeps_modRecord f s fun r _ low high => by
    rw [same]
    exact ⟨low, high⟩

theorem keeps_currentRise (s : State) : Keeps s (currentRise s) := by
  unfold currentRise
  split
  · exact iteInduction (motive := Keeps s) (fun _ => .refl s) fun _ =>
      (keeps_setCond _ _ _).after (keeps_sameParties s)
  · exact .refl s

theorem keeps_settleLoss (s : State) : Keeps s (settleLoss s) := keeps_sameParties s

theorem keeps_lossTimeout (s : State) : Keeps s (lossTimeout s) := by
  unfold lossTimeout
  exact iteInduction (motive := Keeps s) (fun _ => keeps_endRecord _ s) fun _ => .refl s

theorem keeps_startOutpulse (s : State) : Keeps s (startOutpulse s) := by
  unfold startOutpulse
  split
  · split
    · exact iteInduction (motive := Keeps s) (fun _ => keeps_sameParties s) fun _ => .refl s
    · exact .refl s
  · exact .refl s

theorem keeps_nextPart (s : State) : Keeps s (nextPart s) := keeps_sameParties s

theorem keeps_breakEnd (s : State) : Keeps s (breakEnd s) := by
  unfold breakEnd
  exact iteInduction (motive := Keeps s) (fun _ => keeps_nextPart s) fun _ => .refl s

theorem keeps_makeEnd (s : State) : Keeps s (makeEnd s) := by
  unfold makeEnd
  exact iteInduction (motive := Keeps s) (fun _ => keeps_nextPart s) fun _ => .refl s

theorem keeps_pauseEnd (s : State) : Keeps s (pauseEnd s) := by
  unfold pauseEnd
  exact iteInduction (motive := Keeps s) (fun _ => keeps_nextPart s) fun _ => .refl s

theorem keeps_staleFrame (st po ref : Nat) (s : State) : Keeps s (staleFrame st po ref s) := by
  unfold staleFrame
  exact iteInduction (motive := Keeps s) (fun _ => .refl s) fun _ => (keeps_sendClear _ _ _ _ _).after
    (.call ((s.modCall_only _).mono (by decide)) rfl)

theorem keeps_partyVoice (st po ref : Nat) (q : Byte) (x : Speech) (s : State) :
    Keeps s (partyVoice st po ref q x s) := by
  unfold partyVoice
  exact iteInduction (motive := Keeps s) (fun _ => keeps_sameParties s fun _ => List.length_map _) fun _ =>
    keeps_staleFrame st po ref s

theorem keeps_takeDial (st po ref : Nat) (i : DialItem) (s : State) : Keeps s (takeDial st po ref i s) := by
  unfold takeDial
  refine iteInduction (motive := Keeps s) (fun _ => keeps_sameParties s fun r => ?_) fun _ =>
    keeps_staleFrame st po ref s
  split <;> rfl

theorem keeps_dialFrame (st : Nat) (m : DialMsg) (s : State) : Keeps s (dialFrame st m s) := by
  unfold dialFrame
  split
  · exact keeps_takeDial _ _ _ _ s
  · exact iteInduction (motive := Keeps s) (fun _ => .refl s) fun _ => keeps_staleFrame _ _ _ s

theorem keeps_partySilence (st po : Nat) (s : State) : Keeps s (partySilence st po s) := by
  unfold partySilence
  split
  · exact iteInduction (motive := Keeps s)
      (fun _ => (keeps_sendClear _ _ _ _ _).after (keeps_removeParty st po s)) fun _ => .refl s
  · exact .refl s

theorem keeps_sendParty (id : Nat) (p : Party) (x : Speech) (s : State) : Keeps s (sendParty id p x s) := by
  unfold sendParty
  refine iteInduction (motive := Keeps s) (fun _ => ?_) fun _ => keeps_offerVoice _ _ s
  split
  · exact keeps_modPort _ _ s
  · exact .refl s

theorem keeps_mixTap (line : Speech) (s : State) : Keeps s (mixTap line s) := by
  unfold mixTap
  split
  · exact (Keeps.foldl (fun t _ => keeps_sendParty _ _ _ t) _ _).after
      ((keeps_emit _ _).after (keeps_sameParties s fun _ => List.length_map _))
  · exact .refl s

/-! ## Intercom bindings (R127 to R130) -/

theorem keeps_takeOffer (st po : Nat) (tag : Option Nat) (takers : List PortNo) (s : State) :
    Keeps s (takeOffer st po tag takers s) := by
  unfold takeOffer
  refine Keeps.after (.call ((State.modCall_only _ _).mono (by decide)) rfl) ?_
  exact Keeps.foldl (fun t n => keeps_modPort n _ t) takers s

theorem keeps_judgeOffer (st po target : Nat) (tag : Option Nat) (s : State) :
    Keeps s (judgeOffer st po target tag s).1 := by
  unfold judgeOffer
  split
  · exact .refl s
  · split
    · exact .refl s
    · exact keeps_takeOffer st po tag _ s

theorem keeps_offerFrame (st : Nat) (m : RequestMsg) (s : State) : Keeps s (offerFrame st m s) := by
  unfold offerFrame
  exact iteInduction (motive := Keeps s) (fun _ => .refl s) fun _ =>
    (keeps_offerControl _ _ _).after (keeps_judgeOffer st m.port m.target (some m.tag) s)

theorem keeps_endBinding (b : Binding) (s : State) : Keeps s (endBinding b s) :=
  (Keeps.call ((State.modCall_only _ _).mono (by decide)) rfl).after
    (Keeps.foldl (fun t n => iteInduction (motive := Keeps t) (fun _ => keeps_clearPort n _ _ t) fun _ =>
      keeps_idlePort n t) b.locals s)

theorem keeps_endFrame (st : Nat) (m : RequestMsg) (s : State) : Keeps s (endFrame st m s) := by
  unfold endFrame
  split
  · exact keeps_endBinding _ s
  · split
    · exact iteInduction (motive := Keeps s) (fun _ => keeps_clearPort _ _ _ s) fun _ => .refl s
    · exact .refl s

theorem keeps_acceptFrame (st : Nat) (m : RequestMsg) (s : State) : Keeps s (acceptFrame st m s) := by
  unfold acceptFrame
  refine iteInduction (motive := Keeps s) (fun _ => .refl s) fun _ => ?_
  dsimp only
  split
  · exact iteInduction (motive := Keeps s) (fun _ => keeps_connectPort _ _ s) fun _ => keeps_sendRequest _ _ _ s
  · exact keeps_sendRequest _ _ _ s

theorem keeps_leaveBinding (n : PortNo) (ref : Nat) (s : State) : Keeps s (leaveBinding n ref s) :=
  .call ((leaveBinding_only n ref s).mono (by decide)) rfl

theorem keeps_haltCalls (s : State) : Keeps s (haltCalls s) := keeps_noRecord rfl

/-! ## Requests and digits of the ports (R91 to R97) -/

theorem keeps_takeAnswer (n : PortNo) (k : RequestKind) (h : Nat) (v : Verdict) (s : State) :
    Keeps s (takeAnswer n k h v s) := by
  unfold takeAnswer
  split
  · exact keeps_refusePort n _ _ s
  · exact .refl s
  · exact iteInduction (motive := Keeps s) (fun _ => keeps_modPort n _ s) fun _ => keeps_connectPort n _ s

theorem keeps_makeSeize (n : PortNo) (k : RequestKind) (s : State) : Keeps s (makeSeize n k s) := by
  unfold makeSeize
  split
  · exact keeps_refusePort n _ _ s
  · refine iteInduction (motive := Keeps s) (fun _ => ?_) fun _ =>
      (keeps_sendRequest _ _ _ _).after (keeps_modPort n _ s)
    have judged : Keeps s (judge k s.own (portNo n) (s.portClass n) (useTag s)).1 :=
      (keeps_judge _ _ _ _ _).after (keeps_modPorts _ s)
    split
    · next t v e =>
      rw [e] at judged
      exact (keeps_takeAnswer _ _ _ _ _).after judged
    · next t e =>
      rw [e] at judged
      exact (keeps_modPort n _ t).after judged

theorem keeps_requestLine (n : PortNo) (k : RequestKind) (s : State) : Keeps s (requestLine n k s) := by
  unfold requestLine
  exact iteInduction (motive := Keeps s) (fun _ => keeps_modPort n _ s) fun _ => keeps_makeSeize n k s

theorem keeps_makeLocalOffer (n : PortNo) (target : Nat) (s : State) : Keeps s (makeLocalOffer n target s) := by
  unfold makeLocalOffer
  exact iteInduction (motive := Keeps s) (fun _ => keeps_refusePort n _ _ s) fun _ =>
    iteInduction (motive := Keeps s) (fun _ => keeps_refusePort n _ _ s) fun _ =>
    iteInduction (motive := Keeps s) (fun _ => (keeps_modPort n _ _).after (keeps_takeOffer _ _ _ _ s)) fun _ =>
      keeps_refusePort n _ _ s

theorem keeps_makeOffer (n : PortNo) (st target : Nat) (s : State) : Keeps s (makeOffer n st target s) := by
  unfold makeOffer
  refine iteInduction (motive := Keeps s) (fun _ => keeps_makeLocalOffer n target s) fun _ => ?_
  split
  · exact keeps_refusePort n _ _ s
  · exact iteInduction (motive := Keeps s) (fun _ => keeps_refusePort n _ _ s) fun _ =>
      (keeps_sendRequest _ _ _ _).after (keeps_modPort n _ s)

theorem keeps_requestOffer (n : PortNo) (st target : Nat) (s : State) : Keeps s (requestOffer n st target s) := by
  unfold requestOffer
  exact iteInduction (motive := Keeps s) (fun _ => keeps_modPort n _ s) fun _ => keeps_makeOffer n st target s

theorem keeps_releaseHeld (all : Bool) (n : PortNo) (s : State) : Keeps s (releaseHeld all n s) := by
  unfold releaseHeld
  split
  · exact iteInduction (motive := Keeps s) (fun _ => iteInduction (motive := Keeps s)
      (fun _ => iteInduction (motive := Keeps s) (fun _ => keeps_makeOffer n _ _ s) fun _ => .refl s)
      fun _ => keeps_makeSeize n _ s) fun _ => .refl s
  · exact .refl s

theorem keeps_requestFailed (n : PortNo) (q : OutReq) (s : State) : Keeps s (requestFailed n q s) :=
  keeps_clearPort n _ _ s

theorem keeps_requestTimeout (n : PortNo) (s : State) : Keeps s (requestTimeout n s) := by
  unfold requestTimeout
  split
  · exact iteInduction (motive := Keeps s) (fun _ => keeps_requestFailed n _ s) fun _ => .refl s
  · exact .refl s

theorem keeps_replyAt (src : Nat) (m : ReplyMsg) (n : PortNo) (s : State) : Keeps s (replyAt src m n s) := by
  unfold replyAt
  split
  · exact keeps_takeAnswer _ _ _ _ s
  · exact .refl s

theorem keeps_replyFrame (src : Nat) (m : ReplyMsg) (s : State) : Keeps s (replyFrame src m s) := by
  unfold replyFrame
  exact iteInduction (motive := Keeps s) (fun _ => keeps_replyAt src m .one s) fun _ =>
    iteInduction (motive := Keeps s) (fun _ => keeps_replyAt src m .two s) fun _ => .refl s

theorem keeps_failDial (n : PortNo) (s : State) : Keeps s (failDial n s) := keeps_clearPort n _ _ s

theorem keeps_firstDigit (n : PortNo) (d : Dialled) (s : State) : Keeps s (firstDigit n d s) := by
  unfold firstDigit
  split
  · exact iteInduction (motive := Keeps s) (fun _ => keeps_requestLine n _ s) fun _ =>
      iteInduction (motive := Keeps s) (fun _ => keeps_failDial n s) fun _ => keeps_modPort n _ s
  · exact keeps_failDial n s

theorem keeps_portDigit (n : PortNo) (st : Nat) (d : Dialled) (s : State) : Keeps s (portDigit n st d s) := by
  unfold portDigit
  split
  · exact iteInduction (motive := Keeps s) (fun _ => keeps_requestOffer n _ _ s) fun _ => keeps_failDial n s
  · exact keeps_failDial n s

theorem keeps_sendDial (n : PortNo) (i : DialItem) (s : State) : Keeps s (sendDial n i s) := by
  unfold sendDial
  split
  · exact iteInduction (motive := Keeps s) (fun _ => keeps_takeDial _ _ _ _ s) fun _ => keeps_offerControl _ _ s
  · exact .refl s

theorem keeps_takeDigit (n : PortNo) (d : Dialled) (s : State) : Keeps s (takeDigit n d s) := by
  unfold takeDigit
  dsimp only
  split
  · split
    · exact keeps_firstDigit n d s
    · exact keeps_portDigit n _ d s
  · split
    · exact keeps_sendDial n _ s
    · exact .refl s
  · exact .refl s

theorem keeps_pulseCountClose (n : PortNo) (s : State) : Keeps s (pulseCountClose n s) := by
  unfold pulseCountClose
  exact iteInduction (motive := Keeps s) (fun _ => (keeps_takeDigit _ _ _).after (keeps_modPort n _ s)) fun _ => .refl s

theorem keeps_takeFlash (n : PortNo) (s : State) : Keeps s (takeFlash n s) := by
  have closed : Keeps s (if 0 < (s.port n).pulses then takeDigit n .invalid (clearCount n s) else s) :=
    iteInduction (motive := Keeps s) (fun _ => (keeps_takeDigit _ _ _).after (keeps_modPort n _ s)) fun _ => .refl s
  unfold takeFlash
  exact iteInduction (motive := Keeps s) (fun _ => (keeps_sendDial n _ _).after closed) fun _ => closed

theorem keeps_toneDigit (n : PortNo) (k : Key) (s : State) : Keeps s (toneDigit n k s) := by
  unfold toneDigit
  exact iteInduction (motive := Keeps s) (fun _ => keeps_takeDigit n _ s) fun _ => .refl s

theorem keeps_portDigitTimeout (n : PortNo) (s : State) : Keeps s (portDigitTimeout n s) := by
  unfold portDigitTimeout
  refine iteInduction (motive := Keeps s) (fun _ => ?_) fun _ => .refl s
  split
  · exact keeps_requestOffer n _ _ s
  · exact .refl s

/-! ## Hook, ringing and speech (R90, R98 to R108) -/

theorem keeps_wake (s : State) : Keeps s (wake s) := .other ((wake_only s).mono (by decide))

theorem keeps_acceptOffer (n : PortNo) (st po ref : Nat) (s : State) : Keeps s (acceptOffer n st po ref s) := by
  have taken (others : List PortNo) (f : Call → Call) (same : ∀ c, (f c).record = c.record) :
      Keeps s (connectPort n (.intercom st po ref s.own) ((others.foldl (fun s m => idlePort m s) s).modCall f)) :=
    (keeps_connectPort n _ _).after ((Keeps.call ((State.modCall_only _ _).mono (by decide)) (same _)).after
      (Keeps.foldl (fun t m => keeps_idlePort m t) others s))
  unfold acceptOffer
  dsimp only
  refine iteInduction (motive := Keeps s) (fun _ => ?_) fun _ =>
    (keeps_sendRequest _ _ _ _).after (taken _ _ fun _ => rfl)
  split
  · exact iteInduction (motive := Keeps s) (fun _ => (keeps_connectPort _ _ _).after (taken _ _ fun _ => rfl)) fun _ =>
      taken _ _ fun _ => rfl
  · exact taken _ _ fun _ => rfl

theorem keeps_offHook (n : PortNo) (s : State) : Keeps s (offHook n s) := by
  have lifted : Keeps s ((wake s).modPort n fun p => { p with offHook := true, breakStart := none, ringOn := false }) :=
    (keeps_modPort n _ _).after (keeps_wake s)
  unfold offHook
  dsimp only
  split
  · exact iteInduction (motive := Keeps s) (fun _ => (keeps_modPort n _ _).after lifted) fun _ =>
      (keeps_modPort n _ _).after lifted
  · split
    · exact (keeps_acceptOffer _ _ _ _ _).after lifted
    · exact (keeps_requestLine _ _ _).after lifted
  · exact lifted

theorem keeps_hangUp (n : PortNo) (s : State) : Keeps s (hangUp n s) := by
  unfold hangUp
  dsimp only
  split
  · split
    · exact iteInduction (motive := Keeps s) (fun _ => .refl s) fun _ => iteInduction (motive := Keeps s)
        (fun _ => keeps_takeLeave _ _ _ s) fun _ => keeps_sendRequest _ _ _ s
    · exact .refl s
  · split
    · split
      · exact iteInduction (motive := Keeps s) (fun _ => .refl s) fun _ => keeps_offerControl _ _ s
      · exact .refl s
    · refine iteInduction (motive := Keeps s) (fun _ => ?_) fun _ => keeps_sendRequest _ _ _ s
      split
      · exact keeps_endBinding _ s
      · exact .refl s
    · exact .refl s
  · split
    · exact iteInduction (motive := Keeps s) (fun _ => keeps_takeLeave _ _ _ s) fun _ => keeps_sendRequest _ _ _ s
    · refine iteInduction (motive := Keeps s) (fun _ => ?_) fun _ => keeps_sendRequest _ _ _ s
      split
      · exact iteInduction (motive := Keeps s) (fun _ => keeps_clearPort _ _ _ s) fun _ => .refl s
      · exact .refl s
    · exact .refl s
  · exact .refl s

theorem keeps_onHook (n : PortNo) (s : State) : Keeps s (onHook n s) :=
  (Keeps.call ((dropBinding_only n _).mono (by decide)) rfl).after ((keeps_modPort n _ _).after (keeps_hangUp n s))

theorem keeps_onHookEvent (n : PortNo) (s : State) : Keeps s (onHookEvent n s) := by
  unfold onHookEvent
  exact iteInduction (motive := Keeps s) (fun _ => keeps_onHook n s) fun _ => .refl s

theorem keeps_hookRise (n : PortNo) (s : State) : Keeps s (hookRise n s) := by
  unfold hookRise
  refine iteInduction (motive := Keeps s) (fun _ => iteInduction (motive := Keeps s) (fun _ => ?_) fun _ =>
    keeps_offHook n s) fun _ => .refl s
  split
  · exact iteInduction (motive := Keeps s) (fun _ => (keeps_modPort n _ _).after (keeps_modPort n _ s)) fun _ =>
      iteInduction (motive := Keeps s) (fun _ => (keeps_takeFlash n _).after (keeps_modPort n _ s)) fun _ =>
        (keeps_offHook n _).after (keeps_onHook n s)
  · exact .refl s

theorem keeps_ringBurst (s : State) : Keeps s (ringBurst s) := by
  unfold ringBurst
  refine iteInduction (motive := Keeps s) (fun _ => ?_) fun _ => .refl s
  refine (Keeps.eachPort (fun n t => .other ((burstPort_only n t).mono (by decide))) _).after ?_
  refine (Keeps.listsShrink ((State.modFault_only _ _).mono (by decide)) le_rfl le_rfl).after ?_
  exact (keeps_abortTest _).after ((keeps_modPorts _ _).after (keeps_wake s))

theorem keeps_offerRingTimeout (n : PortNo) (s : State) : Keeps s (offerRingTimeout n s) := by
  unfold offerRingTimeout
  refine iteInduction (motive := Keeps s) (fun _ => ?_) fun _ => .refl s
  split
  · exact (keeps_leaveBinding n _ _).after (keeps_idlePort n s)
  · exact .refl s

theorem keeps_ringBackTimeout (n : PortNo) (s : State) : Keeps s (ringBackTimeout n s) := by
  unfold ringBackTimeout
  exact iteInduction (motive := Keeps s) (fun _ => (keeps_clearPort n _ _ _).after (keeps_hangUp n s)) fun _ => .refl s

theorem keeps_holderSilence (n : PortNo) (s : State) : Keeps s (holderSilence n s) := by
  unfold holderSilence
  exact iteInduction (motive := Keeps s) (fun _ => keeps_clearPort n _ _ s) fun _ => .refl s

theorem keeps_farSilence (n : PortNo) (s : State) : Keeps s (farSilence n s) := by
  unfold farSilence
  exact iteInduction (motive := Keeps s) (fun _ => keeps_clearPort n _ _ s) fun _ => .refl s

theorem keeps_sendVoice (codec : PortNo → Speech) (n : PortNo) (s : State) : Keeps s (sendVoice codec n s) := by
  unfold sendVoice
  dsimp only
  split
  · exact iteInduction (motive := Keeps s) (fun _ => (keeps_partyVoice _ _ _ _ _ _).after (keeps_modPort n _ s)) fun _ =>
      (keeps_offerVoice _ _ _).after (keeps_modPort n _ s)
  · refine iteInduction (motive := Keeps s) (fun _ => ?_) fun _ =>
      (keeps_offerVoice _ _ _).after (keeps_modPort n _ s)
    split
    · exact (keeps_emit _ _).after (keeps_modPort n _ s)
    · exact keeps_modPort n _ s
  · exact .refl s

theorem keeps_voiceTap (codec : PortNo → Speech) (line : Speech) (s : State) : Keeps s (voiceTap codec line s) :=
  (Keeps.eachPort (fun n t => .other ((playPort_only n t).mono (by decide))) _).after
    ((keeps_mixTap line _).after (Keeps.eachPort (keeps_sendVoice codec) s))

theorem keeps_voiceFrame (src : Nat) (m : VoiceMsg) (s : State) : Keeps s (voiceFrame src m s) := by
  unfold voiceFrame
  split
  · exact keeps_partyVoice _ _ _ _ _ s
  · split
    · exact .other ((portVoice_only _ _ s).mono (by decide))
    · exact .refl s

end

end Sys2Proof.Machine
end

section
/-! PROOFS. The bounds kept by the report controller, the hold controller and the power controller. -/

set_option Elab.async false

namespace Sys2Proof.Machine

open Sys2Proof

section
variable {s t u : State}

/-! ## Reports and the line test (R149 to R161) -/

theorem length_placeReport_le {r : FaultRecord} {q p : List FaultRecord} (placed : placeReport r q = some p)
    (le : q.length ≤ 24) : p.length ≤ 24 := by
  unfold placeReport at placed
  split at placed
  · cases placed
    rwa [List.length_map]
  · split at placed
    · next room =>
      cases placed
      rw [List.length_append, List.length_singleton]
      exact room
    · cases placed

theorem keeps_setReportQueue (q : List FaultRecord) (s : State)
    (le : s.report.queue.length ≤ 24 → q.length ≤ 24) : Keeps s (setReportQueue q s) :=
  .ofLists ((setReportQueue_only q s).mono (by decide)) fun ⟨list, queue⟩ => ⟨list, le queue⟩

theorem keeps_reportFrame (src : Nat) (r : FaultRecord) (s : State) : Keeps s (reportFrame src r s) := by
  unfold reportFrame
  refine iteInduction (motive := Keeps s) (fun _ => ?_) fun _ => .refl s
  split
  · next q placed => exact keeps_setReportQueue q s (length_placeReport_le placed)
  · exact .refl s

theorem keeps_takeGasp (r : FaultRecord) (s : State) : Keeps s (takeGasp r s) := by
  unfold takeGasp
  refine iteInduction (motive := Keeps s) (fun _ => ?_) fun _ => .refl s
  split
  · next q placed => exact keeps_setReportQueue q s (length_placeReport_le placed)
  · refine keeps_setReportQueue _ s fun _ => ?_
    rw [List.length_append, List.length_singleton]
    exact Nat.succ_le_succ (List.length_take_le _ _)

theorem keeps_modReport (f : Report → Report) (s : State)
    (le : s.report.queue.length ≤ 24 → (f s.report).queue.length ≤ 24) : Keeps s (s.modReport f) :=
  .ofLists ((s.modReport_only f).mono (by decide)) fun ⟨list, queue⟩ => ⟨list, le queue⟩

theorem keeps_modFault (f : FaultMon → FaultMon) (s : State)
    (same : (f s.fault).list = s.fault.list := by rfl) : Keeps s (s.modFault f) :=
  .listsShrink ((s.modFault_only f).mono (by decide)) (congrArg List.length same).le le_rfl

theorem keeps_sendReport (s : State) : Keeps s (sendReport s) := by
  unfold sendReport
  split
  · refine iteInduction (motive := Keeps s) (fun _ => ?_) fun _ => .refl s
    split
    · refine (keeps_offerControl _ _ _).after ((keeps_modReport _ _ id).after (keeps_setFaultList _ s fun le => ?_))
      rwa [length_updFirst]
    · exact .refl s
  · exact .refl s

theorem length_takeInList (l q : List FaultRecord) (le : q.length ≤ 24) :
    (takeInList l q).1.length = l.length ∧ (takeInList l q).2.length ≤ 24 := by
  induction l generalizing q with
  | nil => exact ⟨rfl, le⟩
  | cons r l ih =>
    unfold takeInList
    split
    · split
      · next p placed =>
        obtain ⟨list, queue⟩ := ih p (length_placeReport_le placed le)
        exact ⟨congrArg Nat.succ list, queue⟩
      · obtain ⟨list, queue⟩ := ih q le
        exact ⟨congrArg Nat.succ list, queue⟩
    · obtain ⟨list, queue⟩ := ih q le
      exact ⟨congrArg Nat.succ list, queue⟩

theorem keeps_settleReports (s : State) : Keeps s (settleReports s) := by
  unfold settleReports
  refine iteInduction (motive := Keeps s) (fun _ => ?_) fun _ => keeps_sendReport s
  refine .ofLists ((takeIn_only s).mono (by decide)) fun ⟨list, queue⟩ => ?_
  obtain ⟨list', queue'⟩ := length_takeInList s.fault.list s.report.queue queue
  exact ⟨list'.trans_le list, queue'⟩

theorem keeps_setRecordState (n : Nat) (st : RecordState) (s : State) : Keeps s (setRecordState n st s) :=
  keeps_setFaultList _ s fun le => by rwa [List.length_map]

theorem keeps_endOutstanding (n : Nat) (s : State) : Keeps s (endOutstanding n s) := keeps_modReport _ s id

theorem keeps_judgeReceipt (n count : Nat) (s : State) : Keeps s (judgeReceipt n count s) := by
  unfold judgeReceipt
  split
  · exact (keeps_endOutstanding n _).after (iteInduction (motive := Keeps s)
      (fun _ => (keeps_modRun _ _ _).after (keeps_setRecordState _ _ s)) fun _ => keeps_setRecordState _ _ s)
  · exact .refl s

theorem keeps_receiptTimeout (s : State) : Keeps s (receiptTimeout s) := by
  unfold receiptTimeout
  split
  · exact iteInduction (motive := Keeps s)
      (fun _ => (keeps_modReport _ _ id).after (keeps_setRecordState _ _ s)) fun _ => .refl s
  · exact .refl s

theorem keeps_answered {take : FaultRecord → State → State} (each : ∀ r t, Keeps t (take r t)) (s : State) :
    Keeps s (answered take s) := by
  unfold answered
  refine iteInduction (motive := Keeps s) (fun _ => keeps_modSup _ s) fun _ => ?_
  split
  · exact (each _ _).after (keeps_modSup _ s)
  · exact .refl s

theorem keeps_delivered (r : FaultRecord) (s : State) : Keeps s (delivered r s) := by
  unfold delivered
  refine (keeps_modReport _ _ fun le => (List.length_filter_le _ _).trans le).after ?_
  exact iteInduction (motive := Keeps s) (fun _ => .refl s) fun _ => iteInduction (motive := Keeps s)
    (fun _ => keeps_judgeReceipt _ _ s) fun _ => keeps_offerControl _ _ s

/-- An entry that moves to the tail leaves the queue as long as it was. -/
theorem length_filter_parts (p : FaultRecord → Bool) (q : List FaultRecord) :
    (q.filter (fun e => !p e) ++ q.filter p).length = q.length := by
  rw [List.length_append, Nat.add_comm]
  exact (List.length_eq_length_filter_add p).symm

theorem keeps_notDelivered (r : FaultRecord) (s : State) : Keeps s (notDelivered r s) :=
  keeps_modReport _ s fun le => (length_filter_parts _ _).trans_le le

theorem keeps_mailboxTimeout (s : State) : Keeps s (mailboxTimeout s) := by
  unfold mailboxTimeout
  split
  · exact iteInduction (motive := Keeps s)
      (fun _ => (keeps_notDelivered _ _).after (keeps_withdrawOffer s)) fun _ => .refl s
  · exact .refl s

theorem keeps_leaveReports (s : State) : Keeps s (leaveReports s) :=
  .ofLists ((leaveReports_only s).mono (by decide)) fun ⟨list, _⟩ =>
    ⟨(List.length_map _).trans_le list, Nat.zero_le _⟩

theorem keeps_startTest (s : State) : Keeps s (startTest s) := keeps_modFault _ s

theorem keeps_testTap (s : State) : Keeps s (testTap s) := by
  unfold testTap
  split
  · refine iteInduction (motive := Keeps s) (fun _ => ?_) fun _ => .refl s
    exact iteInduction (motive := Keeps s) (fun _ => keeps_modFault _ s) fun _ => iteInduction (motive := Keeps s)
      (fun _ => keeps_startTest s) fun _ => .refl s
  · exact .refl s

theorem keeps_testStepEnd (out : Bool) (s : State) : Keeps s (testStepEnd out s) := by
  unfold testStepEnd
  split
  · exact iteInduction (motive := Keeps s) (fun _ => iteInduction (motive := Keeps s) (fun _ => keeps_modFault _ s)
      fun _ => (keeps_setConds _ _).after (keeps_modFault _ s)) fun _ => .refl s
  · exact .refl s

/-! ## Hold states (R31 to R46) -/

/-- The hold controller's registers rewritten, but for the roster and the hold state. -/
theorem keeps_sameState (f : Hold → Hold) (s : State) (roster : (f s.hold).roster = s.hold.roster := by rfl)
    (state : (f s.hold).state = s.hold.state := by rfl) : Keeps s (s.modHold f) :=
  .ofHold ((s.modHold_only f).mono (by decide)) (rosterOk_of rfl roster) fun _ => recordOk_of rfl state rfl

/-- A station that holds no record changes its hold state. -/
theorem keeps_changesState (f : Hold → Hold) (s : State) (free : s.hold.state ≠ .holding ∨ s.call.record = none)
    (roster : (f s.hold).roster = s.hold.roster := by rfl) : Keeps s (s.modHold f) := by
  refine .ofHold ((s.modHold_only f).mono (by decide)) (rosterOk_of rfl roster) fun _ ⟨starting, ok⟩ =>
    ⟨starting, fun r record => ?_⟩
  rcases free with away | gone
  · exact absurd (ok r record).1 away
  · exact nomatch gone.symm.trans record

theorem keeps_queueBeacon (s : State) : Keeps s (queueBeacon s) := by
  unfold queueBeacon
  exact iteInduction (motive := Keeps s) (fun _ => keeps_offerControl _ _ s) fun _ => .refl s

theorem keeps_enterSeeking (s : State) (away : s.hold.state ≠ .holding) : Keeps s (enterSeeking s) :=
  keeps_changesState _ s (.inl away)

theorem keeps_enterPassive (f : Option Follow) (s : State) (away : s.hold.state ≠ .holding) :
    Keeps s (enterPassive f s) := keeps_changesState _ s (.inl away)

theorem keeps_enterClaiming (s : State) (away : s.hold.state ≠ .holding) : Keeps s (enterClaiming s) :=
  (keeps_offerControl _ _ _).after (keeps_changesState _ s (.inl away))

theorem endRecord_record (cause : Option ClearCause) (s : State) : (endRecord cause s).call.record = none := by
  cases record : s.call.record with
  | none =>
    unfold endRecord
    rw [record]
    exact record
  | some r =>
    cases cause with
    | none => exact endRecord_none_record s
    | some k =>
      rw [endRecord_some record, clearParties_record]
      rfl

theorem leaveHolding_record (cause : Option ClearCause) (s : State) : (leaveHolding cause s).call.record = none := by
  rw [leaveHolding, (leaveReports_only _).call, State.modFault_call, State.modSup_call, (abortTest_only _).call,
    (goOff_only _).call]
  exact endRecord_record cause s

theorem keeps_leaveHolding (cause : Option ClearCause) (s : State) : Keeps s (leaveHolding cause s) :=
  (keeps_leaveReports _).after ((keeps_modFault _ _).after ((keeps_modSup _ _).after ((keeps_abortTest _).after
    ((keeps_goOff _).after (keeps_endRecord cause s)))))

theorem keeps_enterHolding (s : State) : Keeps s (enterHolding s) := by
  have held : Keeps s (s.modHold fun h =>
      { h with state := .holding, follow := none, deferral := none, contest := none, degraded := false }) :=
    .ofHold ((s.modHold_only _).mono (by decide)) (rosterOk_of rfl rfl) fun _ ⟨starting, ok⟩ =>
      ⟨starting, fun r record => ⟨rfl, (ok r record).2⟩⟩
  unfold enterHolding
  refine (keeps_queueBeacon _).after ?_
  have begun := (keeps_modFault (fun m => { m with
      due := if s.cfg.testInterval = 0 then none else some (s.now + ticks Config.firstTest), rest := 0 }) _).after
    ((keeps_modReport (fun p => { p with queue := [] }) _ fun _ => Nat.zero_le _).after
      ((keeps_modSup (fun u => { u with uplink := [], map := [] }) _).after held))
  exact iteInduction (motive := Keeps s) (fun _ => (keeps_enterTraining _).after begun) fun _ => begun

theorem keeps_enterYielding (cause : Option ClearCause) (s : State) : Keeps s (enterYielding cause s) :=
  (keeps_offerControl _ _ _).after ((keeps_changesState _ _ (.inr (leaveHolding_record cause s))).after
    (keeps_leaveHolding cause s))

theorem keeps_yieldDone (s : State) (away : s.hold.state ≠ .holding) : Keeps s (yieldDone s) := by
  unfold yieldDone
  exact iteInduction (motive := Keeps s) (fun _ => keeps_enterPassive _ s away) fun _ => keeps_enterSeeking s away

theorem keeps_enterHalted (code : HaltCode) (s : State) : Keeps s (enterHalted code s) := by
  unfold enterHalted
  refine iteInduction (motive := Keeps s) (fun _ => .refl s) fun _ => ?_
  refine (keeps_offerControl _ _ _).after (Keeps.after (.other ((haltPorts_only _).mono (by decide))) ?_)
  refine (keeps_changesState _ _ (.inr ?_)).after ((keeps_flushAll _).after ((keeps_haltCalls _).after ?_))
  · rw [(flushAll_only _).call]
    rfl
  · exact iteInduction (motive := Keeps s) (fun _ => keeps_leaveHolding _ s) fun _ => keeps_goOff s

/-! ## The roster (R22 to R27) -/

theorem ids_map {f : Peer → Peer} (same : ∀ p, (f p).id = p.id) (l : List Peer) :
    (l.map f).map (·.id) = l.map (·.id) := by
  rw [List.map_map]
  exact List.map_congr_left fun p _ => same p

theorem keeps_modPeer (id : Nat) (f : Peer → Peer) (s : State) (same : ∀ p, (f p).id = p.id ∧ (f p).miss = p.miss) :
    Keeps s (modPeer id f s) := by
  have each (p : Peer) : (if p.id = id then f p else p).id = p.id ∧ (if p.id = id then f p else p).miss = p.miss :=
    iteInduction (motive := fun q : Peer => q.id = p.id ∧ q.miss = p.miss) (fun _ => same p) fun _ => ⟨rfl, rfl⟩
  refine .ofHold ((modPeer_only id f s).mono (by decide)) (fun ⟨low, high, sorted, range⟩ => ⟨low, high, ?_, ?_⟩)
    fun _ => recordOk_of rfl rfl rfl
  · exact (ids_map (fun p => (each p).1) s.hold.roster).symm ▸ sorted
  · intro q mem
    obtain ⟨p, here, rfl⟩ := List.mem_map.mp mem
    rw [(each p).1, (each p).2]
    exact range p here

/-- A roster that ages loses the entries that expire, and no other entry's miss count passes 3 (R26). -/
theorem keeps_ageRoster (halted : Bool) (s : State) : Keeps s (ageRoster halted s) := by
  refine (Keeps.foldl keeps_lenderGone _ _).after ?_
  have aged (p : Peer) : (age halted p).id = p.id := by
    unfold age
    split <;> rfl
  refine .ofHold ((s.modHold_only _).mono (by decide)) (fun ⟨low, high, sorted, range⟩ => ⟨low, high, ?_, ?_⟩)
    fun _ => recordOk_of rfl rfl rfl
  · refine (ids_map aged _).symm ▸ ?_
    exact sorted.sublist (List.filter_sublist.map _)
  · intro q mem
    obtain ⟨p, kept, rfl⟩ := List.mem_map.mp mem
    obtain ⟨here, stays⟩ := List.mem_filter.mp kept
    obtain ⟨low, high, other, miss⟩ := range p here
    rw [aged p]
    refine ⟨low, high, other, ?_⟩
    unfold age
    split
    · next ages =>
      simp only [expires, ages, Bool.true_and, Bool.not_eq_true', decide_eq_false_iff_not] at stays
      show p.miss + 1 ≤ 3
      omega
    · exact miss

/-! ## The known holder and eligibility (R28 to R38) -/

theorem keeps_holderRules (s : State) : Keeps s (holderRules s) := by
  unfold holderRules
  split
  · next passive _ =>
    exact iteInduction (motive := Keeps s) (fun _ => keeps_enterSeeking s (by rw [passive]; nofun)) fun _ => .refl s
  · exact keeps_sameState _ s
  · next seeking _ => exact keeps_enterPassive _ s (by rw [seeking]; nofun)
  · next claiming _ => exact keeps_enterPassive _ s (by rw [claiming]; nofun)
  · exact Keeps.eachPort (keeps_releaseHeld false) s
  · exact .refl s

theorem keeps_holderTiming (old new : Option Nat) (s : State) : Keeps s (holderTiming old new s) := by
  unfold holderTiming
  split
  · exact keeps_sameState _ s
  · exact (keeps_setCond _ _ _).after (keeps_sameState _ s)
  · exact .refl s

theorem keeps_settleHolder (s : State) : Keeps s (settleHolder s) := by
  unfold settleHolder
  exact iteInduction (motive := Keeps s) (fun _ => .refl s) fun _ =>
    (keeps_holderRules _).after ((keeps_holderTiming _ _ _).after (keeps_sameState _ s))

theorem keeps_noHolderTimeout (s : State) : Keeps s (noHolderTimeout s) := by
  unfold noHolderTimeout
  exact iteInduction (motive := Keeps s) (fun _ => (keeps_setCond _ _ _).after (keeps_sameState _ s)) fun _ => .refl s

theorem keeps_eligibleRules (e : Bool) (s : State) : Keeps s (eligibleRules e s) := by
  unfold eligibleRules
  split
  · exact keeps_sameState _ s
  · exact keeps_sameState _ s
  · next claiming => exact keeps_enterSeeking s (by rw [claiming]; nofun)
  · exact keeps_sameState _ s
  · exact iteInduction (motive := Keeps s) (fun _ => keeps_enterYielding _ s) fun _ => keeps_sameState _ s
  · exact .refl s

theorem keeps_settleEligible (s : State) : Keeps s (settleEligible s) := by
  unfold settleEligible
  exact iteInduction (motive := Keeps s) (fun _ => .refl s) fun _ =>
    (keeps_eligibleRules _ _).after (keeps_sameState _ s)

theorem keeps_settleDegraded (s : State) : Keeps s (settleDegraded s) := by
  unfold settleDegraded
  exact iteInduction (motive := Keeps s) (fun _ => keeps_enterYielding _ s) fun _ => .refl s

/-! ## Events of the hold controller (R29 to R44) -/

theorem keeps_listenTimeout (s : State) : Keeps s (listenTimeout s) := by
  unfold listenTimeout
  refine iteInduction (motive := Keeps s) (fun due => ?_) fun _ => .refl s
  have listens : s.hold.state = .listen := of_decide_eq_true (Bool.and_eq_true_iff.mp due).1
  have away : s.hold.state ≠ .holding := by rw [listens]; nofun
  exact (Keeps.eachPort (keeps_releaseHeld true) _).after (iteInduction (motive := Keeps s)
    (fun _ => keeps_enterPassive _ s away) fun _ => keeps_enterSeeking s away)

theorem keeps_claimFollowTimeout (s : State) : Keeps s (claimFollowTimeout s) := by
  unfold claimFollowTimeout
  refine iteInduction (motive := Keeps s) (fun due => keeps_enterSeeking s ?_) fun _ => .refl s
  have passive : s.hold.state = .passive := of_decide_eq_true (Bool.and_eq_true_iff.mp due).1
  rw [passive]
  nofun

theorem keeps_deferralEnd (s : State) : Keeps s (deferralEnd s) := by
  unfold deferralEnd
  refine iteInduction (motive := Keeps s) (fun due => keeps_enterClaiming s ?_) fun _ => .refl s
  have seeking : s.hold.state = .seeking :=
    of_decide_eq_true (Bool.and_eq_true_iff.mp (Bool.and_eq_true_iff.mp due).1).1
  rw [seeking]
  nofun

theorem keeps_contestEnd (s : State) : Keeps s (contestEnd s) := by
  unfold contestEnd
  exact iteInduction (motive := Keeps s) (fun _ => keeps_enterHolding s) fun _ => .refl s

theorem keeps_claimHeard (src : Nat) (x : BitVec 16) (s : State) : Keeps s (claimHeard src x s) := by
  have told : Keeps s (modPeer src (fun p => { p with tiebreak := some x }) s) :=
    keeps_modPeer src _ s fun _ => ⟨rfl, rfl⟩
  unfold claimHeard
  dsimp only
  split
  · next seeking => exact (keeps_enterPassive _ _ (by rw [seeking]; nofun)).after told
  · next claiming =>
    exact iteInduction (motive := Keeps s)
      (fun _ => (keeps_enterPassive _ _ (by rw [claiming]; nofun)).after told) fun _ => told
  · next passive =>
    split
    · exact iteInduction (motive := Keeps s)
        (fun _ => (keeps_enterPassive _ _ (by rw [passive]; nofun)).after told) fun _ => told
    · exact told
  · exact told

theorem keeps_keeperRule (src : Nat) (h : Coded HoldState) (m : BeaconMsg) (s : State) :
    Keeps s (keeperRule src h m s) := by
  unfold keeperRule
  exact iteInduction (motive := Keeps s) (fun _ => keeps_enterYielding _ s) fun _ => .refl s

theorem keeps_rankClash (tie : Option (BitVec 16)) (s : State) : Keeps s (rankClash tie s) := by
  have clash := keeps_setCond .rankClash true s
  unfold rankClash
  dsimp only
  split
  · exact iteInduction (motive := Keeps s) (fun _ => clash) fun _ => iteInduction (motive := Keeps s)
      (fun _ => (keeps_enterHalted _ _).after clash) fun _ => iteInduction (motive := Keeps s)
        (fun _ => (keeps_drew _).after ((keeps_sameState _ _).after clash)) fun _ => clash
  · exact clash

theorem keeps_holdTap (s : State) : Keeps s (holdTap s) := by
  have aged := (keeps_settleHolder _).after (keeps_ageRoster false s)
  unfold holdTap
  exact iteInduction (motive := Keeps s) (fun _ => aged) fun _ => (keeps_queueBeacon _).after aged

theorem keeps_holdTap10 (s : State) : Keeps s (holdTap10 s) := by
  have aged := (keeps_settleHolder _).after (keeps_ageRoster true s)
  unfold holdTap10
  exact iteInduction (motive := Keeps s) (fun _ => (keeps_offerControl _ _ _).after aged) fun _ => aged

theorem keeps_transmitted (b : Body) (s : State) : Keeps s (transmitted b s) := by
  unfold transmitted
  refine iteInduction (motive := Keeps s) (fun _ => ?_) fun _ => ?_
  · exact iteInduction (motive := Keeps s) (fun _ => keeps_modPower _ s) fun _ => .refl s
  · split
    · exact iteInduction (motive := Keeps s) (fun _ => keeps_sameState _ s) fun _ => .refl s
    · exact iteInduction (motive := Keeps s) (fun yielding => keeps_yieldDone s (by rw [yielding]; nofun)) fun _ => .refl s
    · exact .refl s

theorem keeps_requestDropped (k : RequestKind) (tag : Nat) (n : PortNo) (s : State) :
    Keeps s (requestDropped k tag n s) := by
  unfold requestDropped
  split
  · exact iteInduction (motive := Keeps s) (fun _ => keeps_requestFailed n _ s) fun _ => .refl s
  · exact .refl s

theorem keeps_droppedNotice (s : State) (b : Body) : Keeps s (droppedNotice s b) := by
  unfold droppedNotice
  split
  · exact iteInduction (motive := Keeps s)
      (fun claiming => keeps_enterSeeking s (by rw [claiming.1]; nofun)) fun _ => .refl s
  · exact iteInduction (motive := Keeps s) (fun yielding => keeps_yieldDone s (by rw [yielding]; nofun)) fun _ => .refl s
  · exact Keeps.eachPort (keeps_requestDropped _ _) s
  · exact .refl s

theorem keeps_settleNotices (s : State) : Keeps s (settleNotices s) :=
  (Keeps.foldl keeps_droppedNotice _ _).after (keeps_clearNotices s)

/-! ## Power, WATCH and the end of a command (R166 to R175; log 9) -/

theorem keeps_mainsFall (s : State) : Keeps s (mainsFall s) := by
  unfold mainsFall
  exact iteInduction (motive := Keeps s)
    (fun _ => (keeps_flushData _).after ((keeps_pwrOff _).after (keeps_modPower _ s))) fun _ => .refl s

theorem keeps_enterFull (s : State) : Keeps s (enterFull s) := by
  have full := (keeps_pwrOn _).after (keeps_modPower (fun p =>
    { p with state := .full, idle := none, rejoin := some s.now }) s)
  unfold enterFull
  exact iteInduction (motive := Keeps s) (fun _ => (keeps_enterTraining _).after full) fun _ => full

theorem keeps_mainsRise (s : State) : Keeps s (mainsRise s) := by
  unfold mainsRise
  split
  · exact keeps_enterFull s
  · exact (keeps_enterFull _).after (keeps_wake s)
  · exact .refl s

theorem keeps_rejoinExpiry (s : State) : Keeps s (rejoinExpiry s) := .other ((rejoinExpiry_only s).mono (by decide))

theorem away_of_idleHolds (idle : s.idleHolds = true) : s.hold.state ≠ .holding := by
  intro holding
  simp [State.idleHolds, State.holding, holding] at idle

theorem keeps_watchHold (s : State) (away : s.hold.state ≠ .holding) : Keeps s (s.modHold watchHold) :=
  .ofHold ((s.modHold_only _).mono (by decide)) (fun ⟨low, high, _⟩ => ⟨low, high, .nil, List.forall_mem_nil _⟩)
    fun _ ⟨starting, ok⟩ => ⟨starting, fun r record => absurd (ok r record).1 away⟩

theorem keeps_freshNoise (s : State) : Keeps s (s.modNoise fun _ => freshNoise) :=
  .noise ((s.modNoise_only _).mono (by decide)) fun _ => ⟨rfl, rfl, Nat.zero_le _⟩

/-- The wire's registers other than its queues. -/
theorem keeps_noRound (n : Nat) (s : State) : Keeps s (s.modWire fun w => { w with round := none, errors := n }) :=
  .shrinks ((s.modWire_only _).mono (by decide)) fun c => by cases c <;> exact le_rfl

theorem keeps_enterWatch (s : State) (away : s.hold.state ≠ .holding) : Keeps s (enterWatch s) := by
  let down : State := s.modPower fun p => { p with state := .watch, idle := none, frontEnd := powerDown s }
  let still : State := (flushAll down).modWire fun w => { w with round := none, errors := 0 }
  have quiet : Keeps s (still.modNoise fun _ => freshNoise) :=
    (keeps_freshNoise still).after ((keeps_noRound 0 _).after ((keeps_flushAll down).after (keeps_modPower _ s)))
  exact (keeps_setCond _ _ _).after ((keeps_setCond _ _ _).after ((keeps_setCond _ _ _).after
    ((keeps_watchHold (still.modNoise fun _ => freshNoise) away).after quiet)))

theorem keeps_settleIdle (s : State) : Keeps s (settleIdle s) := by
  unfold settleIdle
  exact iteInduction (motive := Keeps s) (fun idle => iteInduction (motive := Keeps s)
    (fun _ => keeps_enterWatch s (away_of_idleHolds idle)) fun _ => keeps_modPower _ s) fun _ => keeps_modPower _ s

theorem keeps_idleExpiry (s : State) : Keeps s (idleExpiry s) := by
  unfold idleExpiry
  exact iteInduction (motive := Keeps s)
    (fun due => keeps_enterWatch s (away_of_idleHolds (Bool.and_eq_true_iff.mp due).1)) fun _ => .refl s

theorem keeps_goLive (s : State) : Keeps s (goLive s) := by
  unfold goLive
  refine iteInduction (motive := Keeps s) (fun _ => Keeps.after (.shrinks ((State.modWire_only _ _).mono (by decide))
    fun c => ?_) (keeps_modPower _ s)) fun _ => (keeps_contend _).after (keeps_modPower _ s)
  cases c <;> exact le_rfl

theorem keeps_settleExpiry (s : State) : Keeps s (settleExpiry s) := by
  have live := (keeps_sameState (fun h => { h with noHolder := some s.now }) _).after (keeps_goLive s)
  unfold settleExpiry
  exact iteInduction (motive := Keeps s) (fun _ => iteInduction (motive := Keeps s)
    (fun _ => (keeps_offerControl _ _ _).after live) fun _ => (keeps_sameState _ _).after live) fun _ => .refl s

theorem keeps_settleConds (s : State) : Keeps s (settleConds s) := by
  have levels := Keeps.foldl (fun t (c : Cond × Bool) => keeps_setCond c.1 c.2 t)
    [(Cond.noiseTracked, decide (0 < s.noise.tracked)), (.peerLost, !s.hold.lost.isEmpty),
      (.mainsOff, !s.full), (.batteryLow, s.pins.battLow), (.portParked, s.anyParked), (.portShort, s.anyShort)] s
  unfold settleConds
  exact iteInduction (motive := Keeps s) (fun _ => levels) fun _ => (keeps_setConds _ _).after levels

theorem keeps_finish (s : State) : Keeps s (finish s) := by
  have first : Keeps s (settleNotices (settleHolder (settleDegraded (settleEligible s)))) :=
    (keeps_settleNotices _).after ((keeps_settleHolder _).after ((keeps_settleDegraded _).after
      (keeps_settleEligible s)))
  refine (keeps_clearNotices _).after (Keeps.after (.other ((settleTones_only _).mono (by decide))) ?_)
  refine (keeps_settleLamp _).after ((keeps_settleLoss _).after ((keeps_startOutpulse _).after
    ((keeps_startTransfer _).after ((keeps_mailboxOffer _).after ((keeps_settleReports _).after ?_)))))
  exact (keeps_settleIdle _).after ((keeps_settleConds _).after ((keeps_settleDataHead _).after first))

theorem keeps_openWindow (s : State) : Keeps s (openWindow s) := by
  have ended := (keeps_modFault (fun m => { m with gaspRecord := some (gaspRecord s) }) _).after
    ((keeps_abortTest _).after (keeps_endRecord none s))
  unfold openWindow
  exact (keeps_modPower _ _).after (iteInduction (motive := Keeps s)
    (fun _ => (keeps_offerGasp _ _ _).after ended) fun _ => ended)

theorem keeps_enterStop (s : State) : Keeps s (enterStop s) := by
  unfold enterStop
  exact (keeps_settleLamp _).after ((keeps_setCond _ _ _).after (iteInduction (motive := Keeps s)
    (fun _ => (keeps_pwrOff _).after (keeps_modPower _ s)) fun _ => keeps_modPower _ s))

/-! ## Transmissions, taps and the service port -/

theorem keeps_closeFront (s : State) : Keeps s (closeFront s) := .other ((closeFront_only s).mono (by decide))

theorem keeps_collisions (n : Nat) (s : State) : Keeps s (s.modWire fun w => { w with collided := n }) :=
  .shrinks ((s.modWire_only _).mono (by decide)) fun c => by cases c <;> exact le_rfl

theorem keeps_transmissionEnd (s : State) : Keeps s (transmissionEnd s) := by
  unfold transmissionEnd
  split
  · exact (keeps_closeFront _).after ((keeps_collisions 0 _).after (iteInduction (motive := Keeps s)
      (fun _ => keeps_flushedEnd _ _ s) fun _ => (keeps_transmitted _ _).after (keeps_removeTx _ s)))
  · exact .refl s

theorem keeps_collided (s : State) : Keeps s (collided s) := by
  unfold collided
  split
  · next c e _ =>
    have kept := (keeps_closeFront _).after (Keeps.after (.other ((gaspDropped_only e _).mono (by decide)))
      ((keeps_collisions ((collideFrame c e s).wire.collided + 1) _).after (keeps_collideFrame c e s)))
    exact iteInduction (motive := Keeps s) (fun _ => (keeps_enterHalted _ _).after kept) fun _ => kept
  · exact .refl s

theorem keeps_outlivedEnd (count : Nat → Nat) (s : State) : Keeps s (outlivedEnd count s) := by
  unfold outlivedEnd
  split
  · next c _ _ =>
    exact (keeps_closeFront _).after ((keeps_collisions (count (removeTx c s).wire.collided) _).after
      (keeps_removeTx c s))
  · exact .refl s

theorem keeps_tapOne (s : State) : Keeps s (tapOne s) := (keeps_holdTimeTap _).after (keeps_holdTap s)

theorem keeps_tapSlow (s : State) : Keeps s (tapSlow s) :=
  (keeps_testTap _).after ((keeps_holdTap10 _).after ((keeps_supTap _).after ((keeps_noiseTap _).after
    (keeps_wireTap s))))

theorem keeps_handOut (owed : Taps → Bool) (taken : Taps → Taps) {f : State → State} (each : ∀ t, Keeps t (f t))
    (s : State) : Keeps s (handOut owed taken f s) := by
  unfold handOut
  exact iteInduction (motive := Keeps s)
    (fun _ => (each _).after (.other ((s.modTaps_only taken).mono (by decide)))) fun _ => .refl s

theorem keeps_respond (r : SvcResp) (s : State) : Keeps s (respond r s) := .other ((respond_only r s).mono (by decide))

theorem keeps_forget (id : Nat) (s : State) : Keeps s (forget id s) := by
  unfold forget
  exact iteInduction (motive := Keeps s) (fun _ => keeps_respond _ s) fun _ =>
    (keeps_respond _ _).after (keeps_sameState _ s)

theorem keeps_takeRunning (q : SvcReq) (s : State) : Keeps s (takeRunning q s) := by
  unfold takeRunning
  split
  case h_6 =>
    split
    · exact keeps_respond _ s
    · exact (keeps_respond _ _).after (keeps_startTest s)
  case h_7 id => exact keeps_forget id s
  case h_8 => exact .other ((askRestart_only s).mono (by decide))
  all_goals exact keeps_respond _ s

theorem keeps_modSvc (f : Svc → Svc) (s : State) : Keeps s (s.modSvc f) := .other ((s.modSvc_only f).mono (by decide))

theorem keeps_serve (q : SvcReq) (s : State) : Keeps s (serve takeRunning q s) := by
  unfold serve
  exact iteInduction (motive := Keeps s) (fun _ => keeps_modSvc _ s) fun _ => keeps_takeRunning q s

theorem keeps_serveNext (s : State) : Keeps s (serveNext takeRunning s) := by
  unfold serveNext
  split
  · exact iteInduction (motive := Keeps s) (fun _ => (keeps_takeRunning _ _).after (keeps_modSvc _ s)) fun _ =>
      (keeps_respond _ _).after (keeps_modSvc _ s)
  · exact keeps_modSvc _ s

end

end Sys2Proof.Machine
end

section
/-! PROOFS. The bounds along every step: the actions, the frames, the starts; the roster in order and in range. -/

set_option Elab.async false

namespace Sys2Proof.Machine

open Sys2Proof

section
variable {s t : State}

/-! ## What the blocks take (log 9) -/

theorem keeps_action {f : State → State} (taken : Action f) (s : State) : Keeps s (f s) := by
  cases taken with
  | same => exact .refl s
  | mainsFall => exact keeps_mainsFall s
  | mainsRise => exact keeps_mainsRise s
  | idleExpiry => exact keeps_idleExpiry s
  | rejoinExpiry => exact keeps_rejoinExpiry s
  | settleExpiry => exact keeps_settleExpiry s
  | tap10ms a b l => exact keeps_handOut _ _ (keeps_voiceTap _ _) s
  | tap1s => exact keeps_handOut _ _ keeps_tapOne s
  | tap10s => exact keeps_handOut _ _ keeps_tapSlow s
  | carrierUp => exact keeps_carrierUp s
  | contend => exact (keeps_contend _).after (keeps_dropRx s)
  | slotBegin slot => exact keeps_slotBegin slot s
  | transmissionEnd => exact keeps_transmissionEnd s
  | collided => exact keeps_collided s
  | windowOpen n => exact iteInduction (motive := Keeps s) (fun _ => keeps_refreshWindow n s) fun _ => .refl s
  | windowClose n => exact iteInduction (motive := Keeps s) (fun _ => keeps_refreshWindow n s) fun _ => .refl s
  | voiceDeadline =>
    refine .shrinks ((s.modWire_only _).mono (by decide)) fun c => ?_
    cases c with
    | voice => exact List.length_eraseP_le
    | control => exact le_rfl
    | data => exact le_rfl
  | packetReceive f => exact keeps_packetReceive f s
  | impulseDetect => exact iteInduction (motive := Keeps s) (fun _ => keeps_impulse s) fun _ => .refl s
  | burst => exact iteInduction (motive := Keeps s) (fun _ => keeps_impulse s) fun _ => .refl s
  | captureExpiry n => exact keeps_captureExpiry n s
  | refreshExpiry n => exact keeps_refreshExpiry n s
  | noHolderTimeout => exact keeps_noHolderTimeout s
  | listenTimeout => exact keeps_listenTimeout s
  | claimFollowTimeout => exact keeps_claimFollowTimeout s
  | deferralEnd => exact keeps_deferralEnd s
  | contestEnd => exact keeps_contestEnd s
  | readyChange old new => exact keeps_readyChange old new s
  | readyTimerExpiry => exact keeps_readyTimerExpiry s
  | syncRise => exact keeps_syncRise s
  | syncFall => exact keeps_syncFall s
  | trainingTimeout => exact keeps_trainingTimeout s
  | graceTimeout => exact keeps_graceTimeout s
  | backoffWaitEnd => exact keeps_backoffWaitEnd s
  | transferEnd => exact keeps_modSup _ s
  | downstreamFrame began f => exact keeps_downstreamFrame began f s
  | mailboxDelivered => exact keeps_answered keeps_delivered s
  | mailboxRefused => exact keeps_answered keeps_notDelivered s
  | mailboxTimeout => exact keeps_mailboxTimeout s
  | hookFall n => exact .other ((hookFall_only n s).mono (by decide))
  | hookRise n => exact keeps_hookRise n s
  | onHook n => exact keeps_onHookEvent n s
  | pulseCountClose n => exact keeps_pulseCountClose n s
  | toneDigit n k => exact keeps_toneDigit n k s
  | firstDigitTimeout n => exact .other ((firstDigitTimeout_only n s).mono (by decide))
  | portDigitTimeout n => exact keeps_portDigitTimeout n s
  | requestTimeout n => exact keeps_requestTimeout n s
  | ringBurst => exact keeps_ringBurst s
  | ringingEnd => exact .other ((ringingEnd_only s).mono (by decide))
  | ringDriveTimeout n => exact .other ((ringDriveTimeout_only n s).mono (by decide))
  | intercomCadence n => exact .other ((intercomCadence_only n s).mono (by decide))
  | offerRingTimeout n => exact keeps_offerRingTimeout n s
  | ringBackTimeout n => exact keeps_ringBackTimeout n s
  | holderSilence n => exact keeps_holderSilence n s
  | farSilence n => exact keeps_farSilence n s
  | howlerTimeout n => exact .other ((howlerTimeout_only n s).mono (by decide))
  | toneCadence n => exact .other ((toneCadence_only n s).mono (by decide))
  | seizeTimeout => exact keeps_seizeTimeout s
  | currentRise => exact keeps_currentRise s
  | lossTimeout => exact keeps_lossTimeout s
  | partySilence st po => exact keeps_partySilence st po s
  | breakEnd => exact keeps_breakEnd s
  | makeEnd => exact keeps_makeEnd s
  | pauseEnd => exact keeps_pauseEnd s
  | testStepEnd out => exact keeps_testStepEnd out s
  | receiptTimeout => exact keeps_receiptTimeout s
  | lampCadence => exact iteInduction (motive := Keeps s) (fun _ => keeps_modFault _ s) fun _ => .refl s
  | serve q => exact keeps_serve q s
  | serveNext => exact keeps_serveNext s

theorem keeps_contents (c : Instr) (start : Tick) (s : State) : Keeps s (contents c start s) := by
  unfold contents
  split
  · exact (keeps_keeperRule _ _ _ _).after ((keeps_takeTracks _ _ _ _).after
      (keeps_modPeer _ _ s fun _ => ⟨rfl, rfl⟩))
  · exact keeps_claimHeard _ _ s
  · exact Keeps.after (.other ((yieldProfile_only _ _).mono (by decide))) (keeps_takeTracks _ _ _ s)
  · next h m =>
    have gasped := (keeps_takeGasp m.record _).after (keeps_modPeer h.src Peer.gasped s fun _ => ⟨rfl, rfl⟩)
    exact iteInduction (motive := Keeps s) (fun _ => Keeps.after (.other ((adoptProfile_only _ _).mono (by decide)))
      ((keeps_takeTracks _ _ _ _).after gasped)) fun _ => gasped
  · exact keeps_modPeer _ _ s fun _ => ⟨rfl, rfl⟩
  · exact keeps_requestFrame _ _ _ s
  · exact keeps_requestFrame _ _ _ s
  · exact keeps_takeLeave _ _ _ s
  · exact keeps_offerFrame _ _ s
  · exact keeps_acceptFrame _ _ s
  · exact keeps_endFrame _ _ s
  · exact keeps_replyFrame _ _ s
  · next m =>
    cases portOf m.port with
    | none => exact .refl s
    | some n => exact keeps_takeClear n _ _ s
  · exact keeps_dialFrame _ _ s
  · exact keeps_voiceFrame _ _ s
  · exact keeps_reportFrame _ _ s
  · exact keeps_judgeReceipt _ _ s
  · exact .other ((dataFrame_only _ _ _ s).mono (by decide))
  · exact .refl s

theorem keeps_startHook (n : PortNo) (s : State) : Keeps s (startHook n s) := by
  unfold startHook
  exact iteInduction (motive := Keeps s) (fun _ => keeps_offHook n s) fun _ => .refl s

/-! ## A bound along every step -/

/-- A property that goes from state to state as the bounds do. -/
structure Carried (P : State → Prop) : Prop where
  runs : ∀ {s t : State}, Keeps s t → s.phase = .running → P s → P t
  still : ∀ {s t : State}, Bounded s t → Only (.wire :: otherParts) s t → P s → P t
  completed : ∀ (code : Option HaltCode) {s : State}, s.phase = .startUp → P s → P (complete code s)
  start : ∀ (levels : Pins) (draws : Nat) (pending : List Instr), P (State.atStart levels draws pending)
  stopped : ∀ s : State, P (stopChip s)
  restart : ∀ (straps : StrapPins) {s : State}, P s → P (beginRestart straps s)

/-- The first power state is entered and the front end becomes live (R165, R177). -/
def powered (s : State) : State :=
  let t := goLive ({ s with phase := .running }.modPower fun p => { p with state := firstPower s.pins })
  (if t.full then pwrOn t else t).modHold fun h => { h with noHolder := some s.now }

theorem complete_powered (code : Option HaltCode) (s : State) : complete code s =
    match code with
    | some c => enterHalted c (powered s)
    | none => (powered s).modHold fun h => { h with state := .listen, listen := some s.now } := rfl

theorem keeps_powered (s : State) : Keeps { s with phase := .running } (powered s) := by
  have live := (keeps_goLive _).after (keeps_modPower (fun p => { p with state := firstPower s.pins })
    { s with phase := .running })
  unfold powered
  exact (keeps_sameState _ _).after (iteInduction (motive := Keeps { s with phase := .running })
    (fun _ => (keeps_pwrOn _).after live) fun _ => live)

theorem powered_call (s : State) : (powered s).call = s.call := by
  have live : ∀ t : State, (goLive t).call = t.call := fun t => (goLive_only t).call
  unfold powered
  dsimp only
  rw [State.modHold_call]
  refine iteInduction (motive := fun t : State => t.call = s.call) (fun _ => ?_) fun _ => live _
  rw [(pwrOn_only _).call]
  exact live _

theorem bounded_listens (s : State) (now : Tick) :
    Bounded s (s.modHold fun h => { h with state := .listen, listen := some now }) where
  phase := rfl
  straps := rfl
  queues := id
  tracks := id
  lists := id
  roster := id

theorem bounded_complete (code : Option HaltCode) (s : State) :
    Bounded { s with phase := .running } (complete code s) := by
  rw [complete_powered]
  cases code with
  | none => exact (bounded_listens _ _).after (keeps_powered s).toBounded
  | some c => exact ((keeps_enterHalted c _).after (keeps_powered s)).toBounded

theorem recordOk_none (gone : s.call.record = none) : RecordOk s :=
  ⟨fun _ => gone, fun _ record => nomatch gone.symm.trans record⟩

theorem recordOk_complete (code : Option HaltCode) (gone : s.call.record = none) : RecordOk (complete code s) := by
  have none : (powered s).call.record = none := by rw [powered_call, gone]
  rw [complete_powered]
  cases code with
  | none => exact recordOk_none none
  | some c => exact (keeps_enterHalted c _).record ((keeps_powered s).phase) (recordOk_none none)

theorem complete_phase (code : Option HaltCode) (s : State) : (complete code s).phase = .running :=
  (bounded_complete code s).phase

section
variable {P : State → Prop} (carried : Carried P)

include carried

theorem Carried.runsOn (keeps : Keeps s t) (h : Runs P s) : Runs P t :=
  ⟨keeps.phase.trans h.1, carried.runs keeps h.1 h.2⟩

theorem Carried.configured (r : ConfigRead) (i : Bool) (phase : s.phase = .startUp) (h : P s) :
    P (configRead r i s) := by
  have only : Only otherParts s (takeConfig (readConfig r).1 i s.quiet) := by
    intro p hp
    cases p <;> first | rfl | exact absurd (by decide) hp
  have taken : P (takeConfig (readConfig r).1 i s.quiet) :=
    carried.still (Keeps.other only).toBounded (only.mono (by decide)) h
  have done : Runs P (complete (startCode s.straps.modem (readConfig r).2 i) (takeConfig (readConfig r).1 i s.quiet)) :=
    ⟨complete_phase _ _, carried.completed _ phase taken⟩
  unfold configRead
  rw [if_pos phase]
  refine iteInduction (fun _ => ?_) fun _ => ?_
  · exact (carried.runsOn ((keeps_clearNotices _).after ((keeps_openWindow _).after (keeps_finish _))) done).2
  · exact (carried.runsOn ((keeps_finish _).after (Keeps.eachPort keeps_startHook _)) done).2

theorem Carried.invariant : Invariant P where
  loose only := carried.still (Keeps.other (only.mono (by decide))).toBounded (only.mono (by decide))
  action {_} taken {s} := carried.runsOn (keeps_action taken s)
  finish {s} h := (carried.runsOn (keeps_finish s) h).2
  dropRx {s} := carried.still (keeps_dropRx s).toBounded ((dropRx_only s).mono (by decide))
  noneLate {s} := carried.still (keeps_modSup _ s).toBounded ((s.modSup_only _).mono (by decide))
  countError {s} h := (carried.runsOn (keeps_countError s) h).2
  clearNotices {s} := carried.still (keeps_clearNotices s).toBounded ((clearNotices_only s).mono (by decide))
  outlivedEnd count {s} := carried.still (keeps_outlivedEnd count s).toBounded
    ((outlivedEnd_only count s).mono (by decide))
  stopping {s} h := (carried.runsOn ((keeps_openWindow _).after (keeps_enterStop s)) h).2
  configured r i _ := carried.configured r i
  start := carried.start
  stopped {s} _ := carried.stopped s
  restart straps {_} := carried.restart straps

/-- A frame's dispatch, from what its header alone does at the roster (R8, R23). -/
theorem Carried.dispatch {c : Instr}
    (heard : ∀ h, frameHeader c = some h → ∀ start (s : State), h.src ≠ s.own → P s →
      P (heardFrame h.src start (heardHold c h.hold) s)) : DispatchKeeps P c := by
  intro h hc start t holds
  unfold Machine.dispatch
  refine iteInduction (fun _ => carried.runsOn (keeps_rankClash _ t) holds) fun other => ?_
  have told : Runs P (heardFrame h.src start (heardHold c h.hold) t) :=
    ⟨(heardFrame_only _ _ _ t).phase.trans holds.1, heard h hc start t other holds.2⟩
  have settled := carried.runsOn (keeps_settleHolder _) told
  exact iteInduction (motive := Runs P) (fun _ => carried.runsOn (keeps_contents c start _) settled) fun _ => settled

end

/-! ## The roster (R22, R23) -/

theorem mem_hearIn {id : Nat} {start : Tick} {h : Coded HoldState} {q : Peer} :
    ∀ {l : List Peer}, q ∈ hearIn id start h l → (q.id = id ∧ q.miss = 0) ∨ q ∈ l
  | [], mem => .inl (by
      rw [hearIn, List.mem_singleton] at mem
      subst mem
      exact ⟨rfl, rfl⟩)
  | p :: l, mem => by
    unfold hearIn at mem
    split at mem
    · next same =>
      rcases List.mem_cons.mp mem with rfl | rest
      · exact .inl ⟨same, rfl⟩
      · exact .inr (List.mem_cons_of_mem _ rest)
    · split at mem
      · rcases List.mem_cons.mp mem with rfl | rest
        · exact .inl ⟨rfl, rfl⟩
        · exact .inr rest
      · rcases List.mem_cons.mp mem with rfl | rest
        · exact .inr List.mem_cons_self
        · exact (mem_hearIn rest).imp_right (List.mem_cons_of_mem _)

theorem sorted_hearIn (id : Nat) (start : Tick) (h : Coded HoldState) : ∀ {l : List Peer},
    (l.map (·.id)).Pairwise (· < ·) → ((hearIn id start h l).map (·.id)).Pairwise (· < ·)
  | [], _ => List.pairwise_singleton _ _
  | p :: l, sorted => by
    obtain ⟨first, rest⟩ := List.pairwise_cons.mp sorted
    unfold hearIn
    split
    · exact List.pairwise_cons.mpr ⟨first, rest⟩
    · next differs =>
      split
      · next before =>
        refine List.pairwise_cons.mpr ⟨fun i mem => ?_, sorted⟩
        rcases List.mem_cons.mp mem with rfl | mem
        · exact before
        · exact before.trans (first i mem)
      · next after =>
        refine List.pairwise_cons.mpr ⟨fun i mem => ?_, sorted_hearIn id start h rest⟩
        obtain ⟨q, here, rfl⟩ := List.mem_map.mp mem
        rcases mem_hearIn here with ⟨same, _⟩ | there
        · show p.id < q.id
          omega
        · exact first _ (List.mem_map_of_mem there)

theorem rosterOk_heardFrame {src : Nat} (start : Tick) (h : Coded HoldState) (range : 1 ≤ src ∧ src ≤ 8)
    (other : src ≠ s.own) (ok : RosterOk s) : RosterOk (heardFrame src start h s) := by
  obtain ⟨low, high, sorted, entries⟩ := ok
  refine ⟨low, high, sorted_hearIn src start h sorted, fun p mem => ?_⟩
  rcases mem_hearIn mem with ⟨same, fresh⟩ | before
  · rw [same, fresh]
    exact ⟨range.1, range.2, other, Nat.zero_le _⟩
  · exact entries p before

theorem readStraps_id (p : StrapPins) : 1 ≤ (readStraps p).id ∧ (readStraps p).id ≤ 8 := by
  have small := p.rank.isLt
  unfold readStraps
  dsimp only
  split
  · decide
  · next differs =>
    have some : p.rank.toNat ≠ 0 := fun zero => differs (BitVec.eq_of_toNat_eq zero)
    omega

theorem rosterOk_atStart (levels : Pins) (d : Nat) (q : List Instr) : RosterOk (State.atStart levels d q) :=
  ⟨(readStraps_id _).1, (readStraps_id _).2, .nil, List.forall_mem_nil _⟩

theorem carried_rosterOk : Carried RosterOk where
  runs keeps _ := keeps.roster
  still bounded _ := bounded.roster
  completed code {s} _ := (bounded_complete code s).roster
  start := rosterOk_atStart
  stopped s := rosterOk_atStart s.pins s.draws s.pending
  restart straps {s} _ := rosterOk_atStart { s.pins with straps := straps } s.draws s.pending

/-- A checked frame's source is one of the eight stations, of a kind that R3 does not list too (R2, R7; log 25). -/
theorem nameless_src {bytes : List Byte} {h : Header} (read : receiveBytes bytes = .nameless h) :
    1 ≤ h.src ∧ h.src ≤ 8 := by
  unfold receiveBytes at read
  split at read
  · cases read
  · split at read
    · split at read
      · next checks =>
        dsimp only at read
        split at read
        · cases read
        · cases read
          simp only [fiveChecks, Bool.and_eq_true, decide_eq_true_eq] at checks
          exact ⟨checks.1.1.2, checks.1.2⟩
      · cases read
    · cases read

theorem wellFormed_src {c : Instr} {h : Header} (ok : WellFormed c = true) (hc : frameHeader c = some h) :
    1 ≤ h.src ∧ h.src ≤ 8 := by
  have ofHeader (p : Payload) (framed : frameOk h p = true) : 1 ≤ h.src ∧ h.src ≤ 8 := by
    simp only [frameOk, Header.ok, Bool.and_eq_true, decide_eq_true_eq] at framed
    exact ⟨framed.1.1.1.1, framed.1.1.1.2⟩
  cases c
  case damagedFrame bytes =>
    simp only [frameHeader] at hc
    split at hc
    · next q read =>
      cases hc
      exact nameless_src read
    · cases hc
  all_goals first
    | (cases hc; exact ofHeader _ ok)
    | cases hc

/-- Settles O59. -/
theorem rosterOkKept : Obligations.RosterOkKept := fun c _ ok roster =>
  carried_rosterOk.invariant.exec c (carried_rosterOk.dispatch fun _ hc start _ other =>
    rosterOk_heardFrame start _ (wellFormed_src ok hc) other) roster

end

end Sys2Proof.Machine
end

section
/-! PROOFS. The bounds of the queues, the tracks, the lists and the record along every step, and a start-up that stays at
the values of a start (section 1.3, R50, R55, R110, R118, R144, R157; logs 7, 14 and 54). -/

set_option Elab.async false

namespace Sys2Proof.Machine

open Sys2Proof

section
variable {s t : State}

/-! ## Starts -/

/-- A restart keeps of the transmit queues at most the frame in transmission (R13). -/
theorem queueBounds_keptWire (s : State) (levels : Pins) (d : Nat) (q : List Instr) :
    (keptWire s (State.atStart levels d q).wire).voice.length ≤ 4 ∧
      (keptWire s (State.atStart levels d q).wire).control.length ≤ 8 ∧
      (keptWire s (State.atStart levels d q).wire).data.length ≤ 32 := by
  have empty : (State.atStart levels d q).wire = ⟨[], [], [], none, none, none, 0, 0, []⟩ := rfl
  rw [empty]
  unfold keptWire
  split
  · next x c e _ _ => cases c <;> exact ⟨Nat.le_of_ble_eq_true rfl, Nat.le_of_ble_eq_true rfl, Nat.le_of_ble_eq_true rfl⟩
  · exact ⟨Nat.zero_le _, Nat.zero_le _, Nat.zero_le _⟩

theorem queueBounds_atStart (levels : Pins) (d : Nat) (q : List Instr) : QueueBounds (State.atStart levels d q) :=
  ⟨Nat.zero_le _, Nat.zero_le _, Nat.zero_le _⟩

theorem tracksOk_atStart (levels : Pins) (d : Nat) (q : List Instr) : TracksOk (State.atStart levels d q) :=
  ⟨rfl, rfl, Nat.zero_le _⟩

theorem listBounds_atStart (levels : Pins) (d : Nat) (q : List Instr) : ListBounds (State.atStart levels d q) :=
  ⟨Nat.zero_le _, Nat.zero_le _⟩

theorem carried_queueBounds : Carried QueueBounds where
  runs keeps _ := keeps.queues
  still bounded _ := bounded.queues
  completed code {s} _ := (bounded_complete code s).queues
  start := queueBounds_atStart
  stopped s := queueBounds_atStart s.pins s.draws s.pending
  restart straps {s} _ := queueBounds_keptWire s { s.pins with straps := straps } s.draws s.pending

theorem carried_tracksOk : Carried TracksOk where
  runs keeps _ := keeps.tracks
  still bounded _ := bounded.tracks
  completed code {s} _ := (bounded_complete code s).tracks
  start := tracksOk_atStart
  stopped s := tracksOk_atStart s.pins s.draws s.pending
  restart straps {s} _ := tracksOk_atStart { s.pins with straps := straps } s.draws s.pending

theorem carried_listBounds : Carried ListBounds where
  runs keeps _ := keeps.lists
  still bounded _ := bounded.lists
  completed code {s} _ := (bounded_complete code s).lists
  start := listBounds_atStart
  stopped s := listBounds_atStart s.pins s.draws s.pending
  restart _ {_} h := ⟨(List.length_map _).trans_le h.1, Nat.zero_le _⟩

theorem carried_recordOk : Carried RecordOk where
  runs keeps := keeps.record
  still _ only := recordOk_of only.phase (congrArg Hold.state only.hold) (congrArg Call.record only.call)
  completed code {_} phase h := recordOk_complete code (h.1 phase)
  start _ _ _ := recordOk_none rfl
  stopped _ := recordOk_none rfl
  restart _ {_} _ := recordOk_none rfl

/-! ## A start-up in progress (R177; logs 7, 14 and 54) -/

/-- A start-up stays at the values of a start. -/
def StartsSound (s : State) : Prop := s.phase = .startUp → Starting s

theorem startsSound_running (phase : s.phase = .running) : StartsSound s :=
  fun starting => nomatch phase.symm.trans starting

theorem runs_startsSound (phase : t.phase = s.phase) (h : Runs StartsSound s) : Runs StartsSound t :=
  ⟨phase.trans h.1, startsSound_running (phase.trans h.1)⟩

/-- The frame that has outlived a restart completes, and the front end goes down (R13, R169). -/
theorem starting_outlivedEnd (count : Nat → Nat) (start : Starting s) : Starting (outlivedEnd count s) := by
  have ends : outlivedEnd count s = s ∨
      outlivedEnd count s = { s with
        wire := ⟨[], [], [], none, none, none, count s.wire.collided, 0, []⟩
        power := { s.power with frontEnd := .down } } := by
    obtain ⟨-, -, -, -, -, front, wire, -⟩ := start
    unfold startWire at wire
    unfold outlivedEnd txEntry
    split at wire
    · next idle => exact .inl (by rw [idle])
    · next x sending =>
      split at wire
      · next e queue =>
        simp only [Bool.and_eq_true, decide_eq_true_eq] at wire
        obtain ⟨⟨⟨-, inTx⟩, -⟩, shape⟩ := wire
        have found : ([e].find? (·.inTx)).map (fun e => (x.cls, e)) = some (x.cls, e) := by
          rw [List.find?_cons_of_pos inTx, Option.map_some]
        refine .inr ?_
        rw [sending] at front
        have closing : s.power.frontEnd = .closing := front
        have cleared : (removeTx x.cls s).wire = ⟨[], [], [], none, none, none, s.wire.collided, 0, []⟩ := by
          show ({ s.wire.setQueue ((s.wire.queue x.cls).eraseP (·.inTx)) x.cls with tx := none } : Wire) = _
          rw [queue, List.eraseP_cons_of_pos inTx, shape]
          cases x.cls <;> rfl
        rw [sending]
        dsimp only
        rw [queue, found]
        dsimp only
        rw [closeFront, if_pos (by exact closing)]
        show ({ s with
          wire := { (removeTx x.cls s).wire with collided := count (removeTx x.cls s).wire.collided }
          power := { s.power with frontEnd := .down } } : State) = _
        rw [cleared]
      · cases wire
  rcases ends with same | done
  · rwa [same]
  · rw [done]
    obtain ⟨phase, state, window, idle, rejoin, -, -, rest⟩ := start
    exact ⟨phase, state, window, idle, rejoin, rfl, decide_eq_true rfl, rest⟩

theorem starting_dropRx (start : Starting s) : Starting (dropRx s) := by
  have same : dropRx s = s := by
    show ({ s with wire := { s.wire with rx := none } } : State) = s
    rw [← (wireStarts start.2.2.2.2.2.2.1).rx]
  rwa [same]

theorem starting_clearNotices (start : Starting s) : Starting (clearNotices s) := by
  have same : clearNotices s = s := by
    show ({ s with wire := { s.wire with dropped := [] } } : State) = s
    rw [← (wireStarts start.2.2.2.2.2.2.1).dropped]
  rwa [same]

/-- Starting speaks of no loose part. -/
theorem starting_of_loose (only : Only looseParts s t) (start : Starting s) : Starting t := by
  unfold Starting
  rw [only.phase, only.power, only.wire, only.hold, only.noise, only.sup, only.ports, only.call, only.fault,
    only.report]
  exact start

theorem configRead_phase (r : ConfigRead) (i : Bool) (phase : s.phase = .startUp) :
    (configRead r i s).phase = .running := by
  unfold configRead
  rw [if_pos phase]
  refine iteInduction (motive := fun t : State => t.phase = .running) (fun _ => ?_) fun _ => ?_
  · exact ((keeps_clearNotices _).after ((keeps_openWindow _).after (keeps_finish _))).phase.trans
      (complete_phase _ _)
  · exact ((keeps_finish _).after (Keeps.eachPort keeps_startHook _)).phase.trans (complete_phase _ _)

theorem invariant_startsSound : Invariant StartsSound where
  loose only h phase := starting_of_loose only (h (only.phase.symm.trans phase))
  action {_} taken {s} := runs_startsSound (keeps_action taken s).phase
  finish {s} h := (runs_startsSound (keeps_finish s).phase h).2
  dropRx h phase := starting_dropRx (h phase)
  noneLate h phase := h phase
  countError {s} h := (runs_startsSound (keeps_countError s).phase h).2
  clearNotices h phase := starting_clearNotices (h phase)
  outlivedEnd count {s} h phase :=
    starting_outlivedEnd count (h ((outlivedEnd_only count s).phase.symm.trans phase))
  stopping {s} h := (runs_startsSound ((keeps_openWindow _).after (keeps_enterStop s)).phase h).2
  configured r i {_} phase _ := startsSound_running (configRead_phase r i phase)
  start levels d q _ := starting_atStart levels d q
  stopped {_} _ := fun phase => nomatch phase
  restart straps {s} _ _ := starting_beginRestart straps s

theorem dispatch_startsSound (c : Instr) : DispatchKeeps StartsSound c := by
  intro h _ start t holds
  refine runs_startsSound ?_ holds
  unfold dispatch
  refine iteInduction (motive := fun u : State => u.phase = t.phase) (fun _ => (keeps_rankClash _ t).phase) fun _ => ?_
  have settled := (keeps_settleHolder _).phase.trans (heardFrame_only h.src start (heardHold c h.hold) t).phase
  exact iteInduction (motive := fun u : State => u.phase = t.phase)
    (fun _ => (keeps_contents c start _).phase.trans settled) fun _ => settled

/-! ## The bounds along every step -/

theorem step_starting (sound : s.phase = .startUp → Starting s) (run : step s = .next t)
    (phase : t.phase = .startUp) : Starting t :=
  invariant_startsSound.step dispatch_startsSound sound run phase

theorem step_queueBounds (h : QueueBounds s) (run : step s = .next t) : QueueBounds t :=
  carried_queueBounds.invariant.step (fun _ => carried_queueBounds.dispatch fun _ _ _ _ _ =>
    queueBounds_of (heardFrame_only _ _ _ _).wire) h run

theorem step_tracksOk (h : TracksOk s) (run : step s = .next t) : TracksOk t :=
  carried_tracksOk.invariant.step (fun _ => carried_tracksOk.dispatch fun _ _ _ _ _ =>
    tracksOk_of (heardFrame_only _ _ _ _).noise) h run

theorem step_listBounds (h : ListBounds s) (run : step s = .next t) : ListBounds t :=
  carried_listBounds.invariant.step (fun _ => carried_listBounds.dispatch fun _ _ _ _ _ =>
    listBounds_of (heardFrame_only _ _ _ _).fault (heardFrame_only _ _ _ _).report) h run

theorem step_recordOk (h : RecordOk s) (run : step s = .next t) : RecordOk t :=
  carried_recordOk.invariant.step (fun _ => carried_recordOk.dispatch fun _ _ _ _ _ =>
    recordOk_of (heardFrame_only _ _ _ _).phase rfl (congrArg Call.record (heardFrame_only _ _ _ _).call)) h run

end

end Sys2Proof.Machine
end

section
/-! PROOFS. The ports and the bindings that name them: what an operation at one port must leave for both to stay sound
(R89, R93, R96 to R103, R127 to R130). -/

set_option Elab.async false

namespace Sys2Proof.Machine

open Sys2Proof

section
variable {s t u : State} {n m : PortNo} {p q : Port}

/-! ## Sound ports -/

/-- A binding names a port: CONNECTED for a connected entry, ringing for its offer else (R127 to R130). -/
def Names (b : Binding) (p : Port) : Prop :=
  if b.connected then p.state = .connected else p.pending = some (.offerFrom b.station b.port b.ref)

theorem bindingOk_iff {b : Binding} : bindingOk s b = true ↔ ∀ n ∈ b.locals, Names b (s.port n) := by
  unfold bindingOk Names
  rw [List.all_eq_true]
  refine forall₂_congr fun n _ => ?_
  split <;> exact decide_eq_true_iff

theorem portsOk_iff : PortsOk s ↔
    (∀ n, portOk (s.port n) = true) ∧ ∀ b ∈ s.call.bindings, ∀ n ∈ b.locals, Names b (s.port n) := by
  unfold PortsOk
  rw [List.all_eq_true]
  constructor
  · rintro ⟨one, two, bindings⟩
    refine ⟨fun n => ?_, fun b here => bindingOk_iff.mp (bindings b here)⟩
    cases n with
    | one => exact one
    | two => exact two
  · rintro ⟨ports, bindings⟩
    exact ⟨ports .one, ports .two, fun b here => bindingOk_iff.mpr (bindings b here)⟩

/-- From `s` to `t` sound ports stay sound. -/
def Sound (s t : State) : Prop := PortsOk s → PortsOk t

theorem Sound.refl (s : State) : Sound s s := id

theorem Sound.after (second : Sound t u) (first : Sound s t) : Sound s u := fun ok => second (first ok)

theorem Sound.foldl {α : Type} {f : State → α → State} (each : ∀ t x, Sound t (f t x)) :
    ∀ (l : List α) (s : State), Sound s (l.foldl f s)
  | [], s => .refl s
  | x :: l, s => (Sound.foldl each l (f s x)).after (each s x)

theorem Sound.eachPort {f : PortNo → State → State} (each : ∀ n t, Sound t (f n t)) (s : State) :
    Sound s (s.eachPort f) := Sound.foldl (fun t n => each n t) _ s

/-- Nothing that soundness reads of a port changes. -/
structure Stays (p q : Port) : Prop where
  state : q.state = p.state := by rfl
  hook : q.offHook = p.offHook := by rfl
  ref : q.callRef = p.callRef := by rfl
  pending : q.pending = p.pending := by rfl
  request : q.outReq = p.outReq := by rfl
  silence : q.silence.isNone = p.silence.isNone := by rfl
  ringBack : q.ringBack.isNone = p.ringBack.isNone := by rfl

theorem Stays.portOk (stays : Stays p q) (ok : portOk p = true) : portOk q = true := by
  unfold Sys2Proof.portOk
  rw [stays.state, stays.hook, stays.ref, stays.pending, stays.request, stays.silence, stays.ringBack]
  exact ok

theorem Stays.names {b : Binding} (stays : Stays p q) (names : Names b p) : Names b q := by
  unfold Names
  rw [stays.state, stays.pending]
  exact names

theorem Sound.stays (ports : ∀ n, Stays (s.port n) (t.port n)) (bindings : t.call.bindings = s.call.bindings) :
    Sound s t := by
  intro ok
  obtain ⟨each, named⟩ := portsOk_iff.mp ok
  rw [portsOk_iff, bindings]
  exact ⟨fun n => (ports n).portOk (each n), fun b here n mem => (ports n).names (named b here n mem)⟩

/-- The ports and the bindings are as they were. -/
theorem Sound.same (ports : t.ports = s.ports) (bindings : t.call.bindings = s.call.bindings) : Sound s t :=
  .stays (fun n => by rw [port_congr ports n]; exact {}) bindings

/-- The parts that neither a port nor a binding lies in. -/
def apartParts : List Part :=
  [.phase, .now, .taps, .straps, .interface, .cfg, .pins, .power, .wire, .hold, .noise, .sup, .fault, .report, .svc,
    .draws, .outs, .pending]

theorem Sound.apart (only : Only apartParts s t) : Sound s t :=
  .same only.ports (congrArg Call.bindings only.call)

/-- The port of a number and the state that rewrites it. -/
theorem Sound.modPort {f : Port → Port} (stays : Stays (s.port n) (f (s.port n))) : Sound s (s.modPort n f) := by
  refine .stays (fun m => ?_) rfl
  by_cases same : m = n
  · rw [same, State.port_modPort_same]
    exact stays
  · rw [State.port_modPort_other _ _ same]
    exact {}

/-! ## A port that no binding names -/

/-- Every port but `n` is sound, and so are the bindings, none of which names `n`. -/
structure Spares (n : PortNo) (s : State) : Prop where
  other : ∀ m, m ≠ n → portOk (s.port m) = true
  named : ∀ b ∈ s.call.bindings, ∀ m ∈ b.locals, m ≠ n ∧ Names b (s.port m)

/-- An off-hook port that no binding names: what a port may become a waiting or calling one from (R93 to R100). -/
structure Free (n : PortNo) (s : State) : Prop extends Spares n s where
  hook : (s.port n).offHook = true

theorem Spares.keep (spares : Spares n s) (ports : ∀ m, m ≠ n → t.port m = s.port m)
    (bindings : ∀ b ∈ t.call.bindings, b ∈ s.call.bindings) : Spares n t where
  other m differs := by
    rw [ports m differs]
    exact spares.other m differs
  named b here m mem := by
    obtain ⟨differs, names⟩ := spares.named b (bindings b here) m mem
    refine ⟨differs, ?_⟩
    rw [ports m differs]
    exact names

theorem Spares.portsOk (spares : Spares n s) (ok : portOk (s.port n) = true) : PortsOk s := by
  rw [portsOk_iff]
  refine ⟨fun m => ?_, fun b here m mem => (spares.named b here m mem).2⟩
  by_cases same : m = n
  · rw [same]
    exact ok
  · exact spares.other m same

/-- Rings for no offer from another port. -/
def NoOffer (p : Port) : Prop := ∀ st po ref, p.pending ≠ some (.offerFrom st po ref)

theorem noOffer_of_state (ok : portOk p = true) (away : p.state ≠ .ringing) : NoOffer p :=
  fun _ _ _ offer => away (portOk_ringing ok offer)

/-- An unconnected port that rings for no offer is named by no binding. -/
theorem spares_of_portsOk (ok : PortsOk s) (away : (s.port n).state ≠ .connected) (silent : NoOffer (s.port n)) :
    Spares n s := by
  obtain ⟨each, named⟩ := portsOk_iff.mp ok
  refine ⟨fun m _ => each m, fun b here m mem => ⟨fun same => ?_, named b here m mem⟩⟩
  have names := named b here m mem
  rw [same] at names
  unfold Names at names
  split at names
  · exact away names
  · exact silent _ _ _ names

theorem hook_of_state (ok : portOk p = true) (idle : p.state ≠ .idle) (ringing : p.state ≠ .ringing) :
    p.offHook = true := by
  rw [portOk_offHook ok, decide_eq_false idle, decide_eq_false ringing]
  rfl

theorem state_of_hook (ok : portOk p = true) (hook : p.offHook = true) : p.state ≠ .idle ∧ p.state ≠ .ringing := by
  rw [portOk_offHook ok, Bool.not_eq_true', Bool.or_eq_false_iff] at hook
  exact ⟨of_decide_eq_false hook.1, of_decide_eq_false hook.2⟩

theorem state_of_onHook (ok : portOk p = true) (hook : p.offHook = false) : p.state = .idle ∨ p.state = .ringing := by
  rw [portOk_offHook ok, Bool.not_eq_false', Bool.or_eq_true, decide_eq_true_eq, decide_eq_true_eq] at hook
  exact hook

/-- A port on a dial tone, an offer or a request is free. -/
theorem free_of_portsOk (ok : PortsOk s) (idle : (s.port n).state ≠ .idle) (ringing : (s.port n).state ≠ .ringing)
    (connected : (s.port n).state ≠ .connected) : Free n s where
  toSpares := spares_of_portsOk ok connected (noOffer_of_state (portsOk_port ok n) ringing)
  hook := hook_of_state (portsOk_port ok n) idle ringing

/-- A port that waits for the answer to a request is free. -/
theorem free_of_request {r : OutReq} (ok : PortsOk s) (request : (s.port n).outReq = some r) : Free n s := by
  rcases portOk_outReq (portsOk_port ok n) request with ⟨state, -⟩ | ⟨state, -⟩ <;>
    exact free_of_portsOk ok (by rw [state]; nofun) (by rw [state]; nofun) (by rw [state]; nofun)

theorem Free.keep (free : Free n s) (ports : ∀ m, t.port m = s.port m)
    (bindings : t.call.bindings = s.call.bindings) : Free n t where
  toSpares := free.toSpares.keep (fun m _ => ports m) fun b here => bindings ▸ here
  hook := by
    rw [ports n]
    exact free.hook

/-- A free port rewritten as a sound one. -/
theorem Free.modPort {f : Port → Port} (free : Free n s) (ok : portOk (f (s.port n)) = true) :
    PortsOk (s.modPort n f) := by
  have spares : Spares n (s.modPort n f) :=
    free.toSpares.keep (fun m differs => State.port_modPort_other _ _ differs) fun _ here => here
  refine spares.portsOk ?_
  rw [State.port_modPort_same]
  exact ok

/-! ## The port operations (R93 to R103) -/

theorem portOk_clear (now : Tick) (cause : Option PortCause) (ref : Option (Nat × Nat)) (hook : p.offHook = true) :
    portOk (p.clear now cause ref) = true := by
  simp [portOk, Port.clear, Port.stripped, Port.setTone, hook]

theorem portOk_toIdle (now : Tick) (hook : p.offHook = false) : portOk (p.toIdle now) = true := by
  simp [portOk, Port.toIdle, Port.stripped, Port.setTone, hook]

theorem portOk_connect (now : Tick) (c : CallRef) (timed : Bool) (hook : p.offHook = true) :
    portOk (p.connect now c timed) = true := by
  simp [portOk, Port.connect, Port.stripped, Port.setTone, hook]

theorem portOk_ring (now : Tick) {why : Pending} (asks : ∀ st po ref, why ≠ .offered st po ref)
    (hook : p.offHook = false) : portOk (p.ring now why) = true := by
  cases why with
  | exchange => simp [portOk, Port.ring, Port.stripped, Port.setTone, hook]
  | offerFrom st po ref => simp [portOk, Port.ring, Port.stripped, Port.setTone, hook]
  | offered st po ref => exact absurd rfl (asks st po ref)

/-- The port's binding leaves the list with its call (R130). -/
theorem mem_dropBinding {b : Binding} : b ∈ (dropBinding n s).call.bindings ↔
    b ∈ s.call.bindings ∧ ¬ (b.connected = true ∧ n ∈ b.locals) := by
  show b ∈ s.call.bindings.filter _ ↔ _
  rw [List.mem_filter, Bool.not_eq_true', ← Bool.not_eq_true, Bool.and_eq_true, List.contains_iff_mem]

/-- Without its call's binding a port that rings for no offer is named by none. -/
theorem spares_dropBinding (ok : PortsOk s) (silent : NoOffer (s.port n)) : Spares n (dropBinding n s) := by
  obtain ⟨each, named⟩ := portsOk_iff.mp ok
  refine ⟨fun m _ => each m, fun b here m mem => ?_⟩
  obtain ⟨before, stays⟩ := mem_dropBinding.mp here
  have names := named b before m mem
  refine ⟨fun same => ?_, names⟩
  rw [same] at names mem
  unfold Names at names
  split at names
  · next connected => exact stays ⟨connected, mem⟩
  · exact silent _ _ _ names

theorem noOffer_of_hook (ok : PortsOk s) (hook : (s.port n).offHook = true) : NoOffer (s.port n) :=
  noOffer_of_state (portsOk_port ok n) (state_of_hook (portsOk_port ok n) hook).2

/-- An off-hook port is CLEARED. -/
theorem portsOk_clearPort (cause : Option PortCause) (ref : Option (Nat × Nat)) (ok : PortsOk s)
    (hook : (s.port n).offHook = true) : PortsOk (clearPort n cause ref s) := by
  have spares := spares_dropBinding ok (noOffer_of_hook ok hook)
  have kept : Spares n (clearPort n cause ref s) :=
    spares.keep (fun m differs => port_clearPort_other n s cause ref differs) fun _ here => here
  refine kept.portsOk ?_
  rw [port_clearPort_same]
  exact portOk_clear _ _ _ hook

theorem Free.clearPort (cause : Option PortCause) (ref : Option (Nat × Nat)) (free : Free n s) :
    PortsOk (clearPort n cause ref s) := by
  have kept : Spares n (Machine.clearPort n cause ref s) :=
    free.toSpares.keep (fun m differs => port_clearPort_other n s cause ref differs) fun _ here =>
      (mem_dropBinding.mp here).1
  refine kept.portsOk ?_
  rw [port_clearPort_same]
  exact portOk_clear _ _ _ free.hook

theorem clearPort_offHook (cause : Option PortCause) (ref : Option (Nat × Nat)) (m : PortNo) :
    ((clearPort n cause ref s).port m).offHook = (s.port m).offHook := by
  by_cases same : m = n
  · rw [same, port_clearPort_same]
    rfl
  · rw [port_clearPort_other n s cause ref same]

/-- A port on a call or an offer is connected anew, its bindings as they are. -/
theorem portsOk_connectPort (c : CallRef) (ok : PortsOk s) (hook : (s.port n).offHook = true) :
    PortsOk (connectPort n c s) := by
  obtain ⟨each, named⟩ := portsOk_iff.mp ok
  obtain ⟨timed, same⟩ := port_connectPort_same n s c
  rw [portsOk_iff]
  refine ⟨fun m => ?_, fun b here m mem => ?_⟩
  · by_cases eq : m = n
    · rw [eq, same]
      exact portOk_connect _ _ _ hook
    · rw [port_connectPort_other n s c eq]
      exact each m
  · have names := named b here m mem
    by_cases eq : m = n
    · rw [eq] at names ⊢
      rw [same]
      unfold Names at names ⊢
      split at names
      · next connected =>
        rw [if_pos connected]
        rfl
      · exact absurd names (noOffer_of_hook ok hook _ _ _)
    · rw [port_connectPort_other n s c eq]
      exact names

theorem Free.connectPort (c : CallRef) (free : Free n s) : PortsOk (connectPort n c s) :=
  free.modPort (portOk_connect _ _ _ free.hook)

end

end Sys2Proof.Machine
end

section
/-! PROOFS. Sound ports and bindings under the call controller and the port controllers. -/

set_option Elab.async false

namespace Sys2Proof.Machine

open Sys2Proof

section
variable {s t u : State} {n m : PortNo} {p q : Port}

/-! ## The record, and what is sent (R96, R110 to R126) -/

theorem sound_offerControl (dst : Nat) (b : Body) (s : State) : Sound s (offerControl dst b s) :=
  .apart ((offerControl_only dst b s).mono (by decide))

theorem sound_modCall {f : Call → Call} (s : State) (bindings : (f s.call).bindings = s.call.bindings := by rfl) :
    Sound s (s.modCall f) := .same rfl bindings

theorem sound_useTag (s : State) : Sound s (useTag s) :=
  .stays (fun n => by rw [port_useTag]; exact {}) rfl

theorem sound_sendRequest (k : RequestKind) (dst : Nat) (m : RequestMsg) (s : State) :
    Sound s (sendRequest k dst m s) := (sound_offerControl _ _ _).after (sound_useTag s)

theorem sound_modRecord (f : CallRecord → CallRecord) (s : State) : Sound s (modRecord f s) := sound_modCall s

/-- A port on a call is off-hook (R89). -/
theorem hook_of_callRef {c : CallRef} (ok : PortsOk s) (ref : (s.port n).callRef = some c) :
    (s.port n).offHook = true := by
  have okPort := portsOk_port ok n
  have connected : (s.port n).state = .connected := by
    by_contra away
    exact nomatch ref.symm.trans (portOk_callRef okPort away)
  exact hook_of_state okPort (by rw [connected]; nofun) (by rw [connected]; nofun)

theorem sound_takeClear (n : PortNo) (id : Nat) (c : ClearCause) (s : State) : Sound s (takeClear n id c s) := by
  unfold takeClear
  split
  · next ref =>
    exact iteInduction (motive := Sound s) (fun _ ok => portsOk_clearPort _ _ ok (hook_of_callRef ok ref)) fun _ => .refl s
  · exact .refl s

theorem sound_sendClear (st po id : Nat) (c : ClearCause) (s : State) : Sound s (sendClear st po id c s) := by
  unfold sendClear
  refine iteInduction (motive := Sound s) (fun _ => ?_) fun _ => sound_offerControl _ _ s
  split
  · exact sound_takeClear _ id c s
  · exact .refl s

theorem sound_endRecord (cause : Option ClearCause) (s : State) : Sound s (endRecord cause s) := by
  unfold endRecord
  split
  · dsimp only
    split
    · exact (Sound.foldl (fun t p => sound_sendClear _ _ _ _ t) _ _).after (sound_modCall s)
    · exact sound_modCall s
  · exact .refl s

theorem sound_removeParty (st po : Nat) (s : State) : Sound s (removeParty st po s) := sound_modCall s

/-- A judgement leaves the ports and the bindings (R112). -/
theorem judge_bindings (k : RequestKind) (st po cls : Nat) (s : State) :
    (judge k st po cls s).1.call.bindings = s.call.bindings := by
  unfold judge
  split
  · show (judgeHolding k st po cls s).1.call.bindings = s.call.bindings
    unfold judgeHolding
    split
    · rfl
    · split
      · rfl
      · split
        · split
          · rfl
          · split
            · rfl
            · split <;> rfl
        · split
          · rfl
          · split <;> rfl
  · rfl
  · rfl
  · rfl

theorem sound_judge (k : RequestKind) (st po cls : Nat) (s : State) : Sound s (judge k st po cls s).1 :=
  .same (judge_only k st po cls s).ports (judge_bindings k st po cls s)

theorem sound_requestFrame (k : RequestKind) (st : Nat) (m : RequestMsg) (s : State) :
    Sound s (requestFrame k st m s) := by
  have judged := sound_judge k st m.port m.cls s
  unfold requestFrame
  split
  · next t v e =>
    rw [e] at judged
    exact (sound_offerControl _ _ _).after judged
  · next t e =>
    rw [e] at judged
    exact judged

theorem sound_takeLeave (st po ref : Nat) (s : State) : Sound s (takeLeave st po ref s) := by
  unfold takeLeave
  split
  · exact iteInduction (motive := Sound s) (fun _ => sound_removeParty st po s) fun _ => .refl s
  · exact .refl s

theorem sound_setCond (c : Cond) (b : Bool) (s : State) : Sound s (setCond c b s) :=
  .apart ((setCond_only c b s).mono (by decide))

theorem sound_seizeTimeout (s : State) : Sound s (seizeTimeout s) := by
  unfold seizeTimeout
  exact iteInduction (motive := Sound s) (fun _ => (sound_endRecord _ _).after (sound_setCond _ _ s)) fun _ => .refl s

theorem sound_currentRise (s : State) : Sound s (currentRise s) := by
  unfold currentRise
  split
  · exact iteInduction (motive := Sound s) (fun _ => .refl s) fun _ =>
      (sound_setCond _ _ _).after (sound_modRecord _ s)
  · exact .refl s

theorem sound_lossTimeout (s : State) : Sound s (lossTimeout s) := by
  unfold lossTimeout
  exact iteInduction (motive := Sound s) (fun _ => sound_endRecord _ s) fun _ => .refl s

theorem sound_startOutpulse (s : State) : Sound s (startOutpulse s) := by
  unfold startOutpulse
  split
  · split
    · exact iteInduction (motive := Sound s) (fun _ => sound_modRecord _ s) fun _ => .refl s
    · exact .refl s
  · exact .refl s

theorem sound_staleFrame (st po ref : Nat) (s : State) : Sound s (staleFrame st po ref s) := by
  unfold staleFrame
  exact iteInduction (motive := Sound s) (fun _ => .refl s) fun _ =>
    (sound_sendClear _ _ _ _ _).after (sound_modCall s)

theorem sound_partyVoice (st po ref : Nat) (q : Byte) (x : Speech) (s : State) :
    Sound s (partyVoice st po ref q x s) := by
  unfold partyVoice
  exact iteInduction (motive := Sound s) (fun _ => sound_modRecord _ s) fun _ => sound_staleFrame st po ref s

theorem sound_takeDial (st po ref : Nat) (i : DialItem) (s : State) : Sound s (takeDial st po ref i s) := by
  unfold takeDial
  exact iteInduction (motive := Sound s) (fun _ => sound_modRecord _ s) fun _ => sound_staleFrame st po ref s

theorem sound_dialFrame (st : Nat) (m : DialMsg) (s : State) : Sound s (dialFrame st m s) := by
  unfold dialFrame
  split
  · exact sound_takeDial _ _ _ _ s
  · exact iteInduction (motive := Sound s) (fun _ => .refl s) fun _ => sound_staleFrame _ _ _ s

theorem sound_partySilence (st po : Nat) (s : State) : Sound s (partySilence st po s) := by
  unfold partySilence
  split
  · exact iteInduction (motive := Sound s)
      (fun _ => (sound_sendClear _ _ _ _ _).after (sound_removeParty st po s)) fun _ => .refl s
  · exact .refl s

theorem sound_sendParty (id : Nat) (p : Party) (x : Speech) (s : State) : Sound s (sendParty id p x s) := by
  unfold sendParty
  refine iteInduction (motive := Sound s) (fun _ => ?_) fun _ => .apart ((offerVoice_only _ _ s).mono (by decide))
  split
  · exact .modPort (iteInduction (motive := Stays _) (fun _ => {}) fun _ => {})
  · exact .refl s

theorem sound_emit (o : Out) (s : State) : Sound s (s.emit o) := .apart ((s.emit_only o).mono (by decide))

theorem sound_mixTap (line : Speech) (s : State) : Sound s (mixTap line s) := by
  unfold mixTap
  split
  · exact (Sound.foldl (fun t _ => sound_sendParty _ _ _ t) _ _).after
      ((sound_emit _ _).after (sound_modRecord _ s))
  · exact .refl s

/-! ## Intercom bindings (R127 to R130) -/

/-- Ports that take an OFFER ring for it, and its entry names them (R98, R128). -/
theorem portsOk_takeOffer {st po : Nat} {tag : Option Nat} {takers : List PortNo} (ok : PortsOk s)
    (idle : ∀ n ∈ takers, (s.port n).state = .idle) : PortsOk (takeOffer st po tag takers s) := by
  obtain ⟨each, named⟩ := portsOk_iff.mp ok
  rw [portsOk_iff, call_takeOffer]
  refine ⟨fun n => ?_, fun b here n mem => ?_⟩
  · rw [port_takeOffer]
    split
    · next taker =>
      have hook := portOk_offHook (each n)
      rw [idle n taker] at hook
      exact portOk_ring _ nofun hook
    · exact each n
  · rcases List.mem_append.mp here with before | fresh
    · have names := named b before n mem
      rw [port_takeOffer, if_neg fun taker => ?_]
      · exact names
      · unfold Names at names
        split at names
        · exact nomatch (idle n taker).symm.trans names
        · exact nomatch (idle n taker).symm.trans (portOk_ringing (each n) names)
    · rw [List.mem_singleton] at fresh
      subst fresh
      rw [port_takeOffer, if_pos mem]
      rfl

theorem sound_judgeOffer (st po target : Nat) (tag : Option Nat) (s : State) :
    Sound s (judgeOffer st po target tag s).1 := by
  unfold judgeOffer
  split
  · exact .refl s
  · split
    · exact .refl s
    · next takers _ =>
      refine fun ok => portsOk_takeOffer ok fun n taker => ?_
      exact (canRing_iff.mp (List.mem_filter.mp taker).2).2.1

theorem sound_offerFrame (st : Nat) (m : RequestMsg) (s : State) : Sound s (offerFrame st m s) := by
  unfold offerFrame
  exact iteInduction (motive := Sound s) (fun _ => .refl s) fun _ =>
    (sound_offerControl _ _ _).after (sound_judgeOffer st m.port m.target (some m.tag) s)

/-- Of the entries only those that stand stay, and of a connected entry's ports none is named by another (R130). -/
theorem mem_endBinding_bindings {b x : Binding} (here : x ∈ (endBinding b s).call.bindings) :
    x ∈ s.call.bindings ∧ x.ref ≠ b.ref ∧ (b.connected = true → x.connected = true → ∀ n ∈ b.locals, n ∉ x.locals) := by
  have folded : ∀ (l : List PortNo) (t : State), x ∈ (l.foldl (endLocal b.connected) t).call.bindings →
      x ∈ t.call.bindings ∧ (b.connected = true → x.connected = true → ∀ n ∈ l, n ∉ x.locals) := by
    intro l
    induction l with
    | nil => exact fun t here => ⟨here, fun _ _ _ none => nomatch none⟩
    | cons n l ih =>
      intro t here
      obtain ⟨before, apart⟩ := ih _ here
      cases connected : b.connected with
      | false =>
        rw [connected] at before
        exact ⟨before, nofun⟩
      | true =>
        rw [connected] at before
        obtain ⟨there, stays⟩ := mem_dropBinding.mp before
        refine ⟨there, fun _ joined m mem => ?_⟩
        rcases List.mem_cons.mp mem with rfl | rest
        · exact fun shared => stays ⟨joined, shared⟩
        · exact apart connected joined m rest
  have ref := mem_endBinding here
  rw [endBinding_eq, State.modCall_call, List.mem_filter] at here
  obtain ⟨before, apart⟩ := folded b.locals s here.1
  exact ⟨before, ref, apart⟩

/-- An entry of the list ends with the ports it names (R130). -/
theorem portsOk_endBinding {b : Binding} (ok : PortsOk s) (entry : b ∈ s.call.bindings) :
    PortsOk (endBinding b s) := by
  obtain ⟨each, named⟩ := portsOk_iff.mp ok
  rw [portsOk_iff]
  refine ⟨fun n => ?_, fun x here n mem => ?_⟩
  · rw [port_endBinding]
    split
    · next mine =>
      have names := named b entry n mine
      unfold Names at names
      unfold Port.ended
      split at names
      · next connected =>
        rw [if_pos connected]
        exact portOk_clear _ _ _ (hook_of_state (each n) (by rw [names]; nofun) (by rw [names]; nofun))
      · next rings =>
        rw [if_neg rings]
        have hook := portOk_offHook (each n)
        rw [portOk_ringing (each n) names] at hook
        exact portOk_toIdle _ hook
    · exact each n
  · obtain ⟨before, ref, apart⟩ := mem_endBinding_bindings here
    have names := named x before n mem
    rw [port_endBinding, if_neg fun mine => ?_]
    · exact names
    · have also := named b entry n mine
      unfold Names at names also
      split at names <;> split at also
      · next joined connected => exact apart connected joined n mine mem
      · exact nomatch names.symm.trans (portOk_ringing (each n) also)
      · exact nomatch also.symm.trans (portOk_ringing (each n) names)
      · have same := Option.some.inj (names.symm.trans also)
        injection same with _ _ ref'
        exact ref ref'

/-- A port that holds a binding's offer or call is off-hook (R129, R130). -/
theorem hook_of_holdsBinding {st ref : Nat} (ok : PortsOk s) (holds : holdsBinding st ref (s.port n) = true) :
    (s.port n).offHook = true := by
  simp only [holdsBinding, Bool.or_eq_true, Bool.and_eq_true, decide_eq_true_eq] at holds
  rcases holds with ⟨state, -⟩ | ⟨state, -⟩ <;>
    exact hook_of_state (portsOk_port ok n) (by rw [state]; nofun) (by rw [state]; nofun)

theorem sound_endFrame (st : Nat) (m : RequestMsg) (s : State) : Sound s (endFrame st m s) := by
  unfold endFrame
  split
  · next found => exact fun ok => portsOk_endBinding ok (List.mem_of_find?_eq_some found)
  · split
    · exact iteInduction (motive := Sound s)
        (fun holds ok => portsOk_clearPort _ _ ok (hook_of_holdsBinding ok holds)) fun _ => .refl s
    · exact .refl s

theorem sound_acceptFrame (st : Nat) (m : RequestMsg) (s : State) : Sound s (acceptFrame st m s) := by
  unfold acceptFrame
  refine iteInduction (motive := Sound s) (fun _ => .refl s) fun _ => ?_
  dsimp only
  split
  · next n _ =>
    refine iteInduction (motive := Sound s) (fun may ok => portsOk_connectPort _ ok ?_) fun _ => sound_sendRequest _ _ _ s
    have offering : (s.port n).state = .offering := of_decide_eq_true (Bool.and_eq_true_iff.mp may).1
    exact hook_of_state (portsOk_port ok n) (by rw [offering]; nofun) (by rw [offering]; nofun)
  · exact sound_sendRequest _ _ _ s

/-- A port that rang for an offer is IDLE again and leaves the offer's entry (R98, R130). -/
theorem portsOk_leavesOffer {st po ref : Nat} (ok : PortsOk s)
    (offer : (s.port n).pending = some (.offerFrom st po ref)) : PortsOk (leaveBinding n ref (idlePort n s)) := by
  obtain ⟨each, named⟩ := portsOk_iff.mp ok
  have ringing := portOk_ringing (each n) offer
  have port (m : PortNo) : (leaveBinding n ref (idlePort n s)).port m = (idlePort n s).port m :=
    port_congr (leaveBinding_only _ _ _).ports m
  rw [portsOk_iff]
  refine ⟨fun m => ?_, fun b here m mem => ?_⟩
  · rw [port]
    by_cases same : m = n
    · rw [same, port_idlePort_same]
      have hook := portOk_offHook (each n)
      rw [ringing] at hook
      exact portOk_toIdle _ hook
    · rw [port_idlePort_other n s same]
      exact each m
  · obtain ⟨before, -⟩ := List.mem_filter.mp here
    obtain ⟨a, there, rfl⟩ := List.mem_map.mp before
    have differs : m ≠ n ∧ Names a (s.port m) := by
      split at mem
      · obtain ⟨mem, differs⟩ := List.mem_filter.mp mem
        exact ⟨of_decide_eq_true differs, named a there m mem⟩
      · next other =>
        have names := named a there m mem
        refine ⟨fun same => ?_, names⟩
        rw [same] at names
        unfold Names at names
        split at names
        · exact nomatch ringing.symm.trans names
        · have agree := Option.some.inj (names.symm.trans offer)
          injection agree with _ _ ref'
          exact other ref'
    rw [port, port_idlePort_other n s differs.1]
    exact iteInduction (motive := fun b : Binding => Names b (s.port m)) (fun _ => differs.2) fun _ => differs.2

theorem sound_haltCalls (s : State) : Sound s (haltCalls s) := fun ok =>
  portsOk_iff.mpr ⟨portsOk_port (s := s) ok, fun _ none => nomatch none⟩

end

end Sys2Proof.Machine
end

section
/-! PROOFS. Sound ports under requests, dialling, the hook, ringing and speech (R90 to R109). -/

set_option Elab.async false

namespace Sys2Proof.Machine

open Sys2Proof

section
variable {s t u : State} {n m : PortNo} {p q : Port}

/-! ## Requests (R94 to R97) -/

/-- Why a port rings, for those that have made no offer. -/
theorem portOk_await {now : Tick} {st : PortState} {x : Pending} {r : OutReq} (hook : p.offHook = true)
    (fits : (st = .waiting ∧ (r.kind = .seize ∨ r.kind = .answer)) ∨
      (st = .offering ∧ r.kind = .offer ∧ ∃ a b c, x = .offered a b c)) :
    portOk (p.await now st (x, r)) = true := by
  rcases fits with ⟨rfl, kind⟩ | ⟨rfl, kind, a, b, c, rfl⟩
  · have other : r.kind ≠ .offer := by rcases kind with e | e <;> rw [e] <;> nofun
    simp [portOk, Port.await, Port.stripped, Port.setTone, hook, kind, other]
  · simp [portOk, Port.await, Port.stripped, Port.setTone, hook, kind]

theorem Free.offerControl (dst : Nat) (b : Body) (free : Free n s) : Free n (offerControl dst b s) :=
  free.keep (fun m => port_congr (offerControl_only dst b s).ports m)
    (congrArg Call.bindings (offerControl_only dst b s).call)

theorem Free.refusePort (c : RefuseCause) (ref : Nat × Nat) (free : Free n s) : PortsOk (refusePort n c ref s) :=
  free.clearPort _ _

/-- An answer to a request of a free port; one that is neither GRANT nor REFUSE leaves the ports (R96; log 25). -/
theorem portsOk_takeAnswer {k : RequestKind} {h : Nat} {v : Verdict} (free : Free n s)
    (unlisted : ∀ a c, v.answer = .unlisted a c → PortsOk s)
    (offering : k = .offer → PortsOk s ∧ (s.port n).state = .offering) : PortsOk (takeAnswer n k h v s) := by
  unfold takeAnswer
  split
  · exact free.refusePort _ _
  · next a c answer => exact unlisted a c answer
  · refine iteInduction (motive := PortsOk) (fun offer => ?_) fun _ => free.connectPort _
    obtain ⟨ok, state⟩ := offering offer
    refine free.modPort ?_
    have okPort := portsOk_port ok n
    have ref : (s.port n).callRef = none := portOk_callRef okPort (by rw [state]; nofun)
    have silence : (s.port n).silence = none := by
      simp only [portOk, Bool.and_eq_true, Bool.or_eq_true, decide_eq_true_eq, Option.isNone_iff_eq_none] at okPort
      obtain ⟨⟨⟨⟨⟨-, quiet | connected⟩, -⟩, -⟩, -⟩, -⟩ := okPort
      · exact quiet
      · exact nomatch state.symm.trans connected
    have pending := okPort
    simp only [portOk, Bool.and_eq_true, state] at pending
    obtain ⟨⟨-, asked⟩, -⟩ := pending
    cases offered : (s.port n).pending with
    | none => simp [portOk, Port.setTone, state, ref, silence, free.hook]
    | some x =>
      rw [offered] at asked
      cases x with
      | offered a b c => simp [portOk, Port.setTone, state, ref, silence, free.hook]
      | exchange => exact absurd asked Bool.false_ne_true
      | offerFrom a b c => exact absurd asked Bool.false_ne_true

/-- The call controller answers with GRANT or REFUSE (R112). -/
theorem judge_answer {k : RequestKind} {st po cls : Nat} {v : Verdict}
    (judged : judge k st po cls s = (t, some v)) (a c : Byte) : v.answer ≠ .unlisted a c := by
  have holding : ∀ a c, (judgeHolding k st po cls s).2.answer ≠ .unlisted a c := by
    have class_ : ∀ a c, (classRefusal st po cls s).answer ≠ .unlisted a c := by
      unfold classRefusal
      intro a c
      split <;> nofun
    intro a c
    unfold judgeHolding
    split
    · nofun
    · split
      · nofun
      · split
        · split
          · nofun
          · split
            · nofun
            · split
              · next w refusal =>
                unfold joinRefusal at refusal
                split at refusal
                · cases refusal
                  nofun
                · split at refusal
                  · cases refusal
                    exact class_ a c
                  · split at refusal <;> cases refusal
                    nofun
              · nofun
        · split
          · nofun
          · split
            · next w refusal =>
              unfold seizeRefusal at refusal
              split at refusal
              · cases refusal
              · split at refusal
                · cases refusal
                  exact class_ a c
                · split at refusal <;> cases refusal
                  nofun
            · nofun
  unfold judge at judged
  split at judged
  · cases judged
    exact holding a c
  · cases judged
    nofun
  · cases judged
  · cases judged
    nofun

theorem Free.useTag (free : Free n s) : Free n (useTag s) := free.keep (port_useTag s) rfl

/-- A SEIZE or ANSWER of a free port (R96, R97). -/
theorem Free.makeSeize {k : RequestKind} (free : Free n s) (kind : k = .seize ∨ k = .answer) :
    PortsOk (makeSeize n k s) := by
  have other : k ≠ .offer := by rcases kind with rfl | rfl <;> nofun
  unfold Machine.makeSeize
  split
  · exact free.refusePort _ _
  · next h _ =>
    refine iteInduction (motive := PortsOk) (fun _ => ?_) fun _ => ?_
    · have judged : Free n (judge k s.own (portNo n) (s.portClass n) (Machine.useTag s)).1 :=
        free.useTag.keep (fun m => port_congr (judge_only _ _ _ _ _).ports m) (judge_bindings _ _ _ _ _)
      split
      · next t v e =>
        rw [e] at judged
        exact portsOk_takeAnswer judged (fun a c answer => absurd answer (judge_answer e a c)) fun offer => absurd offer other
      · next t e =>
        rw [e] at judged
        exact judged.modPort (portOk_await judged.hook (.inl ⟨rfl, kind⟩))
    · exact sound_sendRequest _ _ _ _ (free.modPort (portOk_await free.hook (.inl ⟨rfl, kind⟩)))

theorem Free.requestLine {k : RequestKind} (free : Free n s) (kind : k = .seize ∨ k = .answer) :
    PortsOk (requestLine n k s) := by
  unfold Machine.requestLine
  exact iteInduction (motive := PortsOk)
    (fun _ => free.modPort (portOk_await free.hook (.inl ⟨rfl, kind⟩))) fun _ => free.makeSeize kind

theorem eq_otherPort (differs : m ≠ n) : m = otherPort n := by
  cases n <;> cases m <;> first | rfl | exact absurd rfl differs

/-- An offer to the station's own other port: that one rings, the port offers (R95, R98, R128). -/
theorem Free.makeLocalOffer (target : Nat) (free : Free n s) : PortsOk (makeLocalOffer n target s) := by
  unfold Machine.makeLocalOffer
  refine iteInduction (motive := PortsOk) (fun _ => free.refusePort _ _) fun _ => iteInduction (motive := PortsOk)
    (fun _ => free.refusePort _ _) fun _ => iteInduction (motive := PortsOk) (fun can => ?_) fun _ => free.refusePort _ _
  obtain ⟨-, idle, -, -⟩ := canRing_iff.mp can
  have okOther := free.other _ (otherPort_ne n)
  have spares : Spares n (takeOffer s.own (portNo n) none [otherPort n] s) := by
    refine ⟨fun m differs => ?_, fun b here m mem => ?_⟩
    · rw [port_takeOffer, if_pos (List.mem_singleton.mpr (eq_otherPort differs)), eq_otherPort differs]
      have hook := portOk_offHook okOther
      rw [idle] at hook
      exact portOk_ring _ nofun hook
    · rw [call_takeOffer] at here
      rcases List.mem_append.mp here with before | fresh
      · obtain ⟨differs, names⟩ := free.named b before m mem
        rw [eq_otherPort differs] at names
        unfold Names at names
        split at names
        · exact nomatch idle.symm.trans names
        · exact nomatch idle.symm.trans (portOk_ringing okOther names)
      · rw [List.mem_singleton] at fresh
        subst fresh
        have same := List.mem_singleton.mp mem
        rw [port_takeOffer, if_pos mem, same]
        exact ⟨otherPort_ne n, rfl⟩
  have hook : ((takeOffer s.own (portNo n) none [otherPort n] s).port n).offHook = true := by
    rw [port_takeOffer, if_neg fun mem => otherPort_ne n (List.mem_singleton.mp mem).symm]
    exact free.hook
  exact Free.modPort ⟨spares, hook⟩ (by simp [portOk, Port.stripped, Port.setTone, hook])

theorem Free.makeOffer (st target : Nat) (free : Free n s) : PortsOk (makeOffer n st target s) := by
  unfold Machine.makeOffer
  refine iteInduction (motive := PortsOk) (fun _ => free.makeLocalOffer target) fun _ => ?_
  split
  · exact free.refusePort _ _
  · exact iteInduction (motive := PortsOk) (fun _ => free.refusePort _ _) fun _ => sound_sendRequest _ _ _ _
      (free.modPort (portOk_await free.hook (.inr ⟨rfl, rfl, _, _, _, rfl⟩)))

theorem Free.requestOffer (st target : Nat) (free : Free n s) : PortsOk (requestOffer n st target s) := by
  unfold Machine.requestOffer
  exact iteInduction (motive := PortsOk)
    (fun _ => free.modPort (portOk_await free.hook (.inr ⟨rfl, rfl, _, _, _, rfl⟩))) fun _ => free.makeOffer st target

theorem sound_releaseHeld (all : Bool) (n : PortNo) (s : State) : Sound s (releaseHeld all n s) := by
  intro ok
  unfold releaseHeld
  split
  · next r request =>
    have free := free_of_request ok request
    refine iteInduction (motive := PortsOk) (fun _ => iteInduction (motive := PortsOk)
      (fun _ => iteInduction (motive := PortsOk) (fun _ => free.makeOffer _ _) fun _ => ok) fun other =>
      free.makeSeize ?_) fun _ => ok
    rcases portOk_outReq (portsOk_port ok n) request with ⟨-, offer⟩ | ⟨-, kind⟩
    · exact absurd offer other
    · exact kind
  · exact ok

theorem sound_requestFailed {r : OutReq} (request : (s.port n).outReq = some r) :
    Sound s (requestFailed n r s) := fun ok => (free_of_request ok request).clearPort _ _

theorem sound_requestTimeout (n : PortNo) (s : State) : Sound s (requestTimeout n s) := by
  unfold requestTimeout
  split
  · next request => exact iteInduction (motive := Sound s) (fun _ => sound_requestFailed request) fun _ => .refl s
  · exact .refl s

theorem sound_replyAt (src : Nat) (m : ReplyMsg) (n : PortNo) (s : State) : Sound s (replyAt src m n s) := by
  unfold replyAt
  split
  · next r request =>
    refine fun ok => portsOk_takeAnswer (free_of_request ok request) (fun _ _ _ => ok) fun offer => ⟨ok, ?_⟩
    rcases portOk_outReq (portsOk_port ok n) request with ⟨state, -⟩ | ⟨-, kind | kind⟩
    · exact state
    · exact nomatch kind.symm.trans offer
    · exact nomatch kind.symm.trans offer
  · exact .refl s

theorem sound_replyFrame (src : Nat) (m : ReplyMsg) (s : State) : Sound s (replyFrame src m s) := by
  unfold replyFrame
  exact iteInduction (motive := Sound s) (fun _ => sound_replyAt src m .one s) fun _ =>
    iteInduction (motive := Sound s) (fun _ => sound_replyAt src m .two s) fun _ => .refl s

/-! ## Digits (R91 to R95) -/

theorem Free.firstDigit {d : Dialled} (ok : PortsOk s) (free : Free n s) : PortsOk (firstDigit n d s) := by
  unfold Machine.firstDigit
  split
  · exact iteInduction (motive := PortsOk) (fun _ => free.requestLine (.inl rfl)) fun _ => iteInduction
      (motive := PortsOk) (fun _ => free.clearPort _ _) fun _ => Sound.modPort (s := s) {} ok
  · exact free.clearPort _ _

theorem Free.portDigit (st : Nat) (d : Dialled) (free : Free n s) : PortsOk (portDigit n st d s) := by
  unfold Machine.portDigit
  split
  · exact iteInduction (motive := PortsOk) (fun _ => free.requestOffer _ _) fun _ => free.clearPort _ _
  · exact free.clearPort _ _

theorem sound_sendDial (n : PortNo) (i : DialItem) (s : State) : Sound s (sendDial n i s) := by
  unfold sendDial
  split
  · exact iteInduction (motive := Sound s) (fun _ => sound_takeDial _ _ _ _ s) fun _ => sound_offerControl _ _ s
  · exact .refl s

theorem free_of_dialing (ok : PortsOk s) (dialing : (s.port n).state = .dialing) : Free n s :=
  free_of_portsOk ok (by rw [dialing]; nofun) (by rw [dialing]; nofun) (by rw [dialing]; nofun)

theorem sound_takeDigit (n : PortNo) (d : Dialled) (s : State) : Sound s (takeDigit n d s) := by
  unfold takeDigit
  dsimp only
  split
  · next dialing =>
    split
    · exact fun ok => (free_of_dialing ok dialing).firstDigit ok
    · exact fun ok => (free_of_dialing ok dialing).portDigit _ _
  · split
    · exact sound_sendDial n _ s
    · exact .refl s
  · exact .refl s

theorem sound_clearCount (n : PortNo) (s : State) : Sound s (clearCount n s) := .modPort {}

theorem sound_pulseCountClose (n : PortNo) (s : State) : Sound s (pulseCountClose n s) := by
  unfold pulseCountClose
  exact iteInduction (motive := Sound s) (fun _ => (sound_takeDigit _ _ _).after (sound_clearCount n s)) fun _ => .refl s

theorem sound_countPulse (n : PortNo) (s : State) : Sound s (countPulse n s) :=
  .modPort (iteInduction (motive := Stays _) (fun _ => {}) fun _ => {})

theorem sound_takeFlash (n : PortNo) (s : State) : Sound s (takeFlash n s) := by
  have closed : Sound s (if 0 < (s.port n).pulses then takeDigit n .invalid (clearCount n s) else s) :=
    iteInduction (motive := Sound s) (fun _ => (sound_takeDigit _ _ _).after (sound_clearCount n s)) fun _ => .refl s
  unfold takeFlash
  exact iteInduction (motive := Sound s) (fun _ => (sound_sendDial n _ _).after closed) fun _ => closed

theorem sound_toneDigit (n : PortNo) (k : Key) (s : State) : Sound s (toneDigit n k s) := by
  unfold toneDigit
  exact iteInduction (motive := Sound s) (fun _ => sound_takeDigit n _ s) fun _ => .refl s

theorem sound_firstDigitTimeout (n : PortNo) (s : State) : Sound s (firstDigitTimeout n s) := by
  unfold firstDigitTimeout
  refine iteInduction (motive := Sound s) (fun due ok => ?_) fun _ => .refl s
  have free := free_of_dialing ok (of_decide_eq_true (Bool.and_eq_true_iff.mp due).1)
  exact free.modPort (by simp [portOk, Port.stripped, Port.setTone, free.hook])

theorem sound_portDigitTimeout (n : PortNo) (s : State) : Sound s (portDigitTimeout n s) := by
  unfold portDigitTimeout
  refine iteInduction (motive := Sound s) (fun due => ?_) fun _ => .refl s
  have dialing : (s.port n).state = .dialing :=
    of_decide_eq_true (Bool.and_eq_true_iff.mp (Bool.and_eq_true_iff.mp due).1).1
  split
  · exact fun ok => (free_of_dialing ok dialing).requestOffer _ _
  · exact .refl s

/-! ## Hook (R90, R93, R99, R103) -/

theorem sound_wake (s : State) : Sound s (wake s) := .apart ((wake_only s).mono (by decide))

/-- A port goes off-hook to answer an offer it rings for: the others that ring for it are IDLE, and the entry names it
alone, with the station's other port where that made the offer (R99, R129). -/
theorem portsOk_acceptOffer {st po ref : Nat} {w : State} (ok : PortsOk s)
    (offer : (s.port n).pending = some (.offerFrom st po ref)) (hook : (w.port n).offHook = true)
    (ports : ∀ m, m ≠ n → w.port m = s.port m) (bindings : w.call.bindings = s.call.bindings) :
    PortsOk (acceptOffer n st po ref w) := by
  obtain ⟨each, named⟩ := portsOk_iff.mp ok
  have ringing := portOk_ringing (each n) offer
  let idled : State := (ringingToo n st po ref w).foldl (fun s m => idlePort m s) w
  have idle (m : PortNo) : idled.port m = if m ∈ ringingToo n st po ref w then (w.port m).toIdle w.now else w.port m :=
    port_foldl_idlePort _ w m
  have mine : idled.port n = w.port n := by rw [idle, if_neg fun here => (mem_ringingToo.mp here).2.1 rfl]
  have here : PortsOk (answeredHere n st po ref w) := by
    rw [portsOk_iff]
    have port (m : PortNo) (differs : m ≠ n) : (answeredHere n st po ref w).port m = idled.port m :=
      port_connectPort_other n _ _ differs
    have connected : ∃ timed, (answeredHere n st po ref w).port n =
        Port.connect w.now (.intercom st po ref w.own) timed (w.port n) := by
      obtain ⟨timed, same⟩ := port_connectPort_same n
        (idled.modCall fun c => { c with bindings := answeredBindings n ref c.bindings }) (.intercom st po ref w.own)
      refine ⟨timed, same.trans ?_⟩
      rw [State.modCall_now, (foldl_idlePort_only _ w).now]
      exact congrArg _ mine
    obtain ⟨timed, connected⟩ := connected
    refine ⟨fun m => ?_, fun b there m mem => ?_⟩
    · by_cases same : m = n
      · rw [same, connected]
        exact portOk_connect _ _ _ hook
      · rw [port m same, idle, ports m same]
        split
        · next too =>
          have rings := portOk_ringing (each m) (ports m same ▸ (mem_ringingToo.mp too).2.2)
          have hook := portOk_offHook (each m)
          rw [rings] at hook
          exact portOk_toIdle _ hook
        · exact each m
    · have entries : (answeredHere n st po ref w).call.bindings = answeredBindings n ref s.call.bindings := by
        rw [answeredHere, (connectPort_only _ _ _).call, State.modCall_call, (foldl_idlePort_only _ w).call, ← bindings]
        rfl
      rw [entries] at there
      obtain ⟨a, before, rfl⟩ := List.mem_map.mp there
      by_cases own : a.ref = ref
      · rw [if_pos own] at mem ⊢
        have same : m = n := List.mem_singleton.mp mem
        rw [same, connected]
        rfl
      · rw [if_neg own] at mem ⊢
        have names := named a before m mem
        have differs : m ≠ n := by
          intro same
          rw [same] at names
          unfold Names at names
          split at names
          · exact nomatch ringing.symm.trans names
          · have agree := Option.some.inj (names.symm.trans offer)
            injection agree with _ _ ref'
            exact own ref'
        rw [port m differs, idle, ports m differs, if_neg fun too => ?_]
        · exact names
        · have also := ports m differs ▸ (mem_ringingToo.mp too).2.2
          unfold Names at names
          split at names
          · exact nomatch (portOk_ringing (each m) also).symm.trans names
          · have agree := Option.some.inj (names.symm.trans also)
            injection agree with _ _ ref'
            exact own ref'
  rw [acceptOffer_eq]
  refine iteInduction (motive := PortsOk) (fun _ => ?_) fun _ => sound_sendRequest _ _ _ _ here
  unfold answeredBoth
  cases portOf po with
  | none => exact here
  | some m =>
    exact iteInduction (motive := PortsOk)
      (fun holds => portsOk_connectPort _ here (hook_of_holdsBinding here holds)) fun _ => here

/-- A port off-hook with its ringing drive off, from a port that no binding names. -/
theorem free_lifted {w : State} (spares : Spares n s) (hook : (w.port n).offHook = true)
    (ports : ∀ m, m ≠ n → w.port m = s.port m) (bindings : w.call.bindings = s.call.bindings) : Free n w :=
  ⟨spares.keep ports fun _ here => bindings ▸ here, hook⟩

theorem sound_offHook (n : PortNo) (s : State) : Sound s (offHook n s) := by
  intro ok
  let w : State := (wake s).modPort n fun p => { p with offHook := true, breakStart := none, ringOn := false }
  have port (m : PortNo) : (wake s).port m = s.port m := port_congr (wake_only s).ports m
  have lifted : w.port n = { s.port n with offHook := true, breakStart := none, ringOn := false } := by
    rw [State.port_modPort_same, port]
  have hook : (w.port n).offHook = true := by rw [lifted]
  have others (m : PortNo) (differs : m ≠ n) : w.port m = s.port m := by
    rw [State.port_modPort_other _ _ differs, port]
  have bindings : w.call.bindings = s.call.bindings := congrArg Call.bindings (wake_only s).call
  have okPort := portsOk_port ok n
  unfold offHook
  dsimp only
  split
  · next idle =>
    have free := free_lifted (spares_of_portsOk ok (by rw [idle]; nofun) (noOffer_of_state okPort (by rw [idle]; nofun)))
      hook others bindings
    exact iteInduction (motive := PortsOk)
      (fun _ => free.modPort (by simp [portOk, Port.stripped, Port.setTone, free.hook])) fun _ =>
        free.modPort (by simp [portOk, Port.stripped, Port.setTone, free.hook])
  · next ringing =>
    split
    · next offer => exact portsOk_acceptOffer ok offer hook others bindings
    · next silent =>
      have spares := spares_of_portsOk ok (by rw [ringing]; nofun) silent
      exact (free_lifted spares hook others bindings).requestLine (.inr rfl)
  · next idle ringing =>
    have off := hook_of_state okPort idle ringing
    exact (Sound.modPort (s := wake s) { hook := by rw [port, off] }) (sound_wake s ok)

/-- What a port sends as it goes on-hook leaves the port itself (R103). -/
theorem hangUp_keeps (n : PortNo) (ok : PortsOk s) :
    PortsOk (hangUp n s) ∧ (hangUp n s).port n = s.port n := by
  have leave (st po ref : Nat) : PortsOk (takeLeave st po ref s) ∧ (takeLeave st po ref s).port n = s.port n :=
    ⟨sound_takeLeave st po ref s ok, port_congr (takeLeave_only st po ref s).ports n⟩
  have send (k : RequestKind) (dst : Nat) (m : RequestMsg) :
      PortsOk (sendRequest k dst m s) ∧ (sendRequest k dst m s).port n = s.port n := by
    refine ⟨sound_sendRequest k dst m s ok, ?_⟩
    rw [sendRequest, port_congr (offerControl_only _ _ _).ports n, port_useTag]
  unfold hangUp
  dsimp only
  let Kept (t : State) : Prop := PortsOk t ∧ t.port n = s.port n
  split
  · split
    · exact iteInduction (motive := Kept) (fun _ => ⟨ok, rfl⟩) fun _ => iteInduction (motive := Kept)
        (fun _ => leave _ _ _) fun _ => send _ _ _
    · exact ⟨ok, rfl⟩
  · next offering =>
    split
    · split
      · exact iteInduction (motive := Kept) (fun _ => ⟨ok, rfl⟩) fun _ =>
          ⟨sound_offerControl _ _ s ok, port_congr (offerControl_only _ _ s).ports n⟩
      · exact ⟨ok, rfl⟩
    · refine iteInduction (motive := Kept) (fun _ => ?_) fun _ => send _ _ _
      split
      · next b found =>
        have entry := List.mem_of_find?_eq_some found
        refine ⟨portsOk_endBinding ok entry, ?_⟩
        rw [port_endBinding, if_neg fun mem => ?_]
        have names := (portsOk_iff.mp ok).2 b entry n mem
        unfold Names at names
        split at names
        · exact nomatch offering.symm.trans names
        · exact nomatch offering.symm.trans (portOk_ringing (portsOk_port ok n) names)
      · exact ⟨ok, rfl⟩
    · exact ⟨ok, rfl⟩
  · split
    · exact iteInduction (motive := Kept) (fun _ => leave _ _ _) fun _ => send _ _ _
    · refine iteInduction (motive := Kept) (fun _ => ?_) fun _ => send _ _ _
      split
      · exact iteInduction (motive := Kept) (fun holds =>
          ⟨portsOk_clearPort _ _ ok (hook_of_holdsBinding ok holds.2), port_clearPort_other _ _ _ _ (Ne.symm holds.1)⟩)
          fun _ => ⟨ok, rfl⟩
      · exact ⟨ok, rfl⟩
    · exact ⟨ok, rfl⟩
  · exact ⟨ok, rfl⟩

/-- An off-hook port goes on-hook (R103). -/
theorem portsOk_onHook (ok : PortsOk s) (hook : (s.port n).offHook = true) : PortsOk (onHook n s) := by
  obtain ⟨hung, same⟩ := hangUp_keeps n ok
  have spares := spares_dropBinding hung (noOffer_of_hook hung (by rw [same]; exact hook))
  have port (m : PortNo) (differs : m ≠ n) : (onHook n s).port m = (dropBinding n (hangUp n s)).port m :=
    (port_congr (dropBinding_only _ _).ports m).trans ((State.port_modPort_other _ _ differs).trans
      (port_congr (dropBinding_only n (hangUp n s)).ports m).symm)
  refine (spares.keep (t := onHook n s) port fun _ here => here).portsOk ?_
  have mine : (onHook n s).port n = { ((hangUp n s).port n).toIdle s.now with
      offHook := false, breakStart := none, pulses := 0, pulseEnd := none } :=
    (port_congr (dropBinding_only _ _).ports n).trans (State.port_modPort_same _ _ _)
  rw [mine]
  rfl

theorem sound_onHookEvent (n : PortNo) (s : State) : Sound s (onHookEvent n s) := by
  unfold onHookEvent
  exact iteInduction (motive := Sound s) (fun due ok => portsOk_onHook ok (Bool.and_eq_true_iff.mp due).1) fun _ => .refl s

theorem sound_hookFall (n : PortNo) (s : State) : Sound s (hookFall n s) := by
  unfold hookFall
  exact iteInduction (motive := Sound s) (fun _ => .modPort {}) fun _ => .refl s

theorem sound_hookRise (n : PortNo) (s : State) : Sound s (hookRise n s) := by
  have ended : Sound s (s.modPort n fun p => { p with breakStart := none }) := .modPort {}
  unfold hookRise
  refine iteInduction (motive := Sound s) (fun _ => iteInduction (motive := Sound s) (fun hook => ?_) fun _ =>
    sound_offHook n s) fun _ => .refl s
  split
  · exact iteInduction (motive := Sound s) (fun _ => (sound_countPulse n _).after ended) fun _ =>
      iteInduction (motive := Sound s) (fun _ => (sound_takeFlash n _).after ended) fun _ ok =>
        sound_offHook n _ (portsOk_onHook ok hook)
  · exact .refl s

/-! ## Ringing, tones and silence (R98 to R104) -/

theorem sound_burstPort (n : PortNo) (s : State) : Sound s (burstPort n s) := by
  unfold burstPort
  refine iteInduction (motive := Sound s) (fun can ok => ?_) fun _ =>
    iteInduction (motive := Sound s) (fun _ => .modPort {}) fun _ => .refl s
  obtain ⟨-, idle, -, -⟩ := canRing_iff.mp (Bool.and_eq_true_iff.mp can).1
  have okPort := portsOk_port ok n
  have spares := spares_of_portsOk ok (by rw [idle]; nofun) (noOffer_of_state okPort (by rw [idle]; nofun))
  refine (spares.keep (t := s.modPort n (Port.ring s.now .exchange))
    (fun m differs => State.port_modPort_other _ _ differs) fun _ here => here).portsOk ?_
  rw [State.port_modPort_same]
  have hook := portOk_offHook okPort
  rw [idle] at hook
  exact portOk_ring _ nofun hook

theorem sound_modPorts {f : Ports → Ports} (one : (f s.ports).one = s.ports.one := by rfl)
    (two : (f s.ports).two = s.ports.two := by rfl) : Sound s (s.modPorts f) := by
  refine .stays (fun n => ?_) rfl
  have same : (s.modPorts f).port n = s.port n := by
    cases n
    · exact one
    · exact two
  rw [same]
  exact {}

theorem sound_modFault (f : FaultMon → FaultMon) (s : State) : Sound s (s.modFault f) :=
  .apart ((s.modFault_only f).mono (by decide))

theorem sound_ringBurst (s : State) : Sound s (ringBurst s) := by
  unfold ringBurst
  refine iteInduction (motive := Sound s) (fun _ => ?_) fun _ => .refl s
  exact (Sound.eachPort sound_burstPort _).after ((sound_modFault _ _).after ((sound_modFault _ _).after
    (Sound.after sound_modPorts (sound_wake s))))

/-- A port that rang for the exchange is IDLE again (R98). -/
theorem portsOk_stopsRinging (ok : PortsOk s) (exchange : (s.port n).pending = some .exchange)
    (ringing : (s.port n).state = .ringing) : PortsOk (idlePort n s) := by
  have spares := spares_of_portsOk ok (by rw [ringing]; nofun) fun _ _ _ offer => nomatch exchange.symm.trans offer
  refine (spares.keep (t := idlePort n s) (fun m differs => port_idlePort_other n s differs) fun _ here => here).portsOk ?_
  rw [port_idlePort_same]
  have hook := portOk_offHook (portsOk_port ok n)
  rw [ringing] at hook
  exact portOk_toIdle _ hook

theorem portOk_exchange (ok : portOk p = true) (exchange : p.pending = some .exchange) : p.state = .ringing := by
  simp only [portOk, Bool.and_eq_true, exchange, decide_eq_true_eq] at ok
  exact ok.1.2

theorem sound_ringingEnd (s : State) : Sound s (ringingEnd s) := by
  unfold ringingEnd
  refine iteInduction (motive := Sound s) (fun _ => (Sound.eachPort (fun n t => ?_) _).after sound_modPorts) fun _ => .refl s
  exact iteInduction (motive := Sound t) (fun exchange ok =>
    portsOk_stopsRinging ok exchange (portOk_exchange (portsOk_port ok n) exchange)) fun _ => .refl t

theorem sound_ringDriveTimeout (n : PortNo) (s : State) : Sound s (ringDriveTimeout n s) := by
  unfold ringDriveTimeout
  exact iteInduction (motive := Sound s) (fun _ => .modPort {}) fun _ => .refl s

theorem sound_intercomCadence (n : PortNo) (s : State) : Sound s (intercomCadence n s) := by
  unfold intercomCadence
  exact iteInduction (motive := Sound s) (fun _ => .modPort {}) fun _ => .refl s

theorem sound_offerRingTimeout (n : PortNo) (s : State) : Sound s (offerRingTimeout n s) := by
  unfold offerRingTimeout
  refine iteInduction (motive := Sound s) (fun _ => ?_) fun _ => .refl s
  split
  · next offer => exact fun ok => portsOk_leavesOffer ok offer
  · exact .refl s

/-- Ring-back plays at an OFFERING port alone (R100). -/
theorem sound_ringBackTimeout (n : PortNo) (s : State) : Sound s (ringBackTimeout n s) := by
  unfold ringBackTimeout
  refine iteInduction (motive := Sound s) (fun due ok => ?_) fun _ => .refl s
  have okPort := portsOk_port ok n
  have offering : (s.port n).state = .offering := by
    have ok' := okPort
    simp only [portOk, Bool.and_eq_true, Bool.or_eq_true, decide_eq_true_eq, Option.isNone_iff_eq_none] at ok'
    obtain ⟨⟨⟨⟨-, never | state⟩, -⟩, -⟩, -⟩ := ok'
    · rw [dueRingBack, never] at due
      cases due
    · exact state
  have hook := hook_of_state okPort (by rw [offering]; nofun) (by rw [offering]; nofun)
  obtain ⟨hung, same⟩ := hangUp_keeps n ok
  exact portsOk_clearPort _ _ hung (by rw [same]; exact hook)

/-- A silence timer runs at a CONNECTED port alone (R102). -/
theorem hook_of_silence {now : Tick} {len : Nat} (ok : PortsOk s)
    (out : timerOut now (s.port n).silence len = true) : (s.port n).offHook = true := by
  have okPort := portsOk_port ok n
  have ok' := okPort
  simp only [portOk, Bool.and_eq_true, Bool.or_eq_true, decide_eq_true_eq, Option.isNone_iff_eq_none] at ok'
  obtain ⟨⟨⟨⟨⟨-, never | connected⟩, -⟩, -⟩, -⟩, -⟩ := ok'
  · rw [never] at out
    cases out
  · exact hook_of_state okPort (by rw [connected]; nofun) (by rw [connected]; nofun)

theorem sound_holderSilence (n : PortNo) (s : State) : Sound s (holderSilence n s) := by
  unfold holderSilence
  exact iteInduction (motive := Sound s) (fun due ok =>
    portsOk_clearPort _ _ ok (hook_of_silence ok (Bool.and_eq_true_iff.mp due).2)) fun _ => .refl s

theorem sound_farSilence (n : PortNo) (s : State) : Sound s (farSilence n s) := by
  unfold farSilence
  exact iteInduction (motive := Sound s) (fun due ok =>
    portsOk_clearPort _ _ ok (hook_of_silence ok (Bool.and_eq_true_iff.mp due).2)) fun _ => .refl s

theorem sound_howlerTimeout (n : PortNo) (s : State) : Sound s (howlerTimeout n s) := by
  unfold howlerTimeout
  exact iteInduction (motive := Sound s) (fun _ => .modPort {}) fun _ => .refl s

theorem sound_toneCadence (n : PortNo) (s : State) : Sound s (toneCadence n s) := by
  unfold toneCadence
  exact iteInduction (motive := Sound s) (fun _ => .modPort {}) fun _ => .refl s

theorem sound_settleTones (s : State) : Sound s (settleTones s) :=
  Sound.eachPort (fun _ _ => .modPort (iteInduction (motive := Stays _) (fun _ => {}) fun _ => {})) s

/-! ## Speech, and entry to HALTED (R106 to R109) -/

theorem sound_sendVoice (codec : PortNo → Speech) (n : PortNo) (s : State) : Sound s (sendVoice codec n s) := by
  have counted : Sound s (s.modPort n fun p => { p with seq := p.seq + 1 }) := .modPort {}
  unfold sendVoice
  dsimp only
  split
  · exact iteInduction (motive := Sound s) (fun _ => (sound_partyVoice _ _ _ _ _ _).after counted) fun _ =>
      Sound.after (.apart ((offerVoice_only _ _ _).mono (by decide))) counted
  · refine iteInduction (motive := Sound s) (fun _ => ?_) fun _ =>
      Sound.after (.apart ((offerVoice_only _ _ _).mono (by decide))) counted
    split
    · exact (sound_emit _ _).after counted
    · exact counted
  · exact .refl s

theorem sound_playPort (n : PortNo) (s : State) : Sound s (playPort n s) := by
  unfold playPort
  exact iteInduction (motive := Sound s) (fun _ => (sound_emit _ _).after (.modPort {})) fun _ => .refl s

theorem sound_voiceTap (codec : PortNo → Speech) (line : Speech) (s : State) : Sound s (voiceTap codec line s) :=
  (Sound.eachPort sound_playPort _).after ((sound_mixTap line _).after (Sound.eachPort (sound_sendVoice codec) s))

theorem sound_portVoice (m : VoiceMsg) (n : PortNo) (s : State) : Sound s (portVoice m n s) := by
  unfold portVoice
  refine iteInduction (motive := Sound s) (fun _ => .modPort { silence := ?_ }) fun _ => .refl s
  cases timed : (s.port n).silence with
  | none => simp
  | some x => cases decide (m.stream = .intercom) <;> simp

theorem sound_voiceFrame (src : Nat) (m : VoiceMsg) (s : State) : Sound s (voiceFrame src m s) := by
  unfold voiceFrame
  split
  · exact sound_partyVoice _ _ _ _ _ s
  · split
    · exact sound_portVoice m _ s
    · exact .refl s

/-- Where no binding stands, entry to HALTED leaves the ports sound (R90, R109, R132). -/
theorem portsOk_haltPorts (ok : PortsOk s) (none : s.call.bindings = []) : PortsOk (haltPorts s) := by
  let Bare (t : State) : Prop := PortsOk t ∧ t.call.bindings = []
  have each (n : PortNo) (now : Tick) (t : State) (h : Bare t) : Bare (t.modPort n (Port.halt now)) := by
    obtain ⟨ok, none⟩ := h
    refine ⟨portsOk_iff.mpr ⟨fun m => ?_, fun b here => ?_⟩, none⟩
    · by_cases same : m = n
      · rw [same, State.port_modPort_same]
        unfold Port.halt
        split
        · next hook => simp [portOk, Port.stripped, Port.setTone, hook]
        · next hook =>
          exact portOk_toIdle (p := { t.port n with breakStart := Option.none }) now (Bool.not_eq_true _ ▸ hook)
      · rw [State.port_modPort_other _ _ same]
        exact portsOk_port ok m
    · rw [State.modPort_call, none] at here
      cases here
  have folded : ∀ (l : List PortNo) (t : State), Bare t →
      Bare (l.foldl (fun s n => s.modPort n (Port.halt s.now)) t) := by
    intro l
    induction l with
    | nil => exact fun _ h => h
    | cons n l ih => exact fun t h => ih _ (each n t.now t h)
  exact (folded s.fittedPorts s ⟨ok, none⟩).1

end

end Sys2Proof.Machine
end

section
/-! PROOFS. Sound ports along every step, and with them the start values and the bounds. -/

set_option Elab.async false

namespace Sys2Proof.Machine

open Sys2Proof

section
variable {s t : State}

/-! ## The hold controller (R28 to R46) -/

theorem sound_modHold (f : Hold → Hold) (s : State) : Sound s (s.modHold f) :=
  .apart ((s.modHold_only f).mono (by decide))

theorem sound_leaveHolding (cause : Option ClearCause) (s : State) : Sound s (leaveHolding cause s) := by
  unfold leaveHolding
  refine Sound.after (.apart ((leaveReports_only _).mono (by decide))) ((sound_modFault _ _).after ?_)
  refine Sound.after (.apart ((State.modSup_only _ _).mono (by decide))) ?_
  exact Sound.after (.apart ((abortTest_only _).mono (by decide)))
    (Sound.after (.apart ((goOff_only _).mono (by decide))) (sound_endRecord cause s))

theorem sound_enterYielding (cause : Option ClearCause) (s : State) : Sound s (enterYielding cause s) :=
  (sound_offerControl _ _ _).after ((sound_modHold _ _).after (sound_leaveHolding cause s))

theorem sound_enterHalted (code : HaltCode) (s : State) : Sound s (enterHalted code s) := by
  unfold enterHalted
  refine iteInduction (motive := Sound s) (fun _ => .refl s) fun _ => (sound_offerControl _ _ _).after fun ok => ?_
  let left : State := if s.holding then leaveHolding none s else goOff s
  have leaves : Sound s left := iteInduction (motive := Sound s) (fun _ => sound_leaveHolding _ s) fun _ =>
    .apart ((goOff_only s).mono (by decide))
  have flushed : Sound (haltCalls left) (flushAll (haltCalls left)) :=
    .apart ((flushAll_only _).mono (by decide))
  refine portsOk_haltPorts (sound_modHold _ _ (flushed (sound_haltCalls left (leaves ok)))) ?_
  rw [State.modHold_call, (flushAll_only _).call]
  rfl

theorem sound_holderRules (s : State) : Sound s (holderRules s) := by
  unfold holderRules
  split
  · exact iteInduction (motive := Sound s) (fun _ => sound_modHold _ s) fun _ => .refl s
  · exact sound_modHold _ s
  · exact sound_modHold _ s
  · exact sound_modHold _ s
  · exact Sound.eachPort (sound_releaseHeld false) s
  · exact .refl s

theorem sound_settleHolder (s : State) : Sound s (settleHolder s) := by
  unfold settleHolder
  exact iteInduction (motive := Sound s) (fun _ => .refl s) fun _ => (sound_holderRules _).after
    (Sound.after (.apart ((holderTiming_only _ _ _).mono (by decide))) (sound_modHold _ s))

theorem sound_eligibleRules (e : Bool) (s : State) : Sound s (eligibleRules e s) := by
  unfold eligibleRules
  split
  · exact sound_modHold _ s
  · exact sound_modHold _ s
  · exact sound_modHold _ s
  · exact sound_modHold _ s
  · exact iteInduction (motive := Sound s) (fun _ => sound_enterYielding _ s) fun _ => sound_modHold _ s
  · exact .refl s

theorem sound_settleEligible (s : State) : Sound s (settleEligible s) := by
  unfold settleEligible
  exact iteInduction (motive := Sound s) (fun _ => .refl s) fun _ => (sound_eligibleRules _ _).after (sound_modHold _ s)

theorem sound_settleDegraded (s : State) : Sound s (settleDegraded s) := by
  unfold settleDegraded
  exact iteInduction (motive := Sound s) (fun _ => sound_enterYielding _ s) fun _ => .refl s

theorem sound_listenTimeout (s : State) : Sound s (listenTimeout s) := by
  unfold listenTimeout
  exact iteInduction (motive := Sound s) (fun _ => (Sound.eachPort (sound_releaseHeld true) _).after
    (iteInduction (motive := Sound s) (fun _ => sound_modHold _ s) fun _ => sound_modHold _ s)) fun _ => .refl s

theorem sound_keeperRule (src : Nat) (h : Coded HoldState) (m : BeaconMsg) (s : State) :
    Sound s (keeperRule src h m s) := by
  unfold keeperRule
  exact iteInduction (motive := Sound s) (fun _ => sound_enterYielding _ s) fun _ => .refl s

theorem sound_rankClash (tie : Option (BitVec 16)) (s : State) : Sound s (rankClash tie s) := by
  have clash := sound_setCond .rankClash true s
  unfold rankClash
  dsimp only
  split
  · exact iteInduction (motive := Sound s) (fun _ => clash) fun _ => iteInduction (motive := Sound s)
      (fun _ => (sound_enterHalted _ _).after clash) fun _ => iteInduction (motive := Sound s)
        (fun _ => Sound.after (.apart ((State.drew_only _).mono (by decide))) ((sound_modHold _ _).after clash)) fun _ => clash
  · exact clash

theorem sound_holdTap (s : State) : Sound s (holdTap s) := by
  have aged := (sound_settleHolder _).after (.apart ((ageRoster_only false s).mono (by decide)))
  unfold holdTap
  exact iteInduction (motive := Sound s) (fun _ => aged) fun _ =>
    Sound.after (.apart ((queueBeacon_only _).mono (by decide))) aged

theorem sound_holdTap10 (s : State) : Sound s (holdTap10 s) := by
  have aged := (sound_settleHolder _).after (.apart ((ageRoster_only true s).mono (by decide)))
  unfold holdTap10
  exact iteInduction (motive := Sound s) (fun _ => (sound_offerControl _ _ _).after aged) fun _ => aged

/-! ## The end of a command (log 9) -/

theorem sound_requestDropped (k : RequestKind) (tag : Nat) (n : PortNo) (s : State) :
    Sound s (requestDropped k tag n s) := by
  unfold requestDropped
  split
  · next request => exact iteInduction (motive := Sound s) (fun _ => sound_requestFailed request) fun _ => .refl s
  · exact .refl s

theorem sound_droppedNotice (s : State) (b : Body) : Sound s (droppedNotice s b) := by
  unfold droppedNotice
  split
  · exact iteInduction (motive := Sound s) (fun _ => sound_modHold _ s) fun _ => .refl s
  · exact iteInduction (motive := Sound s) (fun _ => .apart ((yieldDone_only s).mono (by decide))) fun _ => .refl s
  · exact Sound.eachPort (sound_requestDropped _ _) s
  · exact .refl s

theorem sound_clearNotices (s : State) : Sound s (clearNotices s) := .apart ((clearNotices_only s).mono (by decide))

theorem sound_finish (s : State) : Sound s (finish s) := by
  have first : Sound s (settleFirst s) :=
    ((Sound.foldl sound_droppedNotice _ _).after (sound_clearNotices _)).after ((sound_settleHolder _).after
      ((sound_settleDegraded _).after (sound_settleEligible s)))
  have middle : Sound (settleFirst s) (settleMiddle (settleFirst s)) :=
    Sound.after (.apart ((settleIdle_only _).mono (by decide))) (Sound.after
      (.apart ((settleConds_only _).mono (by decide))) (.apart ((settleDataHead_only _).mono (by decide))))
  have reports : Sound (settleMiddle (settleFirst s))
      (startTransfer (mailboxOffer (settleReports (settleMiddle (settleFirst s))))) :=
    Sound.after (.apart ((startTransfer_only _).mono (by decide))) (Sound.after
      (.apart ((mailboxOffer_only _).mono (by decide))) (.apart ((settleReports_only _).mono (by decide))))
  rw [finish_eq]
  refine (sound_clearNotices _).after ((sound_settleTones _).after ?_)
  refine Sound.after (.apart ((settleLamp_only _).mono (by decide))) ?_
  exact (sound_modRecord _ _).after ((sound_startOutpulse _).after (reports.after (middle.after first)))

theorem sound_openWindow (s : State) : Sound s (openWindow s) := by
  have ended := (sound_modFault (fun m => { m with gaspRecord := some (gaspRecord s) }) _).after
    (Sound.after (.apart ((abortTest_only _).mono (by decide))) (sound_endRecord none s))
  unfold openWindow
  exact Sound.after (.apart ((State.modPower_only _ _).mono (by decide))) (iteInduction (motive := Sound s)
    (fun _ => Sound.after (.apart ((offerGasp_only _ _ _).mono (by decide))) ended) fun _ => ended)

theorem sound_collided (s : State) : Sound s (collided s) := by
  unfold collided
  split
  · next c e _ =>
    have kept : Sound s (closeFront (gaspDropped e ((collideFrame c e s).modWire fun w =>
        { w with collided := w.collided + 1 }))) :=
      Sound.after (.apart ((closeFront_only _).mono (by decide))) (Sound.after
        (.apart ((gaspDropped_only e _).mono (by decide))) (Sound.after
          (.apart ((State.modWire_only _ _).mono (by decide))) (.apart ((collideFrame_only c e s).mono (by decide)))))
    exact iteInduction (motive := Sound s) (fun _ => (sound_enterHalted _ _).after kept) fun _ => kept
  · exact .refl s

/-! ## What the blocks take -/

theorem sound_handOut (owed : Taps → Bool) (taken : Taps → Taps) {f : State → State} (each : ∀ t, Sound t (f t))
    (s : State) : Sound s (handOut owed taken f s) := by
  unfold handOut
  exact iteInduction (motive := Sound s)
    (fun _ => (each _).after (.apart ((s.modTaps_only taken).mono (by decide)))) fun _ => .refl s

theorem sound_tapOne (s : State) : Sound s (tapOne s) :=
  Sound.after (.apart ((holdTimeTap_only _).mono (by decide))) (sound_holdTap s)

theorem sound_tapSlow (s : State) : Sound s (tapSlow s) :=
  Sound.after (.apart ((testTap_only _).mono (by decide))) ((sound_holdTap10 _).after
    (Sound.after (.apart ((supTap_only _).mono (by decide))) (Sound.after (.apart ((noiseTap_only _).mono (by decide)))
      (.apart ((wireTap_only s).mono (by decide))))))

theorem serve_only (q : SvcReq) (s : State) : Only [.hold, .fault, .svc, .outs] s (serve takeRunning q s) := by
  unfold serve
  exact iteInduction (motive := Only _ s) (fun _ => (State.modSvc_only _ s).mono (by decide)) fun _ =>
    takeRunning_only q s

theorem serveNext_only (s : State) : Only [.hold, .fault, .svc, .outs] s (serveNext takeRunning s) := by
  unfold serveNext
  split
  · exact iteInduction (motive := Only _ s)
      (fun _ => (takeRunning_only _ _).after ((State.modSvc_only _ s).mono (by decide)) (by decide)) fun _ =>
      (respond_only _ _).after ((State.modSvc_only _ s).mono (by decide)) (by decide)
  · exact (State.modSvc_only _ s).mono (by decide)

theorem sound_action {f : State → State} (taken : Action f) (s : State) : Sound s (f s) := by
  have window (b : Bool) (n : SlotName) : Sound s (if b then refreshWindow n s else s) :=
    iteInduction (motive := Sound s) (fun _ => .apart ((refreshWindow_only n s).mono (by decide))) fun _ => .refl s
  have struck (b : Bool) : Sound s (if b then impulse s else s) :=
    iteInduction (motive := Sound s) (fun _ => .apart ((impulse_only s).mono (by decide))) fun _ => .refl s
  have part (b : Bool) : Sound s (if b then nextPart s else s) :=
    iteInduction (motive := Sound s) (fun _ => sound_modRecord _ s) fun _ => .refl s
  cases taken with
  | same => exact .refl s
  | mainsFall => exact .apart ((mainsFall_only s).mono (by decide))
  | mainsRise => exact .apart ((mainsRise_only s).mono (by decide))
  | idleExpiry => exact .apart ((idleExpiry_only s).mono (by decide))
  | rejoinExpiry => exact .apart ((rejoinExpiry_only s).mono (by decide))
  | settleExpiry => exact .apart ((settleExpiry_only s).mono (by decide))
  | tap10ms a b l => exact sound_handOut _ _ (sound_voiceTap _ _) s
  | tap1s => exact sound_handOut _ _ sound_tapOne s
  | tap10s => exact sound_handOut _ _ sound_tapSlow s
  | carrierUp => exact .apart ((carrierUp_only s).mono (by decide))
  | contend => exact Sound.after (.apart ((contend_only _).mono (by decide))) (.apart ((dropRx_only s).mono (by decide)))
  | slotBegin slot => exact .apart ((slotBegin_only slot s).mono (by decide))
  | transmissionEnd => exact .apart ((transmissionEnd_only s).mono (by decide))
  | collided => exact sound_collided s
  | windowOpen n => exact window _ n
  | windowClose n => exact window _ n
  | voiceDeadline => exact .apart ((s.modWire_only _).mono (by decide))
  | packetReceive f => exact .apart ((packetReceive_only f s).mono (by decide))
  | impulseDetect => exact struck _
  | burst => exact struck _
  | captureExpiry n => exact .apart ((captureExpiry_only n s).mono (by decide))
  | refreshExpiry n => exact .apart ((refreshExpiry_only n s).mono (by decide))
  | noHolderTimeout => exact .apart ((noHolderTimeout_only s).mono (by decide))
  | listenTimeout => exact sound_listenTimeout s
  | claimFollowTimeout => exact .apart ((claimFollowTimeout_only s).mono (by decide))
  | deferralEnd => exact .apart ((deferralEnd_only s).mono (by decide))
  | contestEnd => exact .apart ((contestEnd_only s).mono (by decide))
  | readyChange old new => exact .apart ((readyChange_only old new s).mono (by decide))
  | readyTimerExpiry => exact .apart ((readyTimerExpiry_only s).mono (by decide))
  | syncRise => exact .apart ((syncRise_only s).mono (by decide))
  | syncFall => exact .apart ((syncFall_only s).mono (by decide))
  | trainingTimeout => exact .apart ((trainingTimeout_only s).mono (by decide))
  | graceTimeout => exact .apart ((graceTimeout_only s).mono (by decide))
  | backoffWaitEnd => exact .apart ((backoffWaitEnd_only s).mono (by decide))
  | transferEnd => exact .apart ((transferEnd_only s).mono (by decide))
  | downstreamFrame began f => exact .apart ((downstreamFrame_only began f s).mono (by decide))
  | mailboxDelivered => exact .apart ((mailboxDelivered_only s).mono (by decide))
  | mailboxRefused => exact .apart ((mailboxRefused_only s).mono (by decide))
  | mailboxTimeout => exact .apart ((mailboxTimeout_only s).mono (by decide))
  | hookFall n => exact sound_hookFall n s
  | hookRise n => exact sound_hookRise n s
  | onHook n => exact sound_onHookEvent n s
  | pulseCountClose n => exact sound_pulseCountClose n s
  | toneDigit n k => exact sound_toneDigit n k s
  | firstDigitTimeout n => exact sound_firstDigitTimeout n s
  | portDigitTimeout n => exact sound_portDigitTimeout n s
  | requestTimeout n => exact sound_requestTimeout n s
  | ringBurst => exact sound_ringBurst s
  | ringingEnd => exact sound_ringingEnd s
  | ringDriveTimeout n => exact sound_ringDriveTimeout n s
  | intercomCadence n => exact sound_intercomCadence n s
  | offerRingTimeout n => exact sound_offerRingTimeout n s
  | ringBackTimeout n => exact sound_ringBackTimeout n s
  | holderSilence n => exact sound_holderSilence n s
  | farSilence n => exact sound_farSilence n s
  | howlerTimeout n => exact sound_howlerTimeout n s
  | toneCadence n => exact sound_toneCadence n s
  | seizeTimeout => exact sound_seizeTimeout s
  | currentRise => exact sound_currentRise s
  | lossTimeout => exact sound_lossTimeout s
  | partySilence st po => exact sound_partySilence st po s
  | breakEnd => exact part _
  | makeEnd => exact part _
  | pauseEnd => exact part _
  | testStepEnd out => exact .apart ((testStepEnd_only out s).mono (by decide))
  | receiptTimeout => exact .apart ((receiptTimeout_only s).mono (by decide))
  | lampCadence => exact .apart ((lampCadence_only s).mono (by decide))
  | serve q => exact .apart ((serve_only q s).mono (by decide))
  | serveNext => exact .apart ((serveNext_only s).mono (by decide))

theorem sound_modPeer (id : Nat) (f : Peer → Peer) (s : State) : Sound s (modPeer id f s) :=
  .apart ((modPeer_only id f s).mono (by decide))

theorem sound_takeTracks (src : Nat) (start : Tick) (ms : List TrackMsg) (s : State) :
    Sound s (takeTracks src start ms s) := .apart ((takeTracks_only src start ms s).mono (by decide))

theorem sound_contents (c : Instr) (start : Tick) (s : State) : Sound s (contents c start s) := by
  unfold contents
  split
  · exact (sound_keeperRule _ _ _ _).after ((sound_takeTracks _ _ _ _).after (sound_modPeer _ _ s))
  · exact .apart ((claimHeard_only _ _ s).mono (by decide))
  · exact Sound.after (.apart ((yieldProfile_only _ _).mono (by decide))) (sound_takeTracks _ _ _ s)
  · next h m =>
    have gasped : Sound s (takeGasp m.record (modPeer h.src Peer.gasped s)) :=
      Sound.after (.apart ((takeGasp_only _ _).mono (by decide))) (sound_modPeer _ _ s)
    exact iteInduction (motive := Sound s) (fun _ => Sound.after (.apart ((adoptProfile_only _ _).mono (by decide)))
      ((sound_takeTracks _ _ _ _).after gasped)) fun _ => gasped
  · exact sound_modPeer _ _ s
  · exact sound_requestFrame _ _ _ s
  · exact sound_requestFrame _ _ _ s
  · exact sound_takeLeave _ _ _ s
  · exact sound_offerFrame _ _ s
  · exact sound_acceptFrame _ _ s
  · exact sound_endFrame _ _ s
  · exact sound_replyFrame _ _ s
  · next m =>
    cases portOf m.port with
    | none => exact .refl s
    | some n => exact sound_takeClear n _ _ s
  · exact sound_dialFrame _ _ s
  · exact sound_voiceFrame _ _ s
  · exact .apart ((reportFrame_only _ _ s).mono (by decide))
  · exact .apart ((judgeReceipt_only _ _ s).mono (by decide))
  · exact .apart ((dataFrame_only _ _ _ s).mono (by decide))
  · exact .refl s

/-- A frame from the holder of a call restarts the silence timers that run (R102). -/
theorem sound_heardFrame (src : Nat) (start : Tick) (h : Coded HoldState) (s : State) :
    Sound s (heardFrame src start h s) := by
  refine .stays (fun n => ?_) rfl
  have fed : (heardFrame src start h s).port n = feedHolder src s.now (s.port n) := by cases n <;> rfl
  have timer := feedHolder_silence_isSome src s.now (s.port n)
  obtain ⟨x, e⟩ := feedHolder_eq src s.now (s.port n)
  rw [e] at timer
  rw [fed, e]
  exact { silence := by rw [← Option.not_isSome, ← Option.not_isSome]; exact congrArg _ timer }

/-! ## Starts -/

theorem portsOk_atStart (levels : Pins) (d : Nat) (q : List Instr) : PortsOk (State.atStart levels d q) :=
  ⟨rfl, rfl, rfl⟩

theorem sound_powered (s : State) : Sound s (powered s) := by
  have live : Sound s (goLive ({ s with phase := .running }.modPower fun p =>
      { p with state := firstPower s.pins })) :=
    Sound.after (.apart ((goLive_only _).mono (by decide))) (.same rfl rfl)
  unfold powered
  exact (sound_modHold _ _).after (iteInduction (motive := Sound s)
    (fun _ => Sound.after (.apart ((pwrOn_only _).mono (by decide))) live) fun _ => live)

theorem sound_complete (code : Option HaltCode) (s : State) : Sound s (complete code s) := by
  rw [complete_powered]
  cases code with
  | none => exact (sound_modHold _ _).after (sound_powered s)
  | some c => exact (sound_enterHalted c _).after (sound_powered s)

theorem sound_startHook (n : PortNo) (s : State) : Sound s (startHook n s) := by
  unfold startHook
  exact iteInduction (motive := Sound s) (fun _ => sound_offHook n s) fun _ => .refl s

theorem sound_configRead (r : ConfigRead) (i : Bool) (s : State) : Sound s (configRead r i s) := by
  have quiet : Sound s s.quiet := .apart (s.quiet_only.mono (by decide))
  unfold configRead
  refine iteInduction (motive := Sound s) (fun _ => ?_) fun _ => quiet
  have done : Sound s (complete (startCode s.straps.modem (readConfig r).2 i) (takeConfig (readConfig r).1 i s.quiet)) :=
    (sound_complete _ _).after (.same rfl rfl)
  exact iteInduction (motive := Sound s)
    (fun _ => (sound_clearNotices _).after ((sound_openWindow _).after ((sound_finish _).after done))) fun _ =>
      (sound_finish _).after ((Sound.eachPort sound_startHook _).after done)

theorem invariant_portsOk : Invariant PortsOk where
  loose only := Sound.apart (only.mono (by decide))
  action {_} taken {s} h := ⟨(keeps_action taken s).phase.trans h.1, sound_action taken s h.2⟩
  finish {s} h := sound_finish s h.2
  dropRx {s} := Sound.apart ((dropRx_only s).mono (by decide))
  noneLate {s} := Sound.apart ((s.modSup_only _).mono (by decide))
  countError {s} h := Sound.apart ((countError_only s).mono (by decide)) h.2
  clearNotices {s} := sound_clearNotices s
  outlivedEnd count {s} := Sound.apart ((outlivedEnd_only count s).mono (by decide))
  stopping {s} h := sound_openWindow _ (Sound.apart ((enterStop_only s).mono (by decide)) h.2)
  configured r i {s} _ := sound_configRead r i s
  start := portsOk_atStart
  stopped {s} _ := portsOk_atStart s.pins s.draws s.pending
  restart straps {s} _ := portsOk_atStart { s.pins with straps := straps } s.draws s.pending

theorem dispatch_portsOk (c : Instr) : DispatchKeeps PortsOk c := by
  intro h hc start t holds
  refine ⟨(dispatch_startsSound c h hc start t ⟨holds.1, startsSound_running holds.1⟩).1, ?_⟩
  unfold dispatch
  refine iteInduction (motive := PortsOk) (fun _ => sound_rankClash _ t holds.2) fun _ => ?_
  have settled := sound_settleHolder _ (sound_heardFrame h.src start (heardHold c h.hold) t holds.2)
  exact iteInduction (motive := PortsOk) (fun _ => sound_contents c start _ settled) fun _ => settled

theorem step_portsOk (h : PortsOk s) (run : step s = .next t) : PortsOk t :=
  invariant_portsOk.step dispatch_portsOk h run

/-- Settles O58. -/
theorem boundsKept : Obligations.BoundsKept :=
  ⟨fun _ _ => step_starting, fun _ _ => step_queueBounds, fun _ _ => step_tracksOk, fun _ _ => step_recordOk,
    fun _ _ => step_listBounds, fun _ _ => step_portsOk⟩

end

end Sys2Proof.Machine
end

section
/-! PROOFS. The service port's answers (R150, R181, R182): a picture leaves a settled station as it is, a line test
writes the test alone, and a FORGET may end PEER_LOST. -/

set_option Elab.async false

namespace Sys2Proof.Machine

open Sys2Proof

section
variable {s t : State} {c : Instr} {q : SvcReq} {r : SvcResp}

/-! ## Outputs stay -/

theorem outs_startTransfer (s : State) : s.outs <+: (startTransfer s).outs := by
  unfold startTransfer
  split
  · split
    · exact List.prefix_append _ _
    · exact List.prefix_rfl
  · exact List.prefix_rfl

theorem outs_mailboxOffer (s : State) : s.outs <+: (mailboxOffer s).outs := by
  unfold mailboxOffer
  split
  · split
    · exact List.prefix_append _ _
    · exact List.prefix_rfl
  · exact List.prefix_rfl

/-- The rules after the notices say nothing but what the supervisor offers and sends. -/
theorem outs_settleRest (s : State) : s.outs <+: (settleRest s).outs := by
  have reports : (settleReports (settleMiddle s)).outs = s.outs :=
    (settleReports_only _).outs.trans (settleMiddle_only s).outs
  have last : (settleRest s).outs = (startTransfer (mailboxOffer (settleReports (settleMiddle s)))).outs :=
    (clearNotices_only _).outs.trans ((settleTones_only _).outs.trans ((settleLamp_only _).outs.trans
      ((settleLoss_only _).outs.trans (startOutpulse_only _).outs)))
  rw [last, ← reports]
  exact (outs_mailboxOffer _).trans (outs_startTransfer _)

/-! ## Requests at a settled station -/

theorem calm_respond (r : SvcResp) (calm : Calm s) : Calm (respond r s) := calm

/-- A request that finds no response in progress is taken at once. -/
theorem request_calm (calm : Calm s) (free : s.svc.sending = none) :
    request q s = finish (takeRunning q s.quiet) := by
  have starting : s.phase ≠ .startUp := by rw [Calm.running calm]; nofun
  have took : serve takeRunning q s.quiet = takeRunning q s.quiet := if_neg (by simp [State.quiet, free])
  rw [request, if_neg starting, running_active (Calm.active calm), took]

/-- A request answered without any other effect. -/
theorem answers_respond {P : State → Prop} (calm : Calm s) (free : s.svc.sending = none)
    (run : exec c s = .next (request q s)) (took : takeRunning q s.quiet = respond r s.quiet)
    (read : (respond r s.quiet).outs = [.response r] → Only [.svc, .outs] s (respond r s.quiet) →
      P (respond r s.quiet)) : Answers c s P := by
  have quiet : Calm (respond r s.quiet) := calm_respond r (s := s.quiet) calm
  refine answers_of run ?_
  rw [request_calm calm free, took, finish_of_calm quiet]
  exact read rfl ((respond_only _ _).after ((State.quiet_only s).mono (by decide)) (by decide))

/-! ## LINE-TEST and FORGET -/

theorem recentBurst_eq (s : State) : recentBurst s = s.fault.lastBurst.any fun b =>
    decide (0 ≤ elapsed s.now b) && decide (elapsed s.now b ≤ 400000) := by
  unfold recentBurst
  cases s.fault.lastBurst <;> rfl

theorem lineTest_answers (calm : Calm s) (free : s.svc.sending = none) : Answers .lineTest s fun t =>
    if s.holding = false then t.outs = [.response (.refused .lineTest .notHolder)] ∧ Only [.svc, .outs] s t
    else if s.fault.test.isSome = true then
      t.outs = [.response (.refused .lineTest .busy)] ∧ Only [.svc, .outs] s t
    else if s.call.record.isSome = true ∨ (s.fault.lastBurst.any fun b =>
        decide (0 ≤ elapsed s.now b) && decide (elapsed s.now b ≤ 400000)) = true then
      t.outs = [.response (.refused .lineTest .lineInUse)] ∧ Only [.svc, .outs] s t
    else t.outs = [.response (.accepted .lineTest)] ∧ t.fault.test = some ⟨1, [], s.now⟩ ∧
      Only [.svc, .fault, .outs] s t := by
  have refused (why : SvcReason) (refusal : testRefusal s = some why) :
      takeRunning .lineTest s.quiet = respond (.refused .lineTest why) s.quiet := by
    have same : testRefusal s.quiet = some why := refusal
    rw [takeRunning, same]
  by_cases away : s.holding = false
  · simp only [if_pos away]
    exact answers_respond calm free rfl (refused _ (by simp [testRefusal, away])) .intro
  have holding : s.holding = true := by simpa using away
  by_cases busy : s.fault.test.isSome = true
  · simp only [if_neg away, if_pos busy]
    exact answers_respond calm free rfl (refused _ (by simp [testRefusal, holding, busy])) .intro
  simp only [if_neg away, if_neg busy, ← recentBurst_eq]
  by_cases used : s.call.record.isSome = true ∨ recentBurst s = true
  · simp only [if_pos used]
    exact answers_respond calm free rfl (refused _ (by simp [testRefusal, holding, busy, used])) .intro
  · simp only [if_neg used]
    have refusal : testRefusal s.quiet = none := by
      show testRefusal s = none
      simp [testRefusal, holding, busy, used]
    have took : takeRunning .lineTest s.quiet = respond (.accepted .lineTest) (startTest s.quiet) := by
      rw [takeRunning, refusal]
    have quiet : Calm (respond (.accepted .lineTest) (startTest s.quiet)) := calm
    refine answers_of rfl ?_
    rw [request_calm calm free, took, finish_of_calm quiet]
    exact ⟨rfl, rfl, (respond_only _ _).after ((State.modFault_only _ _).after
      ((State.quiet_only s).mono (by decide)) (by decide)) (by decide)⟩

/-- The set of lost stations after a FORGET. -/
def lostAfter (id : Nat) (s : State) : List Nat :=
  if id = 0 then [] else s.hold.lost.filter fun i => decide (i ≠ id)

/-- FORGET at a settled station: the lost set is as asked, PEER_LOST follows it, and the roster stays. -/
theorem finish_forget {id : Nat} (calm : Calm s) (known : id ≤ 8) :
    (finish (forget id s)).hold = { s.hold with lost := lostAfter id s } ∧
      (finish (forget id s)).cond .peerLost = !(lostAfter id s).isEmpty ∧
      .response (.accepted (.forget id)) ∈ (finish (forget id s)).outs := by
  have eq : forget id s =
      respond (.accepted (.forget id)) (s.modHold fun h => { h with lost := lostAfter id s }) :=
    if_neg (Nat.not_lt.mpr known)
  have f := Calm.first calm
  have first : FirstSettled (forget id s) := by
    rw [eq]
    exact .of_none f.eligible f.degraded f.holder (Calm.dropped (s := s) calm)
  have up : StaysUp (forget id s) := by
    rw [eq]
    exact staysUp_congr (staysUp_of_calm calm) rfl rfl rfl rfl
  have head : headSettled (clearNotices (forget id s)) = true := by rw [eq]; exact (Calm.rest calm).head
  refine ⟨(finish_kept first up).1.trans (by rw [eq]; rfl), ?_, ?_⟩
  · rw [finish_eq, settleFirst_of first, settleRest_cond (s := clearNotices (forget id s)) up,
      settleDataHead_of head, eq]
    rfl
  · rw [finish_eq, settleFirst_of first]
    refine (outs_settleRest _).subset ?_
    rw [(clearNotices_only _).outs, eq]
    exact List.mem_append_right _ (List.mem_singleton.mpr rfl)

theorem forget_answers (id : Nat) (calm : Calm s) (free : s.svc.sending = none) : Answers (.forget id) s fun t =>
    (8 < id → .response (.refused (.forget id) .unknown) ∈ t.outs ∧ t.hold.lost = s.hold.lost) ∧
    (id ≤ 8 → .response (.accepted (.forget id)) ∈ t.outs) ∧
    (id = 0 → t.hold.lost = [] ∧ t.cond .peerLost = false) ∧
    (1 ≤ id → id ≤ 8 → t.hold.lost = (s.hold.lost.filter fun i => decide (i ≠ id)) ∧
      t.cond .peerLost = !t.hold.lost.isEmpty) ∧ t.hold.roster = s.hold.roster := by
  by_cases known : id ≤ 8
  · refine answers_of rfl ?_
    rw [request_calm calm free, takeRunning]
    obtain ⟨hold, lost, said⟩ := finish_forget (s := s.quiet) calm known
    rw [hold]
    refine ⟨fun above => absurd above (Nat.not_lt.mpr known), fun _ => said, fun zero => ?_, fun least _ => ?_, rfl⟩
    · have none : lostAfter id s.quiet = [] := if_pos zero
      rw [lost, none]
      exact ⟨rfl, rfl⟩
    · have rest : lostAfter id s.quiet = s.hold.lost.filter fun i => decide (i ≠ id) :=
        if_neg (Nat.one_le_iff_ne_zero.mp least)
      exact ⟨rest, lost⟩
  · have above : 8 < id := Nat.not_le.mp known
    refine answers_respond calm free rfl (if_pos above) fun outs only => ?_
    rw [outs, only.hold]
    exact ⟨fun _ => ⟨List.mem_singleton.mpr rfl, rfl⟩, fun few => absurd few known,
      fun zero => absurd zero (by omega), fun _ few => absurd few known, rfl⟩

end

/-! ## O55 -/

theorem statusPic_eq (s : State) : statusPic s = {
    id := s.straps.id, modem := s.straps.modem, fromMemory := s.cfg.fromMemory, startNumber := s.power.startNumber
    now := s.now, power := s.power.state, hold := s.hold.state, halt := s.hold.halt, known := s.hold.known
    eligible := s.hold.eligible, sup := s.sup.state, stored := s.sup.stored, inUse := s.sup.inUse
    broadband := decide (s.sup.state = .synced), holdTime := s.sup.holdTime, conds := s.fault.conds
    lamp := s.fault.lamp
    ports := s.fittedPorts.map fun n => ⟨(s.port n).state, (s.port n).lastCause, (s.port n).lastRef⟩
    test := s.fault.test, due := s.fault.due
    reportLength := if s.hold.state = .holding then some s.report.queue.length else none
    outstanding := s.report.outstanding } := by
  simp only [statusPic, State.holding, decide_eq_true_eq]
  rfl

theorem callsResp_eq (s : State) : callsResp s = .calls
    (if s.hold.state = .holding then s.call.record.map fun r =>
      { id := r.id, seized := r.seized, priv := r.priv, parties := r.parties.map fun p => (p.station, p.port)
        outpulse := r.queue.length }
    else none)
    s.call.lastId s.call.bindings (s.fittedPorts.map fun n => ((s.port n).callRef, (s.port n).pending)) := by
  simp only [callsResp, State.holding, decide_eq_true_eq]
  rfl

/-- Settles O55: no response changes anything a level rule reads, a line test writes the test alone, and after FORGET
only PEER_LOST is left to settle. -/
theorem requestsAnswered : Obligations.RequestsAnswered := by
  unfold Obligations.RequestsAnswered
  refine ⟨fun s calm free => ⟨?_, ?_, ?_, ?_, ?_, fun name => ?_⟩, fun s calm free =>
    ⟨lineTest_answers calm free, fun id => forget_answers id calm free, ?_⟩⟩
  · rw [← statusPic_eq]
    exact answers_respond calm free rfl rfl .intro
  · exact answers_respond calm free rfl rfl .intro
  · exact answers_respond calm free rfl rfl .intro
  · exact answers_respond calm free rfl rfl .intro
  · rw [← callsResp_eq]
    exact answers_respond calm free rfl rfl .intro
  · exact answers_respond calm free rfl rfl .intro
  · have quiet : Calm (askRestart s.quiet) := calm
    refine answers_of rfl ?_
    rw [request_calm calm free, takeRunning, finish_of_calm quiet]
    exact ⟨rfl, rfl, (State.modSvc_only _ _).after ((respond_only _ _).after
      ((State.quiet_only s).mono (by decide)) (by decide)) (by decide)⟩

end Sys2Proof.Machine
end

section
/-! PROOFS. The modem supervisor (R70 to R77): what the end of a command keeps of READY and of the supervisor, and its
events one by one. -/

set_option Elab.async false

namespace Sys2Proof.Machine

open Sys2Proof

section
variable {s t u w : State} {c : Instr}

/-! ## The READY timer and MODEM_ABSENT through the end of a command (R70) -/

/-- The READY timer and MODEM_ABSENT are as they were. -/
structure ReadyKept (s t : State) : Prop where
  timer : t.sup.readyTimer = s.sup.readyTimer
  absent : t.cond .modemAbsent = s.cond .modemAbsent

theorem ReadyKept.refl (s : State) : ReadyKept s s := ⟨rfl, rfl⟩

theorem ReadyKept.trans (h : ReadyKept s t) (k : ReadyKept t u) : ReadyKept s u :=
  ⟨k.timer.trans h.timer, k.absent.trans h.absent⟩

theorem ReadyKept.of_eq (sup : t.sup = s.sup) (fault : t.fault = s.fault) : ReadyKept s t :=
  ⟨by rw [sup], by rw [State.cond, State.cond, fault]⟩

theorem Steady.readyKept (h : Steady s t) : ReadyKept s t := .of_eq h.only.sup h.only.fault

theorem readyKept_setCond {c : Cond} (b : Bool) (other : c ≠ .modemAbsent) (s : State) :
    ReadyKept s (setCond c b s) :=
  ⟨congrArg Sup.readyTimer (setCond_only c b s).sup, setCond_cond_other b s other.symm⟩

theorem readyKept_enterYielding (k : Option ClearCause) (s : State) : ReadyKept s (enterYielding k s) := by
  rw [enterYielding]
  refine ReadyKept.trans ⟨?_, ?_⟩ (.of_eq (offerControl_only _ _ _).sup (offerControl_only _ _ _).fault)
  · show (leaveHolding k s).sup.readyTimer = _
    rw [leaveHolding_sup]
    exact (goOff_sup _).2.2.1.trans (congrArg Sup.readyTimer (endRecord_only k s).sup)
  · exact congrArg (·.getLsbD (condNo .modemAbsent)) (leaveHolding_conds k s)

theorem readyKept_settleEligible (s : State) : ReadyKept s (settleEligible s) := by
  unfold settleEligible
  refine iteInduction (fun _ => .refl s) fun _ => ?_
  have noted : ReadyKept s (s.modHold fun h => { h with eligible := s.eligibleNow }) := .of_eq rfl rfl
  refine noted.trans ?_
  generalize s.modHold (fun h => { h with eligible := s.eligibleNow }) = t
  unfold eligibleRules
  split
  · exact .of_eq rfl rfl
  · exact .of_eq rfl rfl
  · exact .of_eq rfl rfl
  · exact .of_eq rfl rfl
  · exact iteInduction (fun _ => readyKept_enterYielding none t) fun _ => .of_eq rfl rfl
  · exact .refl t

theorem readyKept_settleDegraded (s : State) : ReadyKept s (settleDegraded s) :=
  iteInduction (fun _ => readyKept_enterYielding none s) fun _ => .refl s

theorem readyKept_holderTiming (old new : Option Nat) (s : State) : ReadyKept s (holderTiming old new s) := by
  unfold holderTiming
  split
  · exact .of_eq rfl rfl
  · have timed : ReadyKept s (s.modHold fun h => { h with noHolder := none }) := .of_eq rfl rfl
    exact timed.trans (readyKept_setCond (c := .noHolder) false nofun _)
  · exact .refl s

theorem readyKept_holderRules (s : State) : ReadyKept s (holderRules s) := by
  unfold holderRules
  split
  · exact iteInduction (fun _ => .of_eq rfl rfl) fun _ => .refl s
  · exact .of_eq rfl rfl
  · exact .of_eq rfl rfl
  · exact .of_eq rfl rfl
  · next state _ => exact (steady_eachRelease false (by rw [State.holding, state]; rfl)).readyKept
  · exact .refl s

theorem readyKept_settleHolder (s : State) : ReadyKept s (settleHolder s) := by
  have noted : ReadyKept s (s.modHold fun h => { h with known := s.computeHolder }) := .of_eq rfl rfl
  exact iteInduction (fun _ => .refl s) fun _ =>
    noted.trans ((readyKept_holderTiming _ _ _).trans (readyKept_holderRules _))

theorem readyKept_droppedNotice (s : State) (b : Body) : ReadyKept s (droppedNotice s b) := by
  unfold droppedNotice
  split
  · exact iteInduction (fun _ => .of_eq rfl rfl) fun _ => .refl s
  · refine iteInduction (fun _ => ?_) fun _ => .refl s
    exact iteInduction (fun _ => .of_eq rfl rfl) fun _ => .of_eq rfl rfl
  · exact (steady_eachPort (fun n t => steady_requestDropped _ _ n t) s).readyKept
  · exact .refl s

theorem readyKept_settleNotices (s : State) : ReadyKept s (settleNotices s) := by
  have cleared : ReadyKept s (s.modWire fun w => { w with dropped := [] }) := .of_eq rfl rfl
  unfold settleNotices
  refine cleared.trans ?_
  generalize s.modWire (fun w => { w with dropped := [] }) = t
  generalize s.wire.dropped = l
  induction l generalizing t with
  | nil => exact .refl t
  | cons b l ih => exact (readyKept_droppedNotice t b).trans (ih _)

/-- The supervisor through the rules after the notices, but for what it offers, sends and queues. -/
theorem readyTimer_settleRest (s : State) : (settleRest s).sup.readyTimer = s.sup.readyTimer := by
  have middle : (settleMiddle s).sup = (settleDataHead s).sup :=
    (settleIdle_only _).sup.trans (settleConds_only _).sup
  have last : (settleRest s).sup = (startTransfer (mailboxOffer (settleReports (settleMiddle s)))).sup :=
    (clearNotices_only _).sup.trans ((settleTones_only _).sup.trans ((settleLamp_only _).sup.trans
      ((settleLoss_only _).sup.trans (startOutpulse_only _).sup)))
  rw [last, (supKept_startTransfer _).readyTimer, (supKept_mailboxOffer _).readyTimer, (settleReports_only _).sup,
    middle, (supKept_settleDataHead s).readyTimer]

theorem readyKept_settleRest (s : State) : ReadyKept s (settleRest s) :=
  ⟨readyTimer_settleRest s, settleRest_cond_other s rfl⟩

theorem readyKept_finish (s : State) : ReadyKept s (finish s) := by
  rw [finish_eq, settleFirst]
  exact (readyKept_settleEligible s).trans <| (readyKept_settleDegraded _).trans <|
    (readyKept_settleHolder _).trans <| (readyKept_settleNotices _).trans (readyKept_settleRest _)

/-! ## The level of an input that no level rule reads -/

/-- READY and SYNC told, with the outputs of the command before gone. -/
def modemTold (ready sync : Bool) (s : State) : State :=
  { s with pins := { s.pins with ready := ready, sync := sync }, outs := [] }

theorem modemTold_only (ready sync : Bool) (s : State) : Only [.pins, .outs] s (modemTold ready sync s) :=
  ((State.quiet_only _).mono (by decide)).trans
    ((State.tell_only (fun p => { p with ready := ready, sync := sync }) s.quiet).mono (by decide))

theorem calm_modemTold {ready sync : Bool} (calm : Calm s) : Calm (modemTold ready sync s) := by
  unfold modemTold
  have first := calm.first
  have rest := calm.rest
  exact calm_of calm.active (.of_none first.eligible first.degraded first.holder calm.dropped) calm.dropped
    ⟨⟨rest.head, rest.conds, rest.reports, rest.offer, rest.transfer, rest.outpulse, rest.loss, rest.lamp, rest.tones⟩,
      rest.idle⟩

/-- A command of the modem's that finds nothing to do changes the level alone. -/
theorem modemTold_still {f : State → State} {ready sync : Bool} (calm : Calm s)
    (still : f (modemTold ready sync s) = modemTold ready sync s) :
    finish (f (modemTold ready sync s)) = modemTold ready sync s := by
  rw [still, finish_of_calm (calm_modemTold calm)]

/-! ## The supervisor alone changes -/

/-- What the supervisor's events change: no level rule reads it but the transfer's and the mailbox offer's. -/
structure SupMoved (s w : State) : Prop where
  only : Only [.pins, .sup, .fault, .report, .outs] s w
  absent : w.cond .modemAbsent = s.cond .modemAbsent
  low : w.pins.battLow = s.pins.battLow

theorem SupMoved.first (h : SupMoved s w) (calm : Calm s) : FirstSettled w := by
  have f := Calm.first calm
  have only := h.only
  refine .of_none ?_ ?_ ?_ (by rw [only.wire]; exact Calm.dropped calm)
  · rw [eligibleNow_congr only.straps only.power h.absent (by rw [only.hold]), only.hold]
    exact f.eligible
  · rw [State.holding, only.hold, only.call]
    exact f.degraded
  · rw [computeHolder_congr only.straps (by rw [only.hold]) (by rw [only.hold]) (by rw [only.call]), only.hold]
    exact f.holder

theorem SupMoved.staysUp (h : SupMoved s w) (calm : Calm s) : StaysUp w :=
  staysUp_congr (staysUp_of_calm calm) h.only.power h.only.ports (by rw [h.only.hold]) h.low

/-- The supervisor through the rules after the notices: where it is SYNCED it may offer a report and begin a transfer. -/
structure SupSettled (s t : State) : Prop where
  away : s.sup.state ≠ .synced → t.sup = s.sup
  shape : ∃ m u x, t.sup = { s.sup with mailbox := m, uplink := u, upTransfer := x }

theorem SupSettled.trans (h : SupSettled s t) (k : SupSettled t u) : SupSettled s u := by
  obtain ⟨m, up, x, eq⟩ := h.shape
  obtain ⟨m', up', x', eq'⟩ := k.shape
  refine ⟨fun away => (k.away ?_).trans (h.away away), m', up', x', by rw [eq', eq]⟩
  rw [h.away away]
  exact away

theorem SupSettled.of_eq (sup : t.sup = s.sup) : SupSettled s t := ⟨fun _ => sup, _, _, _, sup⟩

theorem supSettled_mailboxOffer (s : State) : SupSettled s (mailboxOffer s) := by
  unfold mailboxOffer
  split
  · refine iteInduction (fun offers => ⟨fun away => ?_, _, _, _, rfl⟩) fun _ => .of_eq rfl
    simp [away] at offers
  · exact .of_eq rfl

theorem supSettled_startTransfer (s : State) : SupSettled s (startTransfer s) := by
  unfold startTransfer
  split
  · refine iteInduction (fun begins => ⟨fun away => ?_, _, _, _, rfl⟩) fun _ => .of_eq rfl
    simp [away] at begins
  · exact .of_eq rfl

theorem supSettled_settleRest (head : headSettled s = true) : SupSettled s (settleRest s) := by
  have middle : (settleMiddle s).sup = s.sup := by
    rw [settleMiddle, settleDataHead_of head, (settleIdle_only _).sup, (settleConds_only _).sup]
  have reports := SupSettled.of_eq ((settleReports_only (settleMiddle s)).sup.trans middle)
  have last (t : State) : SupSettled (startTransfer t) (clearNotices (settleTones (settleLamp (settleLoss
      (startOutpulse (startTransfer t)))))) :=
    .of_eq ((clearNotices_only _).sup.trans ((settleTones_only _).sup.trans ((settleLamp_only _).sup.trans
      ((settleLoss_only _).sup.trans (startOutpulse_only _).sup))))
  rw [settleRest, settleLater]
  exact reports.trans ((supSettled_mailboxOffer _).trans ((supSettled_startTransfer _).trans (last _)))

/-- The end of a command that changed the supervisor alone. -/
theorem SupMoved.finish (h : SupMoved s w) (calm : Calm s) :
    SupSettled w (finish w) ∧ ∀ c, followsLevel c = false → (Machine.finish w).cond c = w.cond c := by
  have first := h.first calm
  have head : headSettled (clearNotices w) = true :=
    (headSettled_congr (s := s) (congrArg Wire.data h.only.wire)).trans (Calm.rest calm).head
  refine ⟨?_, (finish_kept first (h.staysUp calm)).2⟩
  rw [finish_eq, settleFirst_of first]
  exact (SupSettled.of_eq (clearNotices_only w).sup).trans (supSettled_settleRest head)

end

end Sys2Proof.Machine
end

section
/-! PROOFS. The modem supervisor's events: READY, SYNC and the supervisor's timers (R70 to R77). -/

set_option Elab.async false

namespace Sys2Proof.Machine

open Sys2Proof

section
variable {s t u w : State} {c : Instr}

/-! ## The states of the supervisor (R71 to R77) -/

theorem enterSynced_sup (s : State) : (enterSynced s).sup = { s.sup with
    state := .synced, timer := none, failures := 0, step := 0, holdTime := 0, syncedAt := some s.now } :=
  (setCond_only _ _ _).sup

theorem enterSynced_absent (s : State) : (enterSynced s).cond .modemAbsent = s.cond .modemAbsent :=
  setCond_cond_other (c := .trainFail) false _ nofun

/-- The supervisor as it enters TRAINING (R71). -/
def Sup.training (tracked : Nat) (now : Tick) (u : Sup) : Sup :=
  { u with state := .training, inUse := max u.stored tracked, timer := some now }

theorem enterTraining_cases (s : State) : enterTraining s =
    if s.pins.sync then enterSynced (s.modSup (Sup.training s.noise.tracked s.now))
    else s.modSup (Sup.training s.noise.tracked s.now) := rfl

theorem enterTraining_absent (s : State) : (enterTraining s).cond .modemAbsent = s.cond .modemAbsent := by
  rw [enterTraining_cases]
  exact iteInduction (motive := fun t : State => t.cond .modemAbsent = s.cond .modemAbsent)
    (fun _ => enterSynced_absent _) fun _ => rfl

/-- What entry to TRAINING settles, with SYNC high or low (R71, R72). -/
theorem enterTraining_read (s : State) : (enterTraining s).sup.inUse = max s.sup.stored s.noise.tracked ∧
    (s.pins.sync = false → (enterTraining s).sup.timer = some s.now) := by
  rw [enterTraining_cases]
  cases s.pins.sync with
  | true =>
    rw [if_pos rfl, enterSynced_sup]
    exact ⟨rfl, nofun⟩
  | false =>
    rw [if_neg (by decide)]
    exact ⟨rfl, fun _ => rfl⟩

/-- The supervisor as it enters LOST, but for its losses (R73, R77). -/
theorem withdrawOffer_sup (s : State) : ∃ l, (withdrawOffer s).sup = { s.sup with mailbox := none, late := l } := by
  unfold withdrawOffer
  split
  · exact ⟨_, rfl⟩
  · next none_pending => exact ⟨s.sup.late, by rw [← none_pending]⟩

theorem enterLost_sup (s : State) : ∃ l ls st, (enterLost s).sup = { s.sup with
    mailbox := none, late := l, state := .lost, timer := some s.now, holdTime := 0, losses := ls, stored := st } ∧
    if (s.sup.losses.filter fun y => decide (elapsed s.now y ≤ 36000000)).length < 2 then
      ls = (s.sup.losses.filter fun y => decide (elapsed s.now y ≤ 36000000)) ++ [s.now] ∧ st = s.sup.stored
    else ls = [] ∧ st = min 3 (s.sup.stored + 1) ∧ (enterLost s).cond .syncUnstable = true := by
  obtain ⟨l, withdrawn⟩ := withdrawOffer_sup s
  have loss : withLoss s.now s.sup.losses =
      (s.sup.losses.filter fun y => decide (elapsed s.now y ≤ 36000000)) ++ [s.now] := rfl
  unfold enterLost
  dsimp only
  rw [loss, List.length_append, List.length_singleton]
  generalize (s.sup.losses.filter fun y => decide (elapsed s.now y ≤ 36000000)) = recent
  by_cases few : recent.length < 2
  · rw [if_neg (by omega)]
    refine ⟨l, recent ++ [s.now], s.sup.stored, ?_, ?_⟩
    · simp only [State.modSup_sup, withdrawn]
    · rw [if_pos few]
      exact ⟨rfl, rfl⟩
  · rw [if_pos (by omega)]
    refine ⟨l, [], min 3 (s.sup.stored + 1), ?_, ?_⟩
    · rw [(setCond_only _ _ _).sup]
      simp only [State.modSup_sup, withdrawn]
    · rw [if_neg few]
      exact ⟨rfl, rfl, setCond_cond_same _ _ _⟩

theorem enterLost_absent (s : State) : (enterLost s).cond .modemAbsent = s.cond .modemAbsent := by
  have withdrawn : (withdrawOffer s).cond .modemAbsent = s.cond .modemAbsent := by
    rw [State.cond, (withdrawOffer_only s).fault, State.cond]
  unfold enterLost
  dsimp only
  refine iteInduction (motive := fun t : State => t.cond .modemAbsent = s.cond .modemAbsent) (fun _ => ?_)
    fun _ => withdrawn
  exact (setCond_cond_other (c := .syncUnstable) (d := .modemAbsent) true _ nofun).trans withdrawn

/-! ## Events of the supervisor at a settled station -/

theorem supMoved_of {ready sync : Bool} (only : Only [.sup, .fault, .report, .outs] (modemTold ready sync s) w)
    (absent : w.cond .modemAbsent = s.cond .modemAbsent) : SupMoved s w :=
  ⟨only.after ((modemTold_only ready sync s).mono (by decide)) (by decide), absent,
    by rw [only.pins]; rfl⟩

theorem readyChange_run (level : Bool) (calm : Calm s) : exec (.readyChange level) s =
    .next (finish (readyChange s.pins.ready level (modemTold level s.pins.sync s))) :=
  congrArg Host.Outcome.next (running_active (s := s.tell fun p => { p with ready := level }) calm.active)

theorem syncRise_run (calm : Calm s) :
    exec .syncRise s = .next (finish (syncRise (modemTold s.pins.ready true s))) :=
  congrArg Host.Outcome.next (running_active (s := s.tell fun p => { p with sync := true }) calm.active)

theorem syncFall_run (calm : Calm s) :
    exec .syncFall s = .next (finish (syncFall (modemTold s.pins.ready false s))) :=
  congrArg Host.Outcome.next (running_active (s := s.tell fun p => { p with sync := false }) calm.active)

/-! ## READY (R70) -/

theorem readyChange_answers {level : Bool} (calm : Calm s) (full : s.power.state = .full)
    (modem : s.straps.modem = true) (changes : s.pins.ready ≠ level) : Answers (.readyChange level) s fun t =>
      t.pins.ready = level ∧ t.sup.readyTimer = (if level then none else some s.now) ∧
        (level = true → t.cond .modemAbsent = false) := by
  let w := modemTold level s.pins.sync s
  have powered : w.pwrEn = true := by
    have running : w.phase = .running := Calm.running calm
    simp only [State.pwrEn, State.full, running, Bool.and_eq_true, decide_eq_true_eq, true_and]
    exact ⟨full, modem⟩
  have runs : (w.pwrEn && decide (s.pins.ready ≠ level)) = true := by rw [powered, decide_eq_true changes]; rfl
  have kept := readyKept_finish (readyChange s.pins.ready level w)
  refine answers_of (readyChange_run level calm) ⟨?_, ?_, ?_⟩
  · rw [(finish_only _).pins, (readyChange_only _ _ _).pins]
    rfl
  · rw [kept.timer, readyChange, if_pos runs]
    cases level with
    | true =>
      rw [if_pos rfl, if_pos rfl, (setCond_only _ _ _).sup]
      rfl
    | false => rfl
  · rintro rfl
    rw [kept.absent, readyChange, if_pos runs]
    exact setCond_cond_same _ _ _

theorem readyChange_unpowered (level : Bool) (calm : Calm s) (off : s.power.state ≠ .full ∨ s.straps.modem = false) :
    Answers (.readyChange level) s fun t => t.pins.ready = level ∧ Only [.pins, .outs] s t := by
  have unpowered : (modemTold level s.pins.sync s).pwrEn = false := by
    show (_ && decide (s.power.state = .full) && s.straps.modem) = false
    obtain dark | none := off
    · rw [decide_eq_false dark, Bool.and_false, Bool.false_and]
    · rw [none, Bool.and_false]
  have still : readyChange s.pins.ready level (modemTold level s.pins.sync s) = modemTold level s.pins.sync s :=
    if_neg (by rw [unpowered, Bool.false_and]; decide)
  refine answers_of (readyChange_run level calm) ?_
  rw [modemTold_still calm still]
  exact ⟨rfl, modemTold_only _ _ s⟩

/-- The station as the READY timer runs out (R70). -/
def readyRanOut (s : State) : State := setCond .modemAbsent true (s.modSup fun u => { u with readyTimer := none })

theorem readyRanOut_only (s : State) : Only [.sup, .fault, .report] s (readyRanOut s) :=
  (setCond_only _ _ _).after ((State.modSup_only _ s).mono (by decide)) (by decide)

theorem readyTimer_run {x : Tick} (calm : Calm s) (timer : s.sup.readyTimer = some x)
    (due : 400000 ≤ elapsed s.now x) : exec .readyTimerExpiry s = .next (finish (readyRanOut s.quiet)) := by
  have isDue : dueReady s.quiet = true := by
    rw [dueReady, show s.quiet.sup.readyTimer = some x from timer]
    exact decide_eq_true due
  refine congrArg Host.Outcome.next ((running_active calm.active).trans (congrArg finish ?_))
  exact if_pos isDue

/-- The end of a command whose eligibility, once noted, leaves the known holder and the degraded holder settled. -/
theorem finish_kept_eligible {v : State} (first : FirstSettled (settleEligible v)) (up : StaysUp (settleEligible v)) :
    (finish v).hold = (settleEligible v).hold := by
  have again := settleEligible_of (settleEligible_settled v)
  have twice : finish v = finish (settleEligible v) := by
    rw [finish_eq, finish_eq, settleFirst, settleFirst, again]
  rw [twice]
  exact (finish_kept first up).1

/-- Eligibility lost with READY at a settled station with mains (R35, R38). -/
theorem finish_unready {v : State} {q : Hold} (calm : Calm s)
    (only : Only [.sup, .fault, .report, .outs] s v) (was : s.hold.eligible = true)
    (step : settleEligible v = { v with hold := q }) (ineligible : v.eligibleNow = false) (noted : q.eligible = false)
    (known : q.known = s.hold.known) (roster : q.roster = s.hold.roster)
    (halted : q.state = .halted ↔ s.hold.state = .halted) (holding : q.state = .holding ↔ s.hold.state = .holding)
    (record : q.state = .holding → s.call.record.isSome = true) :
    (finish v).hold = q := by
  have full : s.full = true := by
    have now := (Calm.first calm).eligible
    rw [was, State.eligibleNow] at now
    simp only [Bool.and_eq_true] at now
    exact now.1.1.1.2
  have first : FirstSettled { v with hold := q } := by
    refine .of_none ?_ ?_ ?_ (by show v.wire.dropped = []; rw [only.wire]; exact Calm.dropped calm)
    · show State.eligibleNow { v with hold := q } = q.eligible
      rw [noted, ← ineligible]
      simp only [State.eligibleNow, State.full, State.cond, State.halted, only.hold, halted]
    · show (decide (q.state = .holding) && q.degraded && v.call.record.isNone) = false
      by_cases here : q.state = .holding
      · rw [only.call, ← Option.not_isSome, record here, Bool.not_true, Bool.and_false]
      · rw [decide_eq_false here, Bool.false_and, Bool.false_and]
    · show State.computeHolder { v with hold := q } = q.known
      rw [known, ← (Calm.first calm).holder]
      exact computeHolder_of_holding only.straps roster (by simp only [State.holding, holding])
        (by show v.call.record.isSome = _; rw [only.call])
  have up : StaysUp { v with hold := q } := by
    have power : State.full { v with hold := q } = true := by
      show decide (v.power.state = .full) = true
      rw [only.power]
      exact full
    exact staysUp_of_awake (.inl (of_decide_eq_true power))
  rw [finish_kept_eligible (by rw [step]; exact first) (by rw [step]; exact up), step]

theorem settleEligible_loses {v : State} (ineligible : v.eligibleNow = false) (was : v.hold.eligible = true) :
    settleEligible v = eligibleRules false (v.modHold fun h => { h with eligible := false }) := by
  rw [settleEligible, ineligible, was, if_neg (by decide)]

/-- A holder with a record that loses its eligibility is degraded (R38). -/
theorem settleEligible_degrades {v : State} (ineligible : v.eligibleNow = false) (was : v.hold.eligible = true)
    (state : v.hold.state = .holding) (record : v.call.record.isSome = true) :
    settleEligible v = { v with hold := { v.hold with eligible := false, degraded := true } } := by
  have there : ¬ v.call.record.isNone = true := by rw [← Option.not_isSome, record]; decide
  rw [settleEligible_loses ineligible was]
  simp only [eligibleRules, State.modHold, state]
  exact if_neg there

/-- A claiming station that loses its eligibility seeks (R35). -/
theorem settleEligible_seeks {v : State} (ineligible : v.eligibleNow = false) (was : v.hold.eligible = true)
    (state : v.hold.state = .claiming) : settleEligible v = { v with hold := { v.hold with
      eligible := false, state := .seeking, follow := none, contest := none, listen := none, deferral := none } } := by
  rw [settleEligible_loses ineligible was]
  simp only [eligibleRules, State.modHold, state]
  rfl

theorem finish_absent {v : State} (calm : Calm s) (only : Only [.sup, .fault, .report, .outs] s v)
    (absent : v.cond .modemAbsent = true) :
    (finish v).hold.eligible = false ∧
      (s.hold.eligible = true → s.holding = true → s.call.record.isSome = true →
        (finish v).holding = true ∧ (finish v).hold.degraded = true) ∧
      (s.hold.eligible = true → s.hold.state = .claiming → (finish v).hold.state = .seeking) := by
  have ineligible : v.eligibleNow = false := by simp [State.eligibleNow, absent]
  have active : v.active = true := by
    rw [State.active, only.phase, only.power]
    exact Calm.active calm
  refine ⟨?_, fun was holding record => ?_, fun was claiming => ?_⟩
  · have settled := (calm_finish ((finish_active v).trans active)).first.eligible
    have still : (finish v).cond .modemAbsent = true := (readyKept_finish v).absent.trans absent
    rw [← settled, State.eligibleNow, still, Bool.not_true, Bool.and_false, Bool.false_and, Bool.false_and]
  · have state := holding_iff.mp holding
    have step := settleEligible_degrades ineligible (by rw [only.hold]; exact was) (by rw [only.hold]; exact state)
      (by rw [only.call]; exact record)
    rw [State.holding, finish_unready calm only was step ineligible rfl (by rw [only.hold]) (by rw [only.hold])
      (by rw [only.hold]) (by rw [only.hold]) fun _ => record, only.hold]
    exact ⟨decide_eq_true state, rfl⟩
  · have step := settleEligible_seeks ineligible (by rw [only.hold]; exact was) (by rw [only.hold]; exact claiming)
    rw [finish_unready calm only was step ineligible rfl (by rw [only.hold]) (by rw [only.hold]) 
      (by rw [claiming]; exact ⟨nofun, nofun⟩) (by rw [claiming]; exact ⟨nofun, nofun⟩) nofun]

theorem readyTimerExpiry_answers {x : Tick} (calm : Calm s) (timer : s.sup.readyTimer = some x)
    (due : 400000 ≤ elapsed s.now x) : Answers .readyTimerExpiry s fun t =>
      t.cond .modemAbsent = true ∧ t.sup.readyTimer = none ∧ t.hold.eligible = false ∧
        (s.hold.eligible = true → s.holding = true → s.call.record.isSome = true →
          t.holding = true ∧ t.hold.degraded = true) ∧
        (s.hold.eligible = true → s.hold.state = .claiming → t.hold.state = .seeking) := by
  have only : Only [.sup, .fault, .report, .outs] s (readyRanOut s.quiet) :=
    (readyRanOut_only _).after ((State.quiet_only s).mono (by decide)) (by decide)
  have absent : (readyRanOut s.quiet).cond .modemAbsent = true := setCond_cond_same _ _ _
  have stopped : (readyRanOut s.quiet).sup.readyTimer = none := congrArg Sup.readyTimer (setCond_only _ _ _).sup
  have kept := readyKept_finish (readyRanOut s.quiet)
  exact answers_of (readyTimer_run calm timer due)
    ⟨kept.absent.trans absent, kept.timer.trans stopped, finish_absent calm only absent⟩

/-! ## SYNC (R72, R73, R77) -/

theorem syncRise_still (calm : Calm s)
    (still : s.sup.state = .off ∨ s.sup.state = .backoff ∨ s.sup.state = .synced) : Answers .syncRise s fun t =>
      t.pins.sync = true ∧ Only [.pins, .outs] s t := by
  have nothing : syncRise (modemTold s.pins.ready true s) = modemTold s.pins.ready true s := by
    refine if_neg ?_
    show ¬ (s.sup.state = .training ∨ s.sup.state = .lost)
    obtain off | backoff | synced := still <;> simp [*]
  refine answers_of (syncRise_run calm) ?_
  rw [modemTold_still calm nothing]
  exact ⟨rfl, modemTold_only _ _ s⟩

theorem syncRise_synced (calm : Calm s) (waits : s.sup.state = .training ∨ s.sup.state = .lost) :
    Answers .syncRise s fun t =>
      t.sup.state = .synced ∧ t.sup.timer = none ∧ t.sup.failures = 0 ∧ t.sup.step = 0 ∧ t.sup.holdTime = 0 ∧
        t.cond .trainFail = false := by
  have enters : syncRise (modemTold s.pins.ready true s) = enterSynced (modemTold s.pins.ready true s) := if_pos waits
  have moved : SupMoved s (enterSynced (modemTold s.pins.ready true s)) :=
    supMoved_of ((enterSynced_only _).mono (by decide)) (enterSynced_absent _)
  obtain ⟨settled, conds⟩ := moved.finish calm
  obtain ⟨m, up, x, sup⟩ := settled.shape
  refine answers_of (syncRise_run calm) ?_
  rw [enters, sup, enterSynced_sup]
  exact ⟨rfl, rfl, rfl, rfl, rfl, (conds .trainFail rfl).trans (setCond_cond_same _ _ _)⟩

theorem syncFall_still (calm : Calm s) (still : s.sup.state ≠ .synced) : Answers .syncFall s fun t =>
    t.pins.sync = false ∧ Only [.pins, .outs] s t := by
  have nothing : syncFall (modemTold s.pins.ready false s) = modemTold s.pins.ready false s := if_neg still
  refine answers_of (syncFall_run calm) ?_
  rw [modemTold_still calm nothing]
  exact ⟨rfl, modemTold_only _ _ s⟩

theorem syncFall_lost (calm : Calm s) (synced : s.sup.state = .synced) : Answers .syncFall s fun t =>
    t.sup.state = .lost ∧ t.sup.timer = some s.now ∧ t.sup.holdTime = 0 ∧ t.sup.mailbox = none ∧
      t.sup.uplink = s.sup.uplink ∧ t.sup.inUse = s.sup.inUse ∧
      (if (s.sup.losses.filter fun y => decide (elapsed s.now y ≤ 36000000)).length < 2 then
        t.sup.losses = (s.sup.losses.filter fun y => decide (elapsed s.now y ≤ 36000000)) ++ [s.now] ∧
          t.sup.stored = s.sup.stored
      else t.sup.losses = [] ∧ t.sup.stored = min 3 (s.sup.stored + 1) ∧ t.cond .syncUnstable = true) := by
  have enters : syncFall (modemTold s.pins.ready false s) = enterLost (modemTold s.pins.ready false s) := if_pos synced
  have moved : SupMoved s (enterLost (modemTold s.pins.ready false s)) :=
    supMoved_of (enterLost_only _) (enterLost_absent _)
  obtain ⟨settled, conds⟩ := moved.finish calm
  obtain ⟨l, losses, stored, sup, counted⟩ := enterLost_sup (modemTold s.pins.ready false s)
  have kept := settled.away (by rw [sup]; nofun)
  refine answers_of (syncFall_run calm) ?_
  rw [enters, kept, conds .syncUnstable rfl, sup]
  exact ⟨rfl, rfl, rfl, rfl, rfl, rfl, counted⟩

/-! ## The supervisor's timers (R71 to R74) -/

theorem quiet_eq_told (s : State) : s.quiet = modemTold s.pins.ready s.pins.sync s := rfl

/-- The supervisor in BACKOFF (R74). -/
theorem enterBackoff_sup (s : State) : (enterBackoff s).sup = { s.sup with
    state := .backoff, uplink := [], timer := some s.now, backoffLen := 400000 * 2 ^ s.sup.step
    step := min 5 (s.sup.step + 1) } := rfl

theorem trainingTimeout_answers {x : Tick} (calm : Calm s) (timer : s.sup.timer = some x)
    (training : s.sup.state = .training) (due : 3600000 ≤ elapsed s.now x) : Answers .trainingTimeout s fun t =>
      t.sup.state = .backoff ∧ t.sup.failures = min 255 (s.sup.failures + 1) ∧ t.sup.timer = some s.now ∧
        t.sup.backoffLen = 400000 * 2 ^ s.sup.step ∧ t.sup.step = min 5 (s.sup.step + 1) ∧ t.sup.uplink = [] ∧
        t.holdLine = false ∧ (1 ≤ s.sup.failures → t.cond .trainFail = true) := by
  let failed : State := s.quiet.modSup fun u => { u with failures := min 255 (s.sup.failures + 1) }
  let v : State := if 2 ≤ min 255 (s.sup.failures + 1) then setCond .trainFail true failed else failed
  have isDue : dueTraining s.quiet = true := by
    show (decide (s.sup.state = .training) && timerOut s.now s.sup.timer Config.trainingTime) = true
    rw [training, timer]
    exact decide_eq_true due
  have run : exec .trainingTimeout s = .next (finish (enterBackoff v)) :=
    congrArg Host.Outcome.next ((running_active calm.active).trans (congrArg finish (if_pos isDue)))
  have only : Only [.sup, .fault, .report] s.quiet v :=
    iteInduction (motive := Only [.sup, .fault, .report] s.quiet)
      (fun _ => (setCond_only _ _ _).after ((State.modSup_only _ _).mono (by decide)) (by decide))
      fun _ => (State.modSup_only _ _).mono (by decide)
  have absent : v.cond .modemAbsent = s.cond .modemAbsent :=
    iteInduction (motive := fun v : State => v.cond .modemAbsent = s.cond .modemAbsent)
      (fun _ => setCond_cond_other (c := .trainFail) true failed nofun) fun _ => rfl
  have sup : v.sup = { s.sup with failures := min 255 (s.sup.failures + 1) } :=
    iteInduction (motive := fun v : State => v.sup = { s.sup with failures := min 255 (s.sup.failures + 1) })
      (fun _ => (setCond_only _ _ _).sup) fun _ => rfl
  have moved : SupMoved s (enterBackoff v) := by
    refine supMoved_of (ready := s.pins.ready) (sync := s.pins.sync) ?_ absent
    exact (State.modSup_only _ _).after (only.mono (by decide)) (by decide)
  obtain ⟨settled, conds⟩ := moved.finish calm
  have kept := settled.away (by rw [enterBackoff_sup]; nofun)
  have now : v.now = s.now := only.now
  refine answers_of run ?_
  rw [State.holdLine, kept, enterBackoff_sup, sup, now]
  refine ⟨rfl, rfl, rfl, rfl, rfl, rfl, rfl, fun before => (conds .trainFail rfl).trans ?_⟩
  have again : v = setCond .trainFail true failed := if_pos (by omega)
  show v.cond .trainFail = true
  rw [again]
  exact setCond_cond_same _ _ _

theorem graceTimeout_answers {x : Tick} (calm : Calm s) (timer : s.sup.timer = some x) (lost : s.sup.state = .lost)
    (due : 80000 ≤ elapsed s.now x) : Answers .graceTimeout s fun t =>
      t.sup.state = .backoff ∧ t.sup.timer = some s.now ∧ t.sup.backoffLen = 400000 * 2 ^ s.sup.step ∧
        t.sup.step = min 5 (s.sup.step + 1) ∧ t.sup.uplink = [] ∧ t.sup.failures = s.sup.failures := by
  have isDue : dueGrace s.quiet = true := by
    show (decide (s.sup.state = .lost) && timerOut s.now s.sup.timer Config.graceTime) = true
    rw [lost, timer]
    exact decide_eq_true due
  have run : exec .graceTimeout s = .next (finish (enterBackoff s.quiet)) :=
    congrArg Host.Outcome.next ((running_active calm.active).trans (congrArg finish (if_pos isDue)))
  have moved : SupMoved s (enterBackoff s.quiet) :=
    supMoved_of (ready := s.pins.ready) (sync := s.pins.sync) ((State.modSup_only _ _).mono (by decide)) rfl
  have kept := (moved.finish calm).1.away (by rw [enterBackoff_sup]; nofun)
  refine answers_of run ?_
  rw [kept, enterBackoff_sup]
  exact ⟨rfl, rfl, rfl, rfl, rfl, rfl⟩

theorem backoffWaitEnd_answers {x : Tick} (calm : Calm s) (timer : s.sup.timer = some x)
    (backoff : s.sup.state = .backoff) (due : (s.sup.backoffLen : Int) ≤ elapsed s.now x) :
    Answers .backoffWaitEnd s fun t =>
      t.sup.state = (if s.pins.sync then .synced else .training) ∧
        t.sup.inUse = max s.sup.stored s.noise.tracked ∧ (s.pins.sync = false → t.sup.timer = some s.now) := by
  have isDue : dueBackoff s.quiet = true := by
    show (decide (s.sup.state = .backoff) && timerOut s.now s.sup.timer s.sup.backoffLen) = true
    rw [backoff, timer]
    exact decide_eq_true due
  have run : exec .backoffWaitEnd s = .next (finish (enterTraining s.quiet)) :=
    congrArg Host.Outcome.next ((running_active calm.active).trans (congrArg finish (if_pos isDue)))
  have moved : SupMoved s (enterTraining s.quiet) :=
    supMoved_of (ready := s.pins.ready) (sync := s.pins.sync) ((enterTraining_only _).mono (by decide))
      (enterTraining_absent _)
  obtain ⟨m, up, y, sup⟩ := (moved.finish calm).1.shape
  have state := (enterTraining_sup s.quiet).1
  obtain ⟨inUse, timed⟩ := enterTraining_read s.quiet
  refine answers_of run ?_
  rw [sup]
  exact ⟨state, inUse, timed⟩

end

/-- Settles O41, clause by clause: the supervisor's events change the supervisor alone, and what is left for the end of
a command at READY's is the eligibility. -/
theorem modemSupervised : Obligations.ModemSupervised := by
  unfold Obligations.ModemSupervised
  refine ⟨fun s level x calm => ⟨fun full modem changes => readyChange_answers calm full modem changes,
    fun off => readyChange_unpowered level calm off, fun timer due => readyTimerExpiry_answers calm timer due⟩,
    fun s calm => ⟨syncRise_synced calm, syncRise_still calm, syncFall_lost calm, syncFall_still calm⟩,
    fun s x calm timer => ⟨trainingTimeout_answers calm timer, graceTimeout_answers calm timer,
      backoffWaitEnd_answers calm timer⟩⟩

end Sys2Proof.Machine
end

section
/-! PROOFS. The end of LISTEN (R32, R97): the requests that were held are made or refused, and what they drop tells the
ports alone. -/

set_option Elab.async false

namespace Sys2Proof.Machine

open Sys2Proof

section
variable {s t u v : State}

/-! ## What held requests drop (R11, R96) -/

/-- A frame whose drop tells no block but the ports. -/
def toPorts : Body → Bool
  | .request _ _ => true
  | b => inert b

theorem toPorts_cases {d : Body} (asked : toPorts d = true) : (∃ k m, d = .request k m) ∨ inert d = true := by
  cases d
  case request k m => exact .inl ⟨k, m, rfl⟩
  all_goals exact .inr asked

/-- From `s` to `t` nothing is dropped but what tells the ports alone. -/
def DropsAsked (s t : State) : Prop := ∀ d ∈ t.wire.dropped, d ∈ s.wire.dropped ∨ toPorts d = true

theorem DropsAsked.of_wire (wire : t.wire = s.wire) : DropsAsked s t := fun d here => .inl (by rwa [wire] at here)

theorem DropsAsked.trans (h : DropsAsked s t) (k : DropsAsked t u) : DropsAsked s u := fun d here =>
  (k d here).elim (h d) .inr

theorem dropsAsked_sendRequest (k : RequestKind) (dst : Nat) (m : RequestMsg) (s : State) :
    DropsAsked s (sendRequest k dst m s) := by
  intro d here
  rw [sendRequest, offerControl_eq (b := .request k _) _ _ nofun nofun, State.modWire_wire] at here
  rcases List.mem_append.mp here with old | fresh
  · exact .inl old
  · obtain rfl | rfl := mem_controlDrops fresh <;> exact .inr rfl

theorem dropsAsked_makeSeize (n : PortNo) (k : RequestKind) (s : State) : DropsAsked s (makeSeize n k s) := by
  unfold makeSeize
  split
  · exact .of_wire (refusePort_only _ _ _ _).wire
  · next h _ =>
    refine iteInduction (fun _ => ?_) fun _ => ?_
    · have judged := (judge_only k s.own (portNo n) (s.portClass n) (useTag s)).wire
      split
      · next answer =>
        rw [answer] at judged
        exact .of_wire ((takeAnswer_only _ _ _ _ _).wire.trans (judged.trans (useTag_only s).wire))
      · next answer =>
        rw [answer] at judged
        exact .of_wire ((State.modPort_only _ _ _).wire.trans (judged.trans (useTag_only s).wire))
    · exact DropsAsked.trans (.of_wire (State.modPort_only n _ s).wire) (dropsAsked_sendRequest _ _ _ _)

theorem dropsAsked_makeOffer (n : PortNo) (st target : Nat) (s : State) : DropsAsked s (makeOffer n st target s) := by
  unfold makeOffer
  refine iteInduction (fun _ => .of_wire (makeLocalOffer_only _ _ _).wire) fun _ => ?_
  split
  · exact .of_wire (refusePort_only _ _ _ _).wire
  · refine iteInduction (fun _ => .of_wire (refusePort_only _ _ _ _).wire) fun _ => ?_
    exact DropsAsked.trans (.of_wire (State.modPort_only n _ s).wire) (dropsAsked_sendRequest _ _ _ _)

theorem dropsAsked_releaseHeld (all : Bool) (n : PortNo) (s : State) : DropsAsked s (releaseHeld all n s) := by
  have still : DropsAsked s s := .of_wire rfl
  unfold releaseHeld
  split
  · refine iteInduction (fun _ => iteInduction (fun _ => ?_) fun _ => dropsAsked_makeSeize _ _ _) fun _ => still
    exact iteInduction (fun _ => dropsAsked_makeOffer _ _ _ _) fun _ => still
  · exact still

theorem dropsAsked_eachRelease (all : Bool) (s : State) : DropsAsked s (s.eachPort (releaseHeld all)) := by
  unfold State.eachPort
  generalize s.fittedPorts = l
  induction l generalizing s with
  | nil => exact .of_wire rfl
  | cons n l ih => exact (dropsAsked_releaseHeld all n s).trans (ih _)

/-! ## The notices of such drops -/

/-- The notice of such a drop leaves all but the ports and the bindings. -/
theorem steady_droppedNotice {d : Body} (asked : toPorts d = true) (s : State) : Steady s (droppedNotice s d) := by
  obtain ⟨k, m, rfl⟩ | quiet := toPorts_cases asked
  · exact steady_eachPort (fun n t => steady_requestDropped k m.tag n t) s
  · rw [droppedNotice_inert s quiet]
    exact .refl s

/-- It leaves a port without a request too. -/
theorem port_droppedNotice {d : Body} (asked : toPorts d = true) {n : PortNo} (free : (s.port n).outReq = none) :
    (droppedNotice s d).port n = s.port n := by
  obtain ⟨k, m, rfl⟩ | quiet := toPorts_cases asked
  · have told : (droppedNotice s (.request k m)).port n =
        if s.fitted n then Port.unanswered k m.tag s.now (s.port n) else s.port n :=
      port_eachPort (g := fun _ => Port.unanswered k m.tag s.now)
        (fun m' t ht => by rw [port_requestDropped, ht]) (fun m' p t hp => port_requestDropped_other k m.tag t hp)
        (fun m' t => (requestDropped_hold k m.tag m' t).now) n
    have same : Port.unanswered k m.tag s.now (s.port n) = s.port n := by simp [Port.unanswered, asks, free]
    rw [told, same, ite_self]
  · rw [droppedNotice_inert s quiet]

theorem steady_foldl_notices : ∀ (l : List Body) (s : State), (∀ d ∈ l, toPorts d = true) →
    Steady s (l.foldl droppedNotice s)
  | [], s, _ => .refl s
  | d :: l, s, asked => (steady_droppedNotice (asked d (by simp)) s).trans
      (steady_foldl_notices l _ fun e he => asked e (by simp [he]))

theorem port_foldl_notices {n : PortNo} : ∀ (l : List Body) (s : State), (∀ d ∈ l, toPorts d = true) →
    (s.port n).outReq = none → (l.foldl droppedNotice s).port n = s.port n
  | [], _, _, _ => rfl
  | d :: l, s, asked, free => by
    have first := port_droppedNotice (s := s) (asked d (by simp)) free
    rw [List.foldl_cons, port_foldl_notices l _ (fun e he => asked e (by simp [he])) (by rw [first]; exact free), first]

theorem steady_clearNotices (s : State) : Steady s (clearNotices s) :=
  ⟨(clearNotices_only s).mono (by decide), ⟨_, _, rfl⟩, rfl, rfl, rfl, fun _ => .inl rfl, rfl⟩

theorem steady_settleNotices (asked : ∀ d ∈ s.wire.dropped, toPorts d = true) : Steady s (settleNotices s) :=
  (steady_clearNotices s).trans (steady_foldl_notices _ (clearNotices s) asked)

theorem port_settleNotices {n : PortNo} (asked : ∀ d ∈ s.wire.dropped, toPorts d = true)
    (free : (s.port n).outReq = none) : (settleNotices s).port n = s.port n :=
  port_foldl_notices s.wire.dropped (clearNotices s) asked free

/-! ## The end of a command that made held requests -/

/-- Where nothing else is left of the first part, it hands the notices on. -/
theorem settleFirst_notices (line : LineSettled s) : settleFirst s = settleNotices s := by
  rw [settleFirst, settleEligible_of line.eligible, settleDegraded_of line.degraded, settleHolder_of line.holder]

theorem Steady.lineSettled (h : Steady s t) (line : LineSettled s) : LineSettled t := by
  refine ⟨h.eligible line.eligible, ?_, ?_⟩
  · rw [h.holding, h.record, h.only.hold]
    exact line.degraded
  · rw [h.computeHolder, h.only.hold]
    exact line.holder

theorem Steady.awake (h : Steady s t) (awake : Awake s) : Awake t := by
  obtain ⟨a, b, pins⟩ := h.pins
  obtain full | low := awake
  · have kept := h.full
    rw [State.full, State.full, decide_eq_true full] at kept
    exact .inl (of_decide_eq_true kept)
  · exact .inr (by rw [pins]; exact low)

/-- Requests made away from the line leave the hold controller, and a port without a request that plays no dial tone. -/
theorem finish_asked (line : LineSettled s) (awake : Awake s) (steady : Steady s t)
    (asked : ∀ d ∈ t.wire.dropped, toPorts d = true) : (finish t).hold = s.hold ∧
      ∀ n, (t.port n).outReq = none → (t.port n).tone ≠ .dial → (t.port n).tone ≠ .stutter →
        (finish t).port n = t.port n := by
  have noted := steady.trans (steady_settleNotices asked)
  have rest := settleRest_only (staysUp_of_awake (noted.awake awake))
  rw [finish_eq, settleFirst_notices (steady.lineSettled line)]
  refine ⟨rest.hold.trans noted.only.hold, fun n free dial stutter => ?_⟩
  have same := port_settleNotices asked free
  rw [settleRest_port_of_tone (by rw [same]; exact dial) (by rw [same]; exact stutter), same]

/-! ## A port that is not idle, while another's request is made -/

theorem port_takeAnswer_other (n : PortNo) (k : RequestKind) (h : Nat) (v : Verdict) (s : State) {m : PortNo}
    (other : m ≠ n) : (takeAnswer n k h v s).port m = s.port m := by
  unfold takeAnswer
  split
  · exact port_clearPort_other n s _ _ other
  · rfl
  · exact iteInduction (motive := fun t : State => t.port m = s.port m)
      (fun _ => State.port_modPort_other _ _ other) fun _ => port_connectPort_other n s _ other

theorem port_sendRequest (k : RequestKind) (dst : Nat) (x : RequestMsg) (s : State) (n : PortNo) :
    (sendRequest k dst x s).port n = s.port n := by
  rw [sendRequest, port_congr (offerControl_only _ _ _).ports, port_useTag]

theorem port_makeSeize_other (n : PortNo) (k : RequestKind) (s : State) {m : PortNo} (other : m ≠ n) :
    (makeSeize n k s).port m = s.port m := by
  unfold makeSeize
  split
  · exact port_clearPort_other n s _ _ other
  · refine iteInduction (motive := fun t : State => t.port m = s.port m) (fun _ => ?_) fun _ => ?_
    · have judged := port_congr (judge_only k s.own (portNo n) (s.portClass n) (useTag s)).ports m
      split
      · next answer =>
        rw [answer] at judged
        exact (port_takeAnswer_other n k _ _ _ other).trans (judged.trans (port_useTag s m))
      · next answer =>
        rw [answer] at judged
        exact (State.port_modPort_other _ _ other).trans (judged.trans (port_useTag s m))
    · rw [port_sendRequest, State.port_modPort_other _ _ other]

theorem port_makeOffer_other (n : PortNo) (st target : Nat) (s : State) {m : PortNo} (other : m ≠ n)
    (busy : (s.port m).state ≠ .idle) : (makeOffer n st target s).port m = s.port m := by
  have refused (c : RefuseCause) (r : Nat × Nat) : (refusePort n c r s).port m = s.port m :=
    port_clearPort_other n s _ _ other
  unfold makeOffer
  refine iteInduction (motive := fun t : State => t.port m = s.port m) (fun _ => ?_) fun _ => ?_
  · unfold makeLocalOffer
    refine iteInduction (motive := fun t : State => t.port m = s.port m) (fun _ => refused _ _) fun _ =>
      iteInduction (motive := fun t : State => t.port m = s.port m) (fun _ => refused _ _) fun _ =>
        iteInduction (motive := fun t : State => t.port m = s.port m) (fun can => ?_) fun _ => refused _ _
    obtain ⟨-, idle, -, -⟩ := canRing_iff.mp can
    rw [eq_otherPort other] at busy
    exact absurd idle busy
  · split
    · exact refused _ _
    · refine iteInduction (motive := fun t : State => t.port m = s.port m) (fun _ => refused _ _) fun _ => ?_
      rw [port_sendRequest, State.port_modPort_other _ _ other]

theorem port_releaseHeld_other (all : Bool) (n : PortNo) (s : State) {m : PortNo} (other : m ≠ n)
    (busy : (s.port m).state ≠ .idle) : (releaseHeld all n s).port m = s.port m := by
  unfold releaseHeld
  split
  · refine iteInduction (motive := fun t : State => t.port m = s.port m) (fun _ => ?_) fun _ => rfl
    refine iteInduction (motive := fun t : State => t.port m = s.port m) (fun _ => ?_)
      fun _ => port_makeSeize_other n _ s other
    exact iteInduction (motive := fun t : State => t.port m = s.port m)
      (fun _ => port_makeOffer_other n _ _ s other busy) fun _ => rfl
  · rfl

/-- With no holder known port 1's held SEIZE or ANSWER is refused, whatever port 2's request does (R97). -/
theorem port_one_released {q : OutReq} (request : s.ports.one.outReq = some q) (held : q.held = true)
    (kind : q.kind ≠ .offer) (unknown : s.hold.known = none) :
    (s.eachPort (releaseHeld true)).port .one =
      Port.clear s.now (some (.refused .noHolder)) (some (s.own, 0)) s.ports.one := by
  have refused : releaseHeld true .one s = refusePort .one .noHolder (s.own, 0) s := by
    simp [releaseHeld, State.port, Ports.get, request, held, kind, makeSeize, unknown]
  have first : (releaseHeld true .one s).port .one =
      Port.clear s.now (some (.refused .noHolder)) (some (s.own, 0)) s.ports.one := by
    rw [refused]
    exact port_clearPort_same .one s _ _
  unfold State.eachPort State.fittedPorts
  refine iteInduction (motive := fun l : List PortNo => (l.foldl (fun s n => releaseHeld true n s) s).port .one = _)
    (fun _ => ?_) fun _ => first
  exact (port_releaseHeld_other true .two _ (by decide) (by rw [first]; nofun)).trans first

end

end Sys2Proof.Machine
end

section
/-! PROOFS. The hold controller's timers (R29, R32 to R36): each one's end at a settled station. -/

set_option Elab.async false

namespace Sys2Proof.Machine

open Sys2Proof

section
variable {s t u v : State} {x : Tick}

/-! ## NO_HOLDER (R29) -/

theorem noHolderTimeout_answers (calm : Calm s) (timer : s.hold.noHolder = some x)
    (due : 1200000 ≤ elapsed s.now x) : Answers .noHolderTimeout s fun t =>
      t.cond .noHolder = true ∧ t.hold = { s.hold with noHolder := none } := by
  let u : State := s.quiet.modHold fun h => { h with noHolder := none }
  have only := setCond_only .noHolder true u
  have isDue : dueNoHolder s.quiet = true := by
    rw [dueNoHolder, show s.quiet.hold.noHolder = some x from timer]
    exact decide_eq_true due
  have run : exec .noHolderTimeout s = .next (finish (setCond .noHolder true u)) :=
    congrArg Host.Outcome.next ((running_active calm.active).trans (congrArg finish (if_pos isDue)))
  have f := Calm.first calm
  have first : FirstSettled (setCond .noHolder true u) := by
    refine .of_none ?_ ?_ ?_ (by rw [only.wire]; exact Calm.dropped (s := s) calm)
    · rw [eligibleNow_congr (s := s) only.straps only.power (setCond_cond_other true u nofun) (by rw [only.hold]; rfl),
        only.hold]
      exact f.eligible
    · rw [State.holding, only.hold, only.call]
      exact f.degraded
    · rw [computeHolder_congr (s := s) only.straps (by rw [only.hold]; rfl) (by rw [only.hold]; rfl)
        (by rw [only.call]; rfl), only.hold]
      exact f.holder
  have up : StaysUp (setCond .noHolder true u) :=
    staysUp_congr (staysUp_of_calm calm) only.power only.ports (by rw [only.hold]; rfl) (by rw [only.pins]; rfl)
  refine answers_of run ⟨?_, (finish_kept first up).1.trans only.hold⟩
  have head : (settleDataHead (clearNotices (setCond .noHolder true u))).fault = (setCond .noHolder true u).fault :=
    (settleDataHead_only _).fault
  rw [finish_eq, settleFirst_of first, settleRest_cond (s := clearNotices (setCond .noHolder true u)) up]
  show State.cond .noHolder _ = true
  rw [State.cond, head]
  exact setCond_cond_same .noHolder true u

/-! ## The end of LISTEN (R32, R97) -/

/-- The hold controller as LISTEN ends. -/
def Hold.listened (now : Tick) (h : Hold) : Hold :=
  { h with
    state := if h.known.isSome then .passive else .seeking
    listen := none, follow := none, contest := none
    deferral := if h.known = none ∧ h.eligible = true then some now else none }

theorem listened_eq (s : State) : (if s.hold.known.isSome then enterPassive none s else enterSeeking s) =
    s.modHold (Hold.listened s.now) := by
  unfold enterPassive enterSeeking Hold.listened State.modHold
  cases known : s.hold.known <;> simp [known]

theorem lineSettled_listened (calm : Calm s) (listening : s.hold.state = .listen) :
    LineSettled (s.quiet.modHold (Hold.listened s.now)) := by
  have f := Calm.first calm
  have state : (Hold.listened s.now s.hold).state ≠ .halted ∧ (Hold.listened s.now s.hold).state ≠ .holding := by
    unfold Hold.listened
    dsimp only
    split <;> exact ⟨nofun, nofun⟩
  have kept : LineKept s (s.modHold (Hold.listened s.now)) :=
    lineKept_modHold (by simp [state.1, listening]) state.2 rfl
  refine ⟨kept.now.trans (f.eligible.trans kept.noted.symm), ?_, ?_⟩
  · show (decide ((Hold.listened s.now s.hold).state = .holding) && _ && _) = false
    rw [decide_eq_false state.2, Bool.false_and, Bool.false_and]
  · refine (computeHolder_of_holding (s := s) (t := s.quiet.modHold (Hold.listened s.now)) rfl rfl ?_ rfl).trans f.holder
    show decide ((Hold.listened s.now s.hold).state = .holding) = decide (s.hold.state = .holding)
    rw [listening, decide_eq_false state.2]
    rfl

theorem listenTimeout_answers (calm : Calm s) (awake : Awake s) (listening : s.hold.state = .listen)
    (timer : s.hold.listen = some x) (due : 120000 ≤ elapsed s.now x) : Answers .listenTimeout s fun t =>
      (t.hold = { s.hold with
        state := if s.hold.known.isSome then .passive else .seeking
        listen := none, follow := none, contest := none
        deferral := if s.hold.known = none ∧ s.hold.eligible = true then some s.now else none }) ∧
      (∀ q, s.ports.one.outReq = some q → q.held = true → q.kind ≠ .offer → s.hold.known = none →
        t.ports.one.state = .cleared ∧ t.ports.one.lastCause = some (.refused .noHolder) ∧
          t.ports.one.outReq = none) := by
  let u : State := s.quiet.modHold (Hold.listened s.now)
  have isDue : dueListen s.quiet = true := by
    show (decide (s.hold.state = .listen) && timerOut s.now s.hold.listen Config.listenTime) = true
    rw [listening, timer]
    exact decide_eq_true due
  have step : listenTimeout s.quiet = u.eachPort (releaseHeld true) :=
    (if_pos isDue).trans (congrArg (State.eachPort (releaseHeld true)) (listened_eq s.quiet))
  have run : exec .listenTimeout s = .next (finish (u.eachPort (releaseHeld true))) :=
    congrArg Host.Outcome.next ((running_active calm.active).trans (congrArg finish step))
  have line : LineSettled u := lineSettled_listened calm listening
  have away : u.holding = false := by
    show decide ((Hold.listened s.now s.hold).state = .holding) = false
    unfold Hold.listened
    dsimp only
    split <;> rfl
  have none_dropped : u.wire.dropped = [] := Calm.dropped (s := s) calm
  have asked : ∀ d ∈ (u.eachPort (releaseHeld true)).wire.dropped, toPorts d = true := fun d here =>
    (dropsAsked_eachRelease true u d here).resolve_left (by rw [none_dropped]; exact List.not_mem_nil)
  obtain ⟨hold, ports⟩ := finish_asked line awake (steady_eachRelease true away) asked
  refine answers_of run ⟨hold, fun q request held kind unknown => ?_⟩
  have cleared := port_one_released (s := u) request held kind unknown
  have kept := ports .one (by rw [cleared]; rfl) (by rw [cleared]; nofun) (by rw [cleared]; nofun)
  have port : (finish (u.eachPort (releaseHeld true))).ports.one =
      Port.clear s.now (some (.refused .noHolder)) (some (s.own, 0)) s.ports.one := kept.trans cleared
  rw [port]
  exact ⟨rfl, rfl, rfl⟩

/-! ## Seeking and claiming (R33, R34) -/

/-- The station with its hold controller and its control queue replaced, and its outputs gone. -/
def withHold (q : Hold) (c : List TxEntry) (s : State) : State :=
  { s with hold := q, wire := { s.wire with control := c }, outs := [] }

/-- A hold state away from the line and from HALTED, which is one as the other to the level rules but the idle timer's. -/
theorem calm_withHold {q : Hold} {c : List TxEntry} (calm : Calm s) (away : s.holding = false)
    (away' : q.state ≠ .holding) (halted : q.state = .halted ↔ s.hold.state = .halted)
    (eligible : q.eligible = s.hold.eligible) (known : q.known = s.hold.known) (roster : q.roster = s.hold.roster)
    (lost : q.lost = s.hold.lost) (idle : (withHold q c s).idleHolds = s.idleHolds) : Calm (withHold q c s) := by
  have f := Calm.first calm
  have rest := Calm.rest calm
  let t := withHold q c s
  have holding : t.holding = s.holding := by rw [away]; exact decide_eq_false away'
  have halts : t.halted = s.halted := by
    show decide (q.state = .halted) = decide (s.hold.state = .halted)
    simp only [halted]
  refine calm_of calm.active (.of_none ?_ ?_ ?_ calm.dropped) calm.dropped ⟨⟨rest.head, ?_, ?_, ?_, rest.transfer,
    rest.outpulse, rest.loss, ?_, rest.tones⟩, ?_⟩
  · exact (eligibleNow_halted (s := s) (t := t) rfl rfl rfl halts).trans (f.eligible.trans eligible.symm)
  · show (t.holding && _ && _) = false
    rw [holding, away, Bool.false_and, Bool.false_and]
  · exact (computeHolder_of_holding (s := s) (t := t) rfl roster holding rfl).trans (f.holder.trans known.symm)
  · exact condsSettled_congr (s := s) rfl rfl (congrArg List.isEmpty lost) rfl rfl rfl rfl holding rest.conds
  · have settled := rest.reports
    simp only [reportsSettled, State.broadbandOf, State.peer] at settled ⊢
    rw [show (withHold q c s).holding = s.holding from holding, show (withHold q c s).halted = s.halted from halts]
    show (if s.holding then _ else match q.known with | some _ => _ | none => true) = true
    rw [known]
    simp only [withHold, roster]
    exact settled
  · have settled := rest.offer
    rw [offerSettled] at settled ⊢
    rw [show (withHold q c s).holding = s.holding from holding]
    exact settled
  · show t.lampWanted = s.fault.lamp
    rw [State.lampWanted, halts]
    exact rest.lamp
  · have settled := rest.idle
    rw [idleSettled] at settled ⊢
    rw [idle]
    exact settled

theorem withHold_only (q : Hold) (s : State) : Only [.hold, .outs] s (withHold q s.wire.control s) := by
  intro p hp
  cases p <;> first | rfl | exact absurd (by decide) hp

theorem withHold_only_wire (q : Hold) (c : List TxEntry) (s : State) :
    Only [.hold, .wire, .outs] s (withHold q c s) := by
  intro p hp
  cases p <;> first | rfl | exact absurd (by decide) hp

theorem claimFollowTimeout_answers (calm : Calm s) {f : Follow} (passive : s.hold.state = .passive)
    (follow : s.hold.follow = some f) (due : 80000 ≤ elapsed s.now f.heard) : Answers .claimFollowTimeout s fun t =>
      t.hold.state = .seeking ∧ t.hold.follow = none ∧
        t.hold.deferral = (if s.hold.eligible then some s.now else none) ∧ Only [.hold, .outs] s t := by
  let q : Hold := { s.hold with
    state := .seeking, follow := none, contest := none, listen := none
    deferral := if s.hold.eligible then some s.now else none }
  have isDue : dueFollow s.quiet = true := by
    show (decide (s.hold.state = .passive) && timerOut s.now (s.hold.follow.map (·.heard)) Config.followTime) = true
    rw [passive, follow]
    exact decide_eq_true due
  have step : claimFollowTimeout s.quiet = withHold q s.wire.control s := if_pos isDue
  have away : s.holding = false := by simp [State.holding, passive]
  have settled : Calm (withHold q s.wire.control s) := by
    refine calm_withHold calm away nofun (by rw [passive]; exact ⟨nofun, nofun⟩) rfl rfl rfl rfl ?_
    show (_ && !(false || false || false)) = (_ && !(s.holding || decide (s.hold.state = .claiming) ||
      decide (s.hold.state = .yielding)))
    rw [away, passive]
    rfl
  refine answers_of (congrArg Host.Outcome.next (running_active calm.active)) ?_
  rw [step, finish_of_calm settled]
  exact ⟨rfl, rfl, rfl, withHold_only q s⟩

theorem full_of_eligible (calm : Calm s) (eligible : s.hold.eligible = true) : s.full = true := by
  have now := (Calm.first calm).eligible
  rw [eligible, State.eligibleNow] at now
  simp only [Bool.and_eq_true] at now
  exact now.1.1.1.2

theorem idleHolds_of_full (full : s.full = true) : s.idleHolds = false := by
  have state : s.power.state = .full := of_decide_eq_true full
  simp [State.idleHolds, state]

theorem deferralEnd_answers (calm : Calm s) (seeking : s.hold.state = .seeking) (deferral : s.hold.deferral = some x)
    (eligible : s.hold.eligible = true) (due : ((10000 * s.own : Nat) : Int) ≤ elapsed s.now x)
    (room : s.wire.control.length < 8) : Answers .deferralEnd s fun t =>
      t.hold.state = .claiming ∧ t.hold.deferral = none ∧ t.hold.contest = none ∧
        t.wire.control = s.wire.control ++
          [newEntry (some 0) (.claim s.hold.tiebreak t.hold.claimSerial) s.now] ∧ Only [.hold, .wire, .outs] s t := by
  let q : Hold := { s.hold with
    state := .claiming, deferral := none, contest := none, claimSerial := s.hold.claimSerial + 1 }
  let c := s.wire.control ++ [newEntry (some 0) (.claim s.hold.tiebreak q.claimSerial) s.now]
  have isDue : (dueDeferral s.quiet && s.quiet.hold.eligible) = true := by
    show (decide (s.hold.state = .seeking) && timerOut s.now s.hold.deferral (Config.deferralUnit * s.own) &&
      s.hold.eligible) = true
    rw [seeking, deferral, eligible, Bool.and_true]
    exact decide_eq_true due
  have claims : enterClaiming s.quiet = withHold q c s := by
    have awake : State.halted (s.quiet.modHold fun h => { h with
      state := .claiming, deferral := none, contest := none, claimSerial := h.claimSerial + 1 }) = false := rfl
    have here : (s.quiet.modHold fun h => { h with
      state := .claiming, deferral := none, contest := none, claimSerial := h.claimSerial + 1 }).wire.control.length <
        Config.controlMax := room
    rw [enterClaiming, offerControl, awake, Bool.false_and, if_neg (by decide), if_pos here]
    rfl
  have step : deferralEnd s.quiet = withHold q c s := (if_pos isDue).trans claims
  have full := full_of_eligible calm eligible
  have settled : Calm (withHold q c s) :=
    calm_withHold calm (by simp [State.holding, seeking]) nofun (by rw [seeking]; exact ⟨nofun, nofun⟩) rfl rfl rfl rfl
      ((idleHolds_of_full (s := withHold q c s) full).trans (idleHolds_of_full full).symm)
  refine answers_of (congrArg Host.Outcome.next (running_active calm.active)) ?_
  rw [step, finish_of_calm settled]
  exact ⟨rfl, rfl, rfl, rfl, withHold_only_wire q c s⟩

/-! ## Entry to HOLDING (R28, R36, R149) -/

/-- Where nothing sends the station to WATCH, the rules after the notices leave the line test and its due time. -/
theorem settleRest_test (up : StaysUp s) :
    (settleRest s).fault.test = s.fault.test ∧ (settleRest s).fault.due = s.fault.due := by
  have conds (t : State) : (settleConds t).fault.test = t.fault.test ∧ (settleConds t).fault.due = t.fault.due := by
    obtain ⟨r, l, q, eq, -⟩ := settleConds_shape t
    rw [eq]
    exact ⟨rfl, rfl⟩
  have reports (t : State) :
      (settleReports t).fault.test = t.fault.test ∧ (settleReports t).fault.due = t.fault.due := by
    refine iteInduction (motive := fun w : State => w.fault.test = t.fault.test ∧ w.fault.due = t.fault.due)
      (fun _ => ⟨rfl, rfl⟩) fun _ => ?_
    unfold sendReport
    split
    · refine iteInduction (motive := fun w : State => w.fault.test = t.fault.test ∧ w.fault.due = t.fault.due)
        (fun _ => ?_) fun _ => ⟨rfl, rfl⟩
      split
      · rw [(offerControl_only _ _ _).fault]
        exact ⟨rfl, rfl⟩
      · exact ⟨rfl, rfl⟩
    · exact ⟨rfl, rfl⟩
  have lamp (t : State) : (settleLamp t).fault.test = t.fault.test ∧ (settleLamp t).fault.due = t.fault.due :=
    iteInduction (motive := fun w : State => w.fault.test = t.fault.test ∧ w.fault.due = t.fault.due)
      (fun _ => ⟨rfl, rfl⟩) fun _ => ⟨rfl, rfl⟩
  have middle : (settleMiddle s).fault = (settleConds (settleDataHead s)).fault := by
    rw [settleMiddle_staysUp up, State.modPower_fault]
  have later (t : State) : (settleLoss (startOutpulse (startTransfer (mailboxOffer (settleReports t))))).fault =
      (settleReports t).fault :=
    (settleLoss_only _).fault.trans ((startOutpulse_only _).fault.trans ((startTransfer_only _).fault.trans
      (mailboxOffer_only _).fault))
  rw [settleRest, (clearNotices_only _).fault, (settleTones_only _).fault, settleLater, (lamp _).1, (lamp _).2, later,
    (reports _).1, (reports _).2, middle, (conds _).1, (conds _).2, (settleDataHead_only s).fault]
  exact ⟨rfl, rfl⟩

theorem keeper_nil_iff {cs : List (Nat × Bool)} : keeper cs = none ↔ cs = [] := by
  unfold keeper
  cases calls : lowestId (cs.filter (·.2)) with
  | none => exact lowestId_none
  | some i =>
    refine ⟨nofun, ?_⟩
    rintro rfl
    cases calls

theorem keeper_single (i : Nat) (b : Bool) : keeper [(i, b)] = some i := by
  cases b <;> rfl

/-- A station that knew no holder and takes the line knows itself (R28). -/
theorem computeHolder_taken (roster : t.hold.roster = s.hold.roster)
    (unknown : s.computeHolder = none) (away : s.holding = false) (holding : t.holding = true) :
    t.computeHolder = some t.own := by
  have empty := keeper_nil_iff.mp unknown
  rw [candidates_eq, away, List.append_eq_nil_iff] at empty
  rw [State.computeHolder, candidates_eq, holding, roster, empty.1]
  exact keeper_single _ _

theorem settleHolder_taken {k : Nat} (holding : t.hold.state = .holding) (unknown : t.hold.known = none)
    (now : t.computeHolder = some k) : settleHolder t =
      setCond .noHolder false (t.modHold fun h => { h with known := some k, noHolder := none }) := by
  rw [settleHolder, now, unknown, if_neg nofun]
  show holderRules (setCond .noHolder false (t.modHold fun h => { h with known := some k, noHolder := none })) = _
  have state : (setCond .noHolder false (t.modHold fun h => { h with known := some k, noHolder := none })).hold.state =
      .holding := by
    rw [(setCond_only _ _ _).hold]
    exact holding
  unfold holderRules
  rw [state]

theorem beaconOffered_eq (s : State) (awake : s.halted = false) : (queueBeacon s).wire.control = beaconOffered s := by
  have beacons : (∀ e ∈ s.wire.control, e.body = .beacon → e.inTx = true) ↔
      s.wire.control.any waitingBeacon = false := by
    simp only [List.any_eq_false, waitingBeacon, Bool.and_eq_true, Bool.not_eq_true', decide_eq_true_eq, not_and]
    refine forall₂_congr fun e _ => ⟨fun sent waits body => ?_, fun sent body =>
      Bool.eq_true_of_not_eq_false fun waits => sent waits body⟩
    exact nomatch (sent body).symm.trans waits
  unfold queueBeacon beaconOffered
  simp only [beacons, State.live, offerControl, awake, Bool.false_and]
  by_cases front : s.power.frontEnd = .live
  · cases waits : s.wire.control.any waitingBeacon with
    | true => simp [front]
    | false =>
      by_cases room : s.wire.control.length < 8
      · simp [front, room, Config.controlMax, State.modWire]
      · simp [front, room, Config.controlMax, noteDropped, State.modWire]
  · simp [front]

theorem queueBeacon_dropped (s : State) : ∀ d ∈ (queueBeacon s).wire.dropped, d ∈ s.wire.dropped ∨ d = .beacon := by
  intro d here
  unfold queueBeacon offerControl at here
  split at here
  · split at here
    · simpa [noteDropped] using here
    · split at here
      · exact .inl here
      · simpa [noteDropped] using here
  · exact .inl here

/-- The station as it enters HOLDING, its BEACON not yet queued (R36, R149). -/
def heldLine (s : State) : State :=
  let h := s.modHold fun h =>
    { h with state := .holding, follow := none, deferral := none, contest := none, degraded := false }
  let t := (h.modSup fun u => { u with uplink := [], map := [] }).modReport fun p => { p with queue := [] }
  t.modFault fun m =>
    { m with due := if s.cfg.testInterval = 0 then none else some (s.now + ticks Config.firstTest), rest := 0 }

theorem enterHolding_full (full : s.full = true) : enterHolding s = queueBeacon (enterTraining (heldLine s)) := by
  have there : (heldLine s).full = true := full
  show queueBeacon (if (heldLine s).full then enterTraining (heldLine s) else heldLine s) = _
  rw [if_pos there]

/-- The station once it has entered HOLDING and knows itself: what the command's end then finds. -/
structure TakenLine (s t : State) : Prop where
  only : Only [.wire, .hold, .sup, .fault, .report, .outs] s t
  hold : t.hold = { s.hold with
    state := .holding, follow := none, deferral := none, contest := none, degraded := false
    known := some s.own, noHolder := none }
  supState : t.sup.state = if s.pins.sync then .synced else .training
  inUse : t.sup.inUse = max s.sup.stored s.noise.tracked
  map : t.sup.map = []
  due : t.fault.due = if s.cfg.testInterval = 0 then none else some (s.now + ticks 2000000)
  control : t.wire.control = beaconOffered s
  data : t.wire.data = s.wire.data

theorem enterTraining_map (s : State) : (enterTraining s).sup.map = s.sup.map := by
  rw [enterTraining_cases]
  refine iteInduction (motive := fun t : State => t.sup.map = s.sup.map) (fun _ => ?_) fun _ => rfl
  rw [enterSynced_sup]
  rfl

theorem setCond_due (c : Cond) (b : Bool) (s : State) : (setCond c b s).fault.due = s.fault.due := by
  obtain ⟨r, l, q, eq, -⟩ := setConds_shape (writeCond s.fault.conds c b) s
  rw [setCond, eq]
  rfl

theorem enterTraining_due (s : State) : (enterTraining s).fault.due = s.fault.due := by
  rw [enterTraining_cases]
  exact iteInduction (motive := fun t : State => t.fault.due = s.fault.due) (fun _ => setCond_due _ _ _) fun _ => rfl

theorem queueBeacon_data (s : State) : (queueBeacon s).wire.data = s.wire.data := by
  unfold queueBeacon offerControl
  split
  · split
    · rfl
    · split <;> rfl
  · rfl

/-- The first rules at a claiming station that has entered HOLDING. -/
theorem settleFirst_taken (calm : Calm s) (claiming : s.hold.state = .claiming)
    (unknown : s.hold.known = none) (full : s.full = true) : TakenLine s (settleFirst (enterHolding s)) := by
  let w := enterTraining (heldLine s)
  let v := queueBeacon w
  have f := Calm.first calm
  have only : Only [.hold, .sup, .fault, .report] s (heldLine s) := by
    intro p hp
    cases p <;> first | rfl | exact absurd (by decide) hp
  have trained : Only [.hold, .sup, .fault, .report] s w := (enterTraining_only _).after only (by decide)
  have queued := queueBeacon_only w
  have hold : v.hold = (heldLine s).hold := queued.hold.trans (enterTraining_only _).hold
  have state : v.hold.state = .holding := by rw [hold]; rfl
  have trained_state : w.hold.state = .holding := congrArg Hold.state (enterTraining_only (heldLine s)).hold
  have away : s.holding = false := by simp [State.holding, claiming]
  have now : v.eligibleNow = v.hold.eligible := by
    rw [hold]
    refine (eligibleNow_halted (s := s) (queued.straps.trans trained.straps) (queued.power.trans trained.power) ?_
      (by rw [State.halted, State.halted, state, claiming]; rfl)).trans f.eligible
    rw [State.cond, queued.fault]
    exact enterTraining_absent (heldLine s)
  have computed : v.computeHolder = some s.own := by
    rw [computeHolder_taken (s := s) (by rw [hold]; rfl) (f.holder.trans unknown) away (holding_iff.mpr state),
      State.own, queued.straps, trained.straps, State.own]
  have taken := settleHolder_taken state (by rw [hold]; exact unknown) computed
  have last := setCond_only .noHolder false (v.modHold fun h => { h with known := some s.own, noHolder := none })
  have inert_drops : ∀ d ∈ (settleHolder v).wire.dropped, inert d = true := by
    intro d here
    rw [taken, last.wire, State.modHold_wire] at here
    obtain old | rfl := queueBeacon_dropped w d here
    · rw [trained.wire, Calm.dropped calm] at old
      cases old
    · rfl
  have first : settleFirst (enterHolding s) =
      clearNotices (setCond .noHolder false (v.modHold fun h => { h with known := some s.own, noHolder := none })) := by
    rw [enterHolding_full full, settleFirst, settleEligible_of now,
      settleDegraded_of (by rw [hold]; exact (Bool.and_assoc _ _ _).trans (Bool.and_false _)),
      settleNotices_inert fun d here => droppedNotice_inert _ (inert_drops d here), taken]
  obtain ⟨inUse, -⟩ := enterTraining_read (heldLine s)
  have sup : (settleFirst (enterHolding s)).sup = w.sup := by
    rw [first, (clearNotices_only _).sup, last.sup, State.modHold_sup, queued.sup]
  refine ⟨?_, ?_, ?_, ?_, ?_, ?_, ?_, ?_⟩
  · rw [first]
    exact (clearNotices_only _).after (last.after ((State.modHold_only _ _).after
      (queued.after (trained.mono (by decide)) (by decide)) (by decide)) (by decide)) (by decide)
  · rw [first, (clearNotices_only _).hold, last.hold, State.modHold_hold, hold]
    rfl
  · rw [sup]
    exact (enterTraining_sup (heldLine s)).1
  · rw [sup]
    exact inUse
  · rw [sup]
    exact enterTraining_map (heldLine s)
  · rw [first, (clearNotices_only _).fault, setCond_due, State.modHold_fault, queued.fault]
    exact enterTraining_due (heldLine s)
  · rw [first, clearNotices_control, last.wire, State.modHold_wire]
    refine (beaconOffered_eq w (awake_of_holding (holding_iff.mpr ?_))).trans ?_
    · rw [trained_state]
    · simp only [beaconOffered, trained.power, trained.wire, trained.now]
  · rw [first, clearNotices_data, last.wire, State.modHold_wire, queueBeacon_data, trained.wire]

theorem contestEnd_answers (calm : Calm s) (claiming : s.hold.state = .claiming) (contest : s.hold.contest = some x)
    (due : 20000 ≤ elapsed s.now x) (eligible : s.hold.eligible = true) (unknown : s.hold.known = none) :
    Answers .contestEnd s fun t =>
      t.hold.state = .holding ∧ t.hold.known = some s.own ∧ t.hold.degraded = false ∧
        t.sup.state = (if s.pins.sync then .synced else .training) ∧
        t.sup.inUse = max s.sup.stored s.noise.tracked ∧ t.sup.map = [] ∧
        t.fault.due = (if s.cfg.testInterval = 0 then none else some (s.now + ticks 2000000)) ∧
        t.wire.control = beaconOffered s := by
  have isDue : dueContest s.quiet = true := by
    show (decide (s.hold.state = .claiming) && timerOut s.now s.hold.contest Config.contestTime) = true
    rw [claiming, contest]
    exact decide_eq_true due
  have run : exec .contestEnd s = .next (finish (enterHolding s.quiet)) :=
    congrArg Host.Outcome.next ((running_active calm.active).trans (congrArg finish (if_pos isDue)))
  have taken : TakenLine s.quiet (settleFirst (enterHolding s.quiet)) :=
    settleFirst_taken calm claiming unknown (full_of_eligible calm eligible)
  have holding : (settleFirst (enterHolding s.quiet)).holding = true := by
    rw [State.holding, taken.hold]
    rfl
  have head : headSettled (settleFirst (enterHolding s.quiet)) = true :=
    (headSettled_congr taken.data).trans (Calm.rest calm).head
  have up := staysUp_of_holding holding
  obtain ⟨m, uplink, transfer, sup⟩ := (supSettled_settleRest head).shape
  refine answers_of run ?_
  rw [finish_eq, (settleRest_only up).hold, (settleRest_test up).2, settleRest_holder holding head, sup, taken.hold]
  exact ⟨rfl, rfl, rfl, taken.supState, taken.inUse, taken.map, taken.due, taken.control⟩

end

/-- Settles O40, timer by timer. -/
theorem holdTimers : Obligations.HoldTimers := by
  unfold Obligations.HoldTimers
  refine ⟨fun s x calm => ⟨noHolderTimeout_answers calm, listenTimeout_answers calm⟩, fun s x calm =>
    ⟨fun f passive follow due => claimFollowTimeout_answers calm passive follow due,
      fun seeking deferral eligible _ due room => deferralEnd_answers calm seeking deferral eligible due room,
      contestEnd_answers calm⟩⟩

end Sys2Proof.Machine
end

section
/-! PROOFS. What BEACON, HALT, CLAIM and LASTGASP write into their sender's entry (R24, R25). -/

set_option Elab.async false

namespace Sys2Proof.Machine

open Sys2Proof

section
variable {s t : State} {h : Header} {start : Tick} {c : Instr}

/-! ## The roster through the rules up to the notices -/

theorem roster_settleEligible (s : State) : (settleEligible s).hold.roster = s.hold.roster := by
  unfold settleEligible
  refine iteInduction (motive := fun t : State => t.hold.roster = s.hold.roster) (fun _ => rfl) fun _ => ?_
  have noted : (s.modHold fun h => { h with eligible := s.eligibleNow }).hold.roster = s.hold.roster := rfl
  refine Eq.trans ?_ noted
  generalize s.modHold (fun h => { h with eligible := s.eligibleNow }) = t
  unfold eligibleRules
  split
  · rfl
  · rfl
  · rfl
  · rfl
  · exact iteInduction (motive := fun u : State => u.hold.roster = t.hold.roster)
      (fun _ => by rw [enterYielding_hold]) fun _ => rfl
  · rfl

theorem roster_settleDegraded (s : State) : (settleDegraded s).hold.roster = s.hold.roster :=
  iteInduction (motive := fun t : State => t.hold.roster = s.hold.roster)
    (fun _ => by rw [enterYielding_hold]) fun _ => rfl

theorem roster_holderTiming (old new : Option Nat) (s : State) :
    (holderTiming old new s).hold.roster = s.hold.roster := by
  unfold holderTiming
  split
  · rfl
  · rw [(setCond_only _ _ _).hold]
    rfl
  · rfl

theorem roster_holderRules (s : State) : (holderRules s).hold.roster = s.hold.roster := by
  unfold holderRules
  split
  · exact iteInduction (motive := fun t : State => t.hold.roster = s.hold.roster) (fun _ => rfl) fun _ => rfl
  · rfl
  · rfl
  · rfl
  · rw [(eachRelease_only s).hold]
  · rfl

theorem roster_settleHolder (s : State) : (settleHolder s).hold.roster = s.hold.roster :=
  iteInduction (motive := fun t : State => t.hold.roster = s.hold.roster) (fun _ => rfl)
    fun _ => (roster_holderRules _).trans (roster_holderTiming _ _ _)

theorem roster_droppedNotice (s : State) (b : Body) : (droppedNotice s b).hold.roster = s.hold.roster := by
  unfold droppedNotice
  split
  · exact iteInduction (motive := fun t : State => t.hold.roster = s.hold.roster) (fun _ => rfl) fun _ => rfl
  · refine iteInduction (motive := fun t : State => t.hold.roster = s.hold.roster) (fun _ => ?_) fun _ => rfl
    exact iteInduction (motive := fun t : State => t.hold.roster = s.hold.roster) (fun _ => rfl) fun _ => rfl
  · rw [(Only.eachPort (fun n t => requestDropped_only _ _ n t) s).hold]
  · rfl

theorem roster_settleNotices (s : State) : (settleNotices s).hold.roster = s.hold.roster :=
  foldl_read (P := fun t : State => t.hold.roster) (fun t b => roster_droppedNotice t b) s.wire.dropped (clearNotices s)

theorem roster_settleFirst (s : State) : (settleFirst s).hold.roster = s.hold.roster := by
  rw [settleFirst, roster_settleNotices, roster_settleHolder, roster_settleDegraded, roster_settleEligible]

/-! ## The sender's entry as it was heard (R22, R23) -/

theorem peer_id {id : Nat} {p : Peer} (found : s.peer id = some p) : p.id = id := by
  have named := List.find?_some found
  exact of_decide_eq_true named

/-- A frame's sender has an entry with the hold state the roster takes; holder block and halt code go with it. -/
theorem heardBy_peer (src : Nat) (start : Tick) (hold : Coded HoldState) (s : State) :
    ∃ p, (settleHolder (heardBy src start hold s)).peer src = some p ∧ p.hold = hold ∧
      (hold ≠ .listed .holding → p.block = none) ∧ (hold ≠ .listed .halted → p.halt = none) := by
  have roster : (settleHolder (heardBy src start hold s)).hold.roster = hearIn src start hold s.hold.roster :=
    roster_settleHolder _
  rw [peer_eq, roster]
  obtain ⟨p, -, renewed⟩ | fresh := peerIn_hearIn_same src start hold s.hold.roster
  · exact ⟨_, renewed, rfl, fun away => if_neg away, fun away => if_neg away⟩
  · exact ⟨_, fresh, rfl, fun _ => rfl, fun _ => rfl⟩

/-- An entry rewritten. -/
theorem peer_modPeer {src : Nat} {f : Peer → Peer} (same : ∀ p, (f p).id = p.id) (s : State) :
    (modPeer src f s).peer src = (s.peer src).map f := by
  have found : peerIn src (modPeer src f s).hold.roster =
      (peerIn src s.hold.roster).map fun p => if p.id = src then f p else p :=
    peerIn_map (fun p => by split <;> simp [same]) src s.hold.roster
  rw [peer_eq, peer_eq, found]
  cases there : peerIn src s.hold.roster with
  | none => rfl
  | some p => rw [Option.map_some, Option.map_some, if_pos (peer_id (s := s) there)]

theorem peer_congr {id : Nat} (roster : t.hold.roster = s.hold.roster) : t.peer id = s.peer id := by
  rw [peer_eq, peer_eq, roster]

/-! ## The entry at the end of the command -/

/-- The station before a frame's contents are taken. -/
def beforeContents (c : Instr) (h : Header) (start : Tick) (s : State) : State :=
  settleHolder (heardBy h.src start (heardHold c h.hold) s)

theorem dispatch_contents (us : ForUs s h) (tie : Option (BitVec 16)) :
    dispatch { h with hold := heardHold c h.hold } tie (contents c) start (received s) =
      contents c start (beforeContents c h start s) := by
  obtain ⟨other, addressed⟩ := us
  have away : ¬ h.src = (received s).own := other
  have here : h.dst = 0 ∨ h.dst = (received s).own := addressed
  unfold dispatch
  rw [if_neg away, if_pos here]
  rfl

theorem exec_heard (calm : Calm s) (hear : Hearing s start) (us : ForUs s h) (hc : frameHeader c = some h) :
    exec c s = .next (finish (contents c start (beforeContents c h start s))) := by
  rw [exec_contents s hc, frame_heard _ _ calm.active hear, dispatch_contents us]

/-- What the contents leave of the inputs and of the power. -/
theorem awake_contents (awake : Awake s) (us : ForUs s h) (hc : frameHeader c = some h) :
    Awake (settleFirst (contents c start (beforeContents c h start s))) := by
  have kept := (heardKept_dispatch (start := start) (s := s) hc us.1 (frameTie c)).trans (heardKept_settleFirst _)
  rw [dispatch_contents us] at kept
  rw [Awake, kept.power, kept.pins]
  exact awake

/-- Where it sends no station to WATCH the end of the command leaves the roster that the contents wrote. -/
theorem roster_finish_contents (awake : Awake s) (us : ForUs s h) (hc : frameHeader c = some h) :
    (finish (contents c start (beforeContents c h start s))).hold.roster =
      (contents c start (beforeContents c h start s)).hold.roster := by
  rw [finish_eq, (settleRest_only (staysUp_of_awake (awake_contents awake us hc))).hold, roster_settleFirst]

theorem roster_keeperRule (src : Nat) (x : Coded HoldState) (m : BeaconMsg) (s : State) :
    (keeperRule src x m s).hold.roster = s.hold.roster :=
  iteInduction (motive := fun t : State => t.hold.roster = s.hold.roster)
    (fun _ => by rw [enterYielding_hold]) fun _ => rfl

theorem roster_claimHeard (src : Nat) (x : BitVec 16) (s : State) : (claimHeard src x s).hold.roster =
    (modPeer src (fun p => { p with tiebreak := some x }) s).hold.roster := by
  have follows (f : Follow) (u : State) : (enterPassive (some f) u).hold.roster = u.hold.roster := rfl
  unfold claimHeard
  dsimp only
  split
  · exact follows _ _
  · split
    · exact follows _ _
    · rfl
  · split
    · split
      · exact follows _ _
      · rfl
    · rfl
  · rfl

/-- What a sender's entry holds at the end of the command that hears a frame whose contents rewrite it. -/
theorem entry_answers {f : Peer → Peer} {P : Option Peer → Prop} (calm : Calm s) (awake : Awake s)
    (hear : Hearing s start) (us : ForUs s h) (hc : frameHeader c = some h) (same : ∀ p, (f p).id = p.id)
    (writes : (contents c start (beforeContents c h start s)).hold.roster =
      (modPeer h.src f (beforeContents c h start s)).hold.roster)
    (read : ∀ p, p.hold = heardHold c h.hold → (heardHold c h.hold ≠ .listed .holding → p.block = none) →
      (heardHold c h.hold ≠ .listed .halted → p.halt = none) → P (some (f p))) :
    Answers c s fun t => P (t.peer h.src) := by
  refine answers_of (exec_heard calm hear us hc) ?_
  obtain ⟨p, found, hold, block, halt⟩ := heardBy_peer h.src start (heardHold c h.hold) s
  have before : (beforeContents c h start s).peer h.src = some p := found
  rw [peer_congr ((roster_finish_contents awake us hc).trans writes), peer_modPeer same, before]
  exact read p hold block halt

end

/-! ## O23 -/

theorem gasped_power (p : Peer) : p.gasped.part.map (·.power) = some (.listed .stop) := by
  unfold Peer.gasped goneStop
  cases p.part <;> rfl

/-- Settles O23, frame by frame. -/
theorem contentsWrittenToRoster : Obligations.ContentsWrittenToRoster := by
  unfold Obligations.ContentsWrittenToRoster
  intro s h start calm awake hear us
  refine ⟨fun m => ?_, fun m => ?_, fun x => ?_, fun m => ?_⟩
  · refine entry_answers (c := .beacon h m) (f := Peer.beaconed h.hold m)
      (P := fun e => e.map (fun p => (p.tiebreak, p.part, p.block)) = some (some m.fixed.tiebreak,
        some ⟨m.fixed.power, m.fixed.modem, m.fixed.eligible, m.fixed.cls, m.fixed.holdTime⟩,
        if h.hold = .listed .holding then m.holder else none)) calm awake hear us rfl (fun _ => rfl) ?_
      fun p _ block _ => ?_
    · exact (roster_keeperRule _ _ _ _).trans (by rw [(takeTracks_only _ _ _ _).hold])
    · have written : (p.beaconed h.hold m).block = if h.hold = .listed .holding then m.holder else none := by
        show (if h.hold = .listed .holding then m.holder else p.block) = _
        split
        · rfl
        · next away => exact block away
      rw [Option.map_some, written]
      rfl
  · refine entry_answers (c := .halt h m) (f := Peer.haltHeard m)
      (P := fun e => e.map (fun p => (p.tiebreak, p.part, p.halt)) = some (some m.fixed.tiebreak,
        some ⟨m.fixed.power, m.fixed.modem, m.fixed.eligible, m.fixed.cls, m.fixed.holdTime⟩,
        if h.hold = .listed .halted then some m.code else none)) calm awake hear us rfl (fun _ => rfl) rfl
      fun p hold _ _ => ?_
    have announced : p.hold = h.hold := hold
    rw [← announced]
    rfl
  · exact entry_answers (c := .claim h x) (f := fun p => { p with tiebreak := some x })
      (P := fun e => e.map (·.tiebreak) = some (some x)) calm awake hear us rfl (fun _ => rfl)
      (roster_claimHeard _ _ _) fun _ _ _ _ => rfl
  · refine entry_answers (c := .lastgasp h m) (f := Peer.gasped)
      (P := fun e => e.map (fun p => (p.part.map (·.power), p.block)) = some (some (.listed .stop), none))
      calm awake hear us rfl (fun _ => rfl) ?_ fun p _ _ _ => congrArg some (Prod.ext (gasped_power p) rfl)
    show (if m.held then adoptProfile _ (takeTracks _ _ _ (takeGasp _ _)) else takeGasp _ _).hold.roster = _
    refine iteInduction (motive := fun t : State => t.hold.roster = _) (fun _ => ?_) fun _ => ?_
    · rw [(adoptProfile_only _ _).hold, (takeTracks_only _ _ _ _).hold, (takeGasp_only _ _).hold]
    · rw [(takeGasp_only _ _).hold]

end Sys2Proof.Machine
end

section
/-! PROOFS. A CLAIM heard where no holder is known (R24, R33 to R35): what each hold state does with it. -/

set_option Elab.async false

namespace Sys2Proof.Machine

open Sys2Proof

section
variable {s t v : State} {h : Header} {start : Tick} {x : BitVec 16}

/-! ## No holder in the roster (R28) -/

theorem rosterCandidates_nil {l : List Peer} :
    rosterCandidates l = [] ↔ ∀ p ∈ l, p.hold ≠ .listed .holding := by
  simp [rosterCandidates, List.filter_eq_nil_iff]

theorem hold_of_mem_hearIn {id : Nat} {hold : Coded HoldState} {p : Peer} : ∀ {l : List Peer},
    p ∈ hearIn id start hold l → p ∈ l ∨ p.hold = hold
  | [], here => .inr (by rw [List.mem_singleton.mp here]; rfl)
  | q :: l, here => by
    unfold hearIn at here
    split at here
    · obtain rfl | rest := List.mem_cons.mp here
      · exact .inr rfl
      · exact .inl (List.mem_cons_of_mem _ rest)
    · split at here
      · obtain rfl | rest := List.mem_cons.mp here
        · exact .inr rfl
        · exact .inl rest
      · obtain rfl | rest := List.mem_cons.mp here
        · exact .inl List.mem_cons_self
        · exact (hold_of_mem_hearIn rest).imp_left (List.mem_cons_of_mem _)

/-- No station of the roster holds the line, and the station itself does not. -/
structure Unheld (s : State) : Prop where
  away : s.holding = false
  roster : ∀ p ∈ s.hold.roster, p.hold ≠ .listed .holding

theorem Unheld.computeHolder (none_holds : Unheld s) : s.computeHolder = none := by
  rw [State.computeHolder, candidates_eq, rosterCandidates_nil.mpr none_holds.roster, none_holds.away]
  rfl

theorem unheld_of_unknown (calm : Calm s) (unknown : s.hold.known = none) : Unheld s := by
  have computed : s.computeHolder = none := (Calm.first calm).holder.trans unknown
  have empty := keeper_nil_iff.mp computed
  rw [candidates_eq, List.append_eq_nil_iff] at empty
  refine ⟨?_, rosterCandidates_nil.mp empty.1⟩
  cases holding : s.holding with
  | false => rfl
  | true =>
    have alone := empty.2
    rw [holding] at alone
    cases alone

theorem Unheld.heardNow (none_holds : Unheld s) (away : h.hold ≠ .listed .holding) :
    Unheld (heardNow h start s) := by
  refine ⟨none_holds.away, fun p here => ?_⟩
  obtain old | fresh := hold_of_mem_hearIn (l := s.hold.roster) here
  · exact none_holds.roster p old
  · rw [fresh]
    exact away

/-! ## A CLAIM at the hold controller -/

/-- The hold controller with the tiebreak of a CLAIM in its sender's entry (R24). -/
def Hold.told (src : Nat) (x : BitVec 16) (h : Hold) : Hold :=
  { h with roster := h.roster.map fun p => if p.id = src then { p with tiebreak := some x } else p }

/-- The hold controller as it follows a claim (R33 to R35). -/
def Hold.follows (src : Nat) (now : Tick) (h : Hold) : Hold :=
  { h with state := .passive, follow := some ⟨src, now⟩, contest := none, listen := none, deferral := none }

/-- The hold controller after a CLAIM of station `src` (R24, R33 to R35). -/
def Hold.claimed (own src : Nat) (x : BitVec 16) (now : Tick) (h : Hold) : Hold :=
  match h.state with
  | .seeking => (h.told src x).follows src now
  | .claiming => if src < own then (h.told src x).follows src now else h.told src x
  | .passive =>
    match h.follow with
    | some f => if src < f.id then (h.told src x).follows src now else h.told src x
    | none => h.told src x
  | _ => h.told src x

section
variable (own src : Nat) (x : BitVec 16) (now : Tick) {h : Hold}

theorem claimed_seeking (state : h.state = .seeking) : h.claimed own src x now = (h.told src x).follows src now := by
  rw [Hold.claimed, state]

theorem claimed_claiming (state : h.state = .claiming) : h.claimed own src x now =
    if src < own then (h.told src x).follows src now else h.told src x := by
  rw [Hold.claimed, state]

theorem claimed_passive {f : Follow} (state : h.state = .passive) (follow : h.follow = some f) :
    h.claimed own src x now = if src < f.id then (h.told src x).follows src now else h.told src x := by
  rw [Hold.claimed, state, follow]

theorem claimed_other (state : h.state = .listen ∨ h.state = .yielding ∨ h.state = .halted) :
    h.claimed own src x now = h.told src x := by
  obtain listening | yielding | halted := state
  · rw [Hold.claimed, listening]
  · rw [Hold.claimed, yielding]
  · rw [Hold.claimed, halted]

end

theorem claimHeard_eq (src : Nat) (x : BitVec 16) (s : State) :
    claimHeard src x s = s.modHold (Hold.claimed s.own src x s.now) := by
  have taken (q : Hold) (eq : s.hold.claimed s.own src x s.now = q) :
      { s with hold := q } = s.modHold (Hold.claimed s.own src x s.now) := by
    rw [State.modHold, eq]
  unfold claimHeard
  dsimp only
  split
  · next state => exact taken _ (claimed_seeking _ _ _ _ state)
  · next state =>
    have claiming := claimed_claiming s.own src x s.now (h := s.hold) state
    split
    · next below => exact taken _ (claiming.trans (if_pos below))
    · next above => exact taken _ (claiming.trans (if_neg above))
  · next state =>
    split
    · next f follow =>
      have passive := claimed_passive s.own src x s.now (h := s.hold) state follow
      split
      · next below => exact taken _ (passive.trans (if_pos below))
      · next above => exact taken _ (passive.trans (if_neg above))
    · next follow =>
      have state' : s.hold.state = .passive := state
      have follow' : s.hold.follow = none := follow
      exact taken _ (by rw [Hold.claimed, state', follow']; rfl)
  · next seeking claiming passive =>
    refine taken _ ?_
    have seeking' : s.hold.state ≠ .seeking := seeking
    have claiming' : s.hold.state ≠ .claiming := claiming
    have passive' : s.hold.state ≠ .passive := passive
    unfold Hold.claimed
    split
    · next state => exact absurd state seeking'
    · next state => exact absurd state claiming'
    · next state => exact absurd state passive'
    · rfl

/-- A CLAIM writes the sender's tiebreak, and the hold state and its timers at most. -/
theorem claimed_kept (own src : Nat) (x : BitVec 16) (now : Tick) (h : Hold) :
    (h.claimed own src x now).eligible = h.eligible ∧ (h.claimed own src x now).known = h.known ∧
      (h.claimed own src x now).lost = h.lost ∧ (h.claimed own src x now).roster =
        h.roster.map fun p => if p.id = src then { p with tiebreak := some x } else p := by
  unfold Hold.claimed
  split
  · exact ⟨rfl, rfl, rfl, rfl⟩
  · split <;> exact ⟨rfl, rfl, rfl, rfl⟩
  · split
    · split <;> exact ⟨rfl, rfl, rfl, rfl⟩
    · exact ⟨rfl, rfl, rfl, rfl⟩
  · exact ⟨rfl, rfl, rfl, rfl⟩

theorem claimed_state (own src : Nat) (x : BitVec 16) (now : Tick) (h : Hold) :
    (h.claimed own src x now).state = h.state ∨
      ((h.claimed own src x now).state = .passive ∧ h.state ≠ .halted ∧ h.state ≠ .holding) := by
  unfold Hold.claimed
  split
  · next state => exact .inr ⟨rfl, by rw [state]; nofun, by rw [state]; nofun⟩
  · next state =>
    split
    · exact .inr ⟨rfl, by rw [state]; nofun, by rw [state]; nofun⟩
    · exact .inl rfl
  · next state =>
    split
    · split
      · exact .inl state.symm
      · exact .inl rfl
    · exact .inl rfl
  · exact .inl rfl

theorem Unheld.claimed (none_holds : Unheld s) (own src : Nat) (now : Tick) :
    Unheld (s.modHold (Hold.claimed own src x now)) := by
  obtain ⟨-, -, -, roster⟩ := claimed_kept own src x now s.hold
  refine ⟨?_, fun p here => ?_⟩
  · have away : s.hold.state ≠ .holding := of_decide_eq_false none_holds.away
    obtain same | ⟨passive, -⟩ := claimed_state own src x now s.hold
    · show decide ((s.hold.claimed own src x now).state = .holding) = false
      rw [same]
      exact none_holds.away
    · show decide ((s.hold.claimed own src x now).state = .holding) = false
      rw [passive]
      rfl
  · rw [State.modHold_hold, roster] at here
    obtain ⟨q, mem, rfl⟩ := List.mem_map.mp here
    have before := none_holds.roster q mem
    split
    · exact before
    · exact before

/-! ## The end of the command -/

/-- The station as it has taken a CLAIM. -/
def claimTaken (h : Header) (x : BitVec 16) (start : Tick) (s : State) : State :=
  (heardNow h start s).modHold (Hold.claimed s.own h.src x s.now)

theorem exec_claim (calm : Calm s) (hear : Hearing s start) (us : ForUs s h) (unknown : s.hold.known = none)
    (away : h.hold ≠ .listed .holding) : exec (.claim h x) s = .next (finish (claimTaken h x start s)) := by
  have heard : heardBy h.src start (heardHold (.claim h x) h.hold) s = heardNow h start s := rfl
  have same : settleHolder (heardNow h start s) = heardNow h start s :=
    settleHolder_of (((unheld_of_unknown calm unknown).heardNow away).computeHolder.trans unknown.symm)
  rw [exec_heard calm hear us rfl, beforeContents, heard, same]
  exact congrArg (fun w => Host.Outcome.next (finish w)) (claimHeard_eq h.src x (heardNow h start s))

theorem claimTaken_first (calm : Calm s) (unknown : s.hold.known = none) (away : h.hold ≠ .listed .holding) :
    FirstSettled (claimTaken h x start s) := by
  have f := Calm.first calm
  have unheld : Unheld (claimTaken h x start s) :=
    ((unheld_of_unknown calm unknown).heardNow away).claimed s.own h.src s.now
  obtain ⟨eligible, known, -, -⟩ := claimed_kept s.own h.src x s.now (heardNow h start s).hold
  refine .of_none ?_ ?_ ?_ (Calm.dropped (s := s) calm)
  · refine (eligibleNow_halted (s := s) (t := claimTaken h x start s) rfl rfl rfl ?_).trans (f.eligible.trans eligible.symm)
    show decide ((Hold.claimed s.own h.src x s.now (heardNow h start s).hold).state = .halted) = _
    obtain same | ⟨passive, awake, -⟩ := claimed_state s.own h.src x s.now (heardNow h start s).hold
    · rw [same]
      rfl
    · rw [passive]
      exact (decide_eq_false awake).symm
  · rw [unheld.away, Bool.false_and, Bool.false_and]
  · exact unheld.computeHolder.trans (known.trans unknown).symm

theorem claimTaken_staysUp (awake : Awake s) : StaysUp (claimTaken h x start s) :=
  staysUp_of_awake (s := claimTaken h x start s) awake

theorem finish_claim_hold (calm : Calm s) (awake : Awake s) (unknown : s.hold.known = none)
    (away : h.hold ≠ .listed .holding) : (finish (claimTaken h x start s)).hold =
      Hold.claimed s.own h.src x s.now (heardNow h start s).hold :=
  (finish_kept (claimTaken_first calm unknown away) (claimTaken_staysUp awake)).1

/-! ## A CLAIM that changes no hold state -/

/-- Where nothing of the supervisor, the call and the idle timer is left to settle, the rules after the notices leave
them away from the line. -/
theorem settleRest_still (up : StaysUp v) (head : headSettled v = true) (away : v.holding = false)
    (idle : idleSettled v = true) (transfer : transferSettled v = true) (outpulse : outpulseSettled v = true)
    (loss : lossSettled v = true) : Only [.wire, .ports, .fault, .report, .outs] v (settleRest v) := by
  have middle : Only [.power, .fault, .report] v (settleMiddle v) := by
    rw [settleMiddle_staysUp up, settleDataHead_of head]
    exact (State.modPower_only _ _).after ((settleConds_only v).mono (by decide)) (by decide)
  have reports : Only [.power, .wire, .fault, .report] v (settleReports (settleMiddle v)) :=
    (settleReports_only _).after (middle.mono (by decide)) (by decide)
  have still : (settleReports (settleMiddle v)).holding = false := by
    rw [State.holding, reports.hold]
    exact away
  have offered : mailboxOffer (settleReports (settleMiddle v)) = settleReports (settleMiddle v) :=
    mailboxOffer_of (by rw [offerSettled, still, Bool.false_and, Bool.false_and, Bool.not_false, Bool.or_true])
  have begun : startTransfer (settleReports (settleMiddle v)) = settleReports (settleMiddle v) :=
    startTransfer_of ((transferSettled_congr reports.sup reports.pins).trans transfer)
  have dialled : startOutpulse (settleReports (settleMiddle v)) = settleReports (settleMiddle v) :=
    startOutpulse_of ((outpulseSettled_congr reports.call).trans outpulse)
  have closed : settleLoss (settleReports (settleMiddle v)) = settleReports (settleMiddle v) :=
    settleLoss_of ((lossSettled_congr reports.call reports.pins).trans loss)
  have rest : Only [.power, .wire, .ports, .fault, .report] v (settleRest v) := by
    rw [settleRest, settleLater, offered, begun, dialled, closed]
    exact (clearNotices_only _).after ((settleTones_only _).after ((settleLamp_only _).after
      (reports.mono (by decide)) (by decide)) (by decide)) (by decide)
  have power : (settleRest v).power = v.power := by
    rw [settleRest_power up]
    rw [idleSettled] at idle
    cases holds : v.idleHolds with
    | true =>
      rw [holds, if_pos rfl, Bool.and_eq_true] at idle
      obtain ⟨since, timed⟩ := Option.isSome_iff_exists.mp idle.2
      rw [if_pos rfl, timed]
      show { v.power with idle := some since } = v.power
      rw [← timed]
    | false =>
      rw [holds, if_neg (by decide), Option.isNone_iff_eq_none] at idle
      rw [if_neg (by decide), ← idle]
  intro p hp
  by_cases here : p = .power
  · subst here
    exact power
  · refine rest p fun mem => hp ?_
    revert mem here
    cases p <;> decide

theorem portIdle_feedHolder (src : Nat) (now : Tick) (p : Port) : portIdle (feedHolder src now p) = portIdle p := by
  obtain ⟨y, fed⟩ := feedHolder_eq src now p
  rw [fed]
  rfl

/-- In YIELDING and in HALTED a CLAIM leaves all but the roster, the lost set and what follows from them. -/
theorem finish_claim_still (calm : Calm s) (awake : Awake s) (unknown : s.hold.known = none)
    (away : h.hold ≠ .listed .holding) (state : s.hold.state = .yielding ∨ s.hold.state = .halted) :
    (finish (claimTaken h x start s)).wire = { s.wire with rx := none } ∧
      Only [.pins, .wire, .hold, .ports, .fault, .report, .outs] s (finish (claimTaken h x start s)) := by
  let w := clearNotices (claimTaken h x start s)
  have rest := Calm.rest calm
  have unheld : Unheld (claimTaken h x start s) :=
    ((unheld_of_unknown calm unknown).heardNow away).claimed s.own h.src s.now
  obtain ⟨-, known, -, -⟩ := claimed_kept s.own h.src x s.now (heardNow h start s).hold
  have same : w.hold.state = s.hold.state := by
    obtain kept | ⟨-, awake, -⟩ := claimed_state s.own h.src x s.now (heardNow h start s).hold
    · exact kept
    · show (Hold.claimed s.own h.src x s.now (heardNow h start s).hold).state = _
      rw [claimed_other _ _ _ _ (h := (heardNow h start s).hold) (.inr state)]
      rfl
  have idles : w.idleHolds = s.idleHolds := by
    show (decide (s.power.state = .battery) && s.live && portIdle (feedHolder h.src s.now s.ports.one) &&
      portIdle (feedHolder h.src s.now s.ports.two) && !(decide (w.hold.state = .holding) ||
        decide (w.hold.state = .claiming) || decide (w.hold.state = .yielding))) = s.idleHolds
    rw [portIdle_feedHolder, portIdle_feedHolder, same]
    rfl
  have idle : idleSettled w = true := by
    have settled := rest.idle
    rw [idleSettled] at settled ⊢
    rw [idles]
    exact settled
  have up : StaysUp w := claimTaken_staysUp (h := h) (x := x) (start := start) awake
  rw [finish_eq, settleFirst_of (claimTaken_first calm unknown away)]
  constructor
  · rw [settleRest_wire_unknown (v := w) up rest.head unheld.away (known.trans unknown)]
    show { s.wire with rx := none, dropped := [] } = { s.wire with rx := none }
    rw [← Calm.dropped calm]
  · have heard : Only [.pins, .wire, .hold, .ports, .outs] s w :=
      (clearNotices_only _).after ((State.modHold_only _ _).after ((heardNow_only h start s).mono (by decide))
        (by decide)) (by decide)
    exact (settleRest_still (v := w) up rest.head unheld.away idle rest.transfer rest.outpulse rest.loss).after
      (heard.mono (by decide)) (by decide)

end

/-- Settles O24: with no holder known the command's end keeps what the hold state made of the CLAIM. -/
theorem claimJudgedByHoldState : Obligations.ClaimJudgedByHoldState := by
  unfold Obligations.ClaimJudgedByHoldState
  intro s h x start calm awake hear us unknown away
  have hold := finish_claim_hold (x := x) (start := start) calm awake unknown away
  refine answers_of (exec_claim calm hear us unknown away) ?_
  refine ⟨fun listening => ?_, fun seeking => ?_, fun claiming below => ?_, fun claiming above => ?_,
    fun f passive follow => ?_, fun state => ?_⟩
  · rw [hold, claimed_other _ _ _ _ (h := (heardNow h start s).hold) (.inl listening)]
    exact listening
  · rw [hold, claimed_seeking _ _ _ _ (h := (heardNow h start s).hold) seeking]
    exact ⟨rfl, rfl, rfl⟩
  · rw [hold, claimed_claiming _ _ _ _ (h := (heardNow h start s).hold) claiming, if_pos below]
    exact ⟨rfl, rfl, rfl⟩
  · rw [hold, claimed_claiming _ _ _ _ (h := (heardNow h start s).hold) claiming, if_neg (Nat.not_lt.mpr above.le)]
    exact ⟨claiming, rfl⟩
  · rw [hold, claimed_passive _ _ _ _ (h := (heardNow h start s).hold) passive follow]
    by_cases below : h.src < f.id
    · rw [if_pos below, if_pos below]
      exact ⟨rfl, rfl⟩
    · rw [if_neg below, if_neg below]
      exact ⟨passive, follow⟩
  · obtain ⟨wire, only⟩ := finish_claim_still (x := x) (start := start) calm awake unknown away state
    obtain ⟨p, found, heard, -, -⟩ := heardBy_peer h.src start h.hold s
    have roster : (finish (claimTaken h x start s)).hold.roster =
        (modPeer h.src (fun p => { p with tiebreak := some x }) (settleHolder (heardBy h.src start h.hold s))).hold.roster := by
      obtain ⟨-, -, -, written⟩ := claimed_kept s.own h.src x s.now (heardNow h start s).hold
      rw [hold, written]
      exact congrArg (List.map _) (roster_settleHolder (heardNow h start s)).symm
    refine ⟨?_, ?_, wire, only⟩
    · rw [hold, claimed_other _ _ _ _ (h := (heardNow h start s).hold) (.inr state)]
      rfl
    · rw [peer_congr roster, peer_modPeer (f := fun p => { p with tiebreak := some x }) (fun _ => rfl), found]
      show some (p.hold, some x) = _
      rw [heard]

end Sys2Proof.Machine
end

section
/-! PROOFS. The keeper rule (R28, R39): which of two holders keeps the line, and the one that leaves it. -/

set_option Elab.async false

namespace Sys2Proof.Machine

open Sys2Proof

section
variable {s t e w : State} {h : Header} {start : Tick} {k : ClearCause}

/-! ## The keeper of a list of candidates -/

theorem keeper_none_calls {cs : List (Nat × Bool)} (none_calls : ∀ i, (i, true) ∉ cs) : keeper cs = lowestId cs := by
  have empty : cs.filter (·.2) = [] := List.filter_eq_nil_iff.mpr fun c here calls =>
    none_calls c.1 (by rw [← calls]; exact here)
  rw [keeper, empty]
  rfl

theorem keeper_calls {cs : List (Nat × Bool)} {i : Nat} (calls : (i, true) ∈ cs) :
    keeper cs = lowestId (cs.filter (·.2)) := by
  have there : (i, true) ∈ cs.filter (·.2) := List.mem_filter.mpr ⟨calls, rfl⟩
  unfold keeper
  cases lowest : lowestId (cs.filter (·.2)) with
  | none => exact absurd (lowestId_none.mp lowest ▸ there) List.not_mem_nil
  | some j => rfl

/-- Of two stations the one in an outside call keeps the line, else the one with the lower id. -/
theorem keeper_pair {i j : Nat} (differ : j ≠ i) (a b : Bool) :
    keeper [(i, a), (j, b)] ≠ some i ↔ (b = true ∧ a = false) ∨ (b = a ∧ j < i) := by
  have lowest : lowestId [(i, a), (j, b)] = some (min i j) := rfl
  cases a <;> cases b
  · rw [show keeper [(i, false), (j, false)] = some (min i j) from lowest]
    simp only [ne_eq, Option.some.injEq, Bool.false_eq_true, false_and, false_or, true_and]
    omega
  · rw [show keeper [(i, false), (j, true)] = some j from rfl]
    simp [differ]
  · rw [show keeper [(i, true), (j, false)] = some i from rfl]
    simp
  · rw [show keeper [(i, true), (j, true)] = some (min i j) from rfl]
    simp only [ne_eq, Option.some.injEq, Bool.true_eq_false, and_false, false_or, true_and]
    omega

theorem keeper_among (cs : List (Nat × Bool)) :
    (cs = [] → keeper cs = none) ∧
      (∀ i b, (i, b) ∈ cs → ∃ j, keeper cs = some j ∧ (∃ c, (j, c) ∈ cs ∧
        ((∃ k, (k, true) ∈ cs) → (j, true) ∈ cs ∧ (b = true → j ≤ i)) ∧ ((∀ k, (k, true) ∉ cs) → j ≤ i))) := by
  refine ⟨fun empty => keeper_nil_iff.mpr empty, fun i b here => ?_⟩
  by_cases calling : ∃ k, (k, true) ∈ cs
  · obtain ⟨k, calls⟩ := calling
    cases lowest : lowestId (cs.filter (·.2)) with
    | none =>
      have there : (k, true) ∈ cs.filter (·.2) := List.mem_filter.mpr ⟨calls, rfl⟩
      exact absurd (lowestId_none.mp lowest ▸ there) List.not_mem_nil
    | some j =>
      obtain ⟨listed, least⟩ := lowestId_some.mp lowest
      obtain ⟨c, mem, rfl⟩ := List.mem_map.mp listed
      obtain ⟨mem', calls'⟩ := List.mem_filter.mp mem
      have j_calls : (c.1, true) ∈ cs := by rw [← calls']; exact mem'
      refine ⟨c.1, (keeper_calls calls).trans lowest, true, j_calls, fun _ => ⟨j_calls, fun b_calls => ?_⟩,
        fun none_calls => absurd calls (none_calls k)⟩
      subst b_calls
      exact least i (List.mem_map.mpr ⟨(i, true), List.mem_filter.mpr ⟨here, rfl⟩, rfl⟩)
  · have none_calls : ∀ k, (k, true) ∉ cs := fun k calls => calling ⟨k, calls⟩
    cases lowest : lowestId cs with
    | none => exact absurd (lowestId_none.mp lowest ▸ here) List.not_mem_nil
    | some j =>
      obtain ⟨listed, least⟩ := lowestId_some.mp lowest
      obtain ⟨c, mem, rfl⟩ := List.mem_map.mp listed
      exact ⟨c.1, (keeper_none_calls none_calls).trans lowest, c.2, mem, fun calls => absurd calls calling,
        fun _ => least i (List.mem_map.mpr ⟨(i, b), here, rfl⟩)⟩

/-! ## A holder that leaves the line (R40) -/

/-- A holder without a record whose other rules but the known holder's are settled, with room for its YIELD. -/
structure Leaving (s : State) : Prop where
  eligible : s.eligibleNow = s.hold.eligible
  holding : s.holding = true
  record : s.call.record = none
  known : s.hold.known.isSome = true
  head : headSettled s = true
  dropped : ∀ d ∈ s.wire.dropped, inert d = true
  room : s.wire.control.length < 8

/-- What such a holder has become at the end of the command. -/
structure LeftFor (s t : State) : Prop extends Yielded s t where
  map : t.sup.map = []
  test : t.fault.test = none
  due : t.fault.due = none

theorem leaveHolding_none_read (record : s.call.record = none) : (leaveHolding none s).sup.map = [] ∧
    (leaveHolding none s).fault.test = none ∧ (leaveHolding none s).fault.due = none := by
  have ended : endRecord none s = s := by rw [endRecord, record]
  unfold leaveHolding
  rw [ended]
  exact ⟨rfl, rfl, rfl⟩

/-- The first rules at a holder that leaves the line. -/
theorem settleFirst_leaving (l : Leaving s) : ∃ k x, settleFirst (enterYielding none s) =
    clearNotices ((enterYielding none s).modHold fun q => { q with known := k, noHolder := x }) := by
  have state := enterYielding_state s
  have kept := eligibleKept_enterYielding none l.holding
  have settled : settleDegraded (enterYielding none s) = enterYielding none s :=
    settleDegraded_of (by rw [State.holding, state]; rfl)
  obtain ⟨k, x, noted⟩ := settleHolder_yielding state (by rw [enterYielding_known]; exact l.known)
  have wire : (settleHolder (enterYielding none s)).wire.dropped = s.wire.dropped := by
    rw [noted, enterYielding_eq l.record l.room]
    show (leaveHolding none s).wire.dropped = _
    rw [leaveHolding_wire]
  refine ⟨k, x, ?_⟩
  rw [settleFirst, settleEligible_of (kept.now.trans (l.eligible.trans kept.noted.symm)), settled,
    settleNotices_inert fun d here => droppedNotice_inert _ (l.dropped d (by rwa [wire] at here)), noted]

theorem finish_leaving (l : Leaving s) : LeftFor s (finish (enterYielding none s)) := by
  obtain ⟨leaves, off, queue⟩ := leaveHolding_read l.record
  obtain ⟨map, test, due⟩ := leaveHolding_none_read l.record
  obtain ⟨k, x, first⟩ := settleFirst_leaving l
  rw [enterYielding_eq l.record l.room] at first ⊢
  rw [finish_eq, first]
  generalize hv : clearNotices ((((leftLine s).modWire fun w =>
    { w with control := s.wire.control ++ [newEntry (some 0) .yield s.now] })).modHold fun q =>
      { q with known := k, noHolder := x }) = v
  have state : v.hold.state = .yielding := by rw [← hv]; rfl
  have sup : v.sup = (leaveHolding none s).sup := by rw [← hv]; rfl
  have fault : v.fault = (leaveHolding none s).fault := by rw [← hv]; rfl
  have control : v.wire.control = s.wire.control ++ [newEntry (some 0) .yield s.now] := by rw [← hv]; rfl
  have ports : v.ports = s.ports := by
    rw [← leaves.ports, ← hv]
    rfl
  have head : headSettled v = true := by
    refine (headSettled_congr (s := s) ?_).trans l.head
    rw [← hv]
    show (leaveHolding none s).wire.data = s.wire.data
    rw [leaves.wire]
  have up : StaysUp v := fun idle => by simp [State.idleHolds, state] at idle
  obtain ⟨record, hold, off', queue', kept⟩ := settleRest_yielding state head (by rw [sup]; exact off)
    (by rw [← hv]; exact queue) (by
      rw [← hv]
      show (leaveHolding none s).call.record = none
      rw [leaves.call]
      exact l.record)
  rw [control] at kept
  have same := (supSettled_settleRest head).away (by rw [sup, off]; nofun)
  obtain ⟨test', due'⟩ := settleRest_test up
  refine ⟨⟨record, by rw [hold, state], by rw [hold, ← hv]; rfl, off', queue',
    kept _ (List.mem_append_right _ (List.mem_singleton.mpr rfl)) nofun,
    fun e here body => kept e (List.mem_append_left _ here) body, fun n dial stutter => ?_⟩, ?_, ?_, ?_⟩
  · have port := port_congr ports n
    rw [settleRest_port_of_tone (by rw [port]; exact dial) (by rw [port]; exact stutter), port]
  · rw [same, sup, map]
  · rw [test', fault, test]
  · rw [due', fault, due]

/-! ## A record that ends with the line (R40, R122) -/

theorem enterYielding_endRecord (k : ClearCause) (s : State) :
    enterYielding (some k) s = enterYielding none (endRecord (some k) s) := by
  have ended : (endRecord (some k) s).call.record = none := by
    unfold endRecord
    split
    · exact clearParties_record _ _ _ _
    · next none_there => exact none_there
  have twice : endRecord none (endRecord (some k) s) = endRecord (some k) s := by
    generalize endRecord (some k) s = e at ended ⊢
    rw [endRecord, ended]
  rw [enterYielding, enterYielding, leaveHolding, leaveHolding, twice]

/-- What the end of a record leaves to a holder that leaves the line with it. -/
theorem leaving_endRecord (settled : s.eligibleNow = s.hold.eligible) (holding : s.holding = true)
    (known : s.hold.known.isSome = true) (head : headSettled s = true) (dropped : ∀ d ∈ s.wire.dropped, inert d = true)
    (short : s.wire.control.length ≤ 4) (few : ∀ r, s.call.record = some r → r.parties.length ≤ 3) :
    Leaving (endRecord (some k) s) := by
  have only := endRecord_only (some k) s
  have awake := awake_of_holding holding
  have wire : (endRecord (some k) s).wire.data = s.wire.data ∧
      (∀ d ∈ (endRecord (some k) s).wire.dropped, inert d = true) ∧
        (endRecord (some k) s).wire.control.length < 8 ∧ (endRecord (some k) s).call.record = none := by
    cases there : s.call.record with
    | none =>
      have same : endRecord (some k) s = s := by rw [endRecord, there]
      rw [same]
      exact ⟨rfl, dropped, by omega, there⟩
    | some r =>
      rw [endRecord_some there]
      obtain ⟨data, inert_drops⟩ := clearParties_wire (id := r.id) (k := k) (l := r.parties) (s := dropRecord s) dropped
      have length := length_clearParties (id := r.id) (k := k) (l := r.parties) (s := dropRecord s) awake
      have parties := few r there
      have control : (dropRecord s).wire.control = s.wire.control := rfl
      rw [control] at length
      exact ⟨data, inert_drops, by omega, clearParties_record _ _ _ _⟩
  obtain ⟨data, inert_drops, room, record⟩ := wire
  have state : (endRecord (some k) s).hold = s.hold := only.hold
  refine ⟨?_, ?_, record, by rw [state]; exact known, (headSettled_congr data).trans head, inert_drops, room⟩
  · rw [eligibleNow_congr only.straps only.power (by rw [State.cond, only.fault]; rfl) (by rw [state]), state]
    exact settled
  · rw [State.holding, state]
    exact holding

/-- Every party of a record that ends is told by the end of the command. -/
theorem endRecord_told {r : CallRecord} (record : w.call.record = some r) (few : r.parties.length ≤ 3)
    (short : w.wire.control.length ≤ 4) (holding : w.holding = true)
    (left : LeftFor (endRecord (some k) w) t) : ∀ p ∈ r.parties,
      (∀ n, p.station = w.own → p.port = portNo n → (w.port n).callRef = some (.outside w.own r.id) →
        t.port n = Port.clear w.now (some (.cleared k)) none (w.port n)) ∧
      (p.station ≠ w.own → newEntry (some p.station) (.clear ⟨r.id, p.port, k⟩) w.now ∈ t.wire.control) := by
  intro p here
  rw [endRecord_some record] at left
  refine ⟨fun n inside port ref => ?_, fun outside => ?_⟩
  · have cleared := clearParties_port (id := r.id) (h := w.own) (k := k) (n := n) (s := dropRecord w) here
      ⟨inside, by rw [port, portOf_portNo]⟩ ref
    have plain : (clearParties r.id k r.parties (dropRecord w)).port n =
        Port.clear w.now (some (.cleared k)) none (w.port n) := cleared
    rw [left.ports n (by rw [plain]; nofun) (by rw [plain]; nofun), plain]
  · have entry := mem_clearParties (id := r.id) (k := k) (s := dropRecord w) (awake_of_holding holding)
      (by show w.wire.control.length + _ ≤ 8; omega) here outside
    exact left.kept _ entry nofun

end

end Sys2Proof.Machine
end

section
/-! PROOFS. A HOLDING station hears the beacon of another (R28, R39, R40). -/

set_option Elab.async false

namespace Sys2Proof.Machine

open Sys2Proof

section
variable {s t w : State} {h : Header} {m : BeaconMsg} {start : Tick}

/-! ## Tracks announced (R60 to R62) -/

/-- What an opened round leaves of the wire controller (R14). -/
def roundless (s : State) : List TxEntry × List Body × Nat := (s.wire.data, s.wire.dropped, s.wire.control.length)

theorem roundless_putSlot (n : SlotName) (k : Option Track) (s : State) : roundless (putSlot n k s) = roundless s := by
  obtain same | opened := putSlot_wire n k s
  · rw [roundless, same, roundless]
  · rw [roundless, opened, roundless, Wire.roundOpened]
    simp

theorem roundless_takeTracks (src : Nat) (start : Tick) (ms : List TrackMsg) (s : State) :
    roundless (takeTracks src start ms s) = roundless s := by
  refine foldl_read (P := roundless) (fun t m => ?_) _ _
  have announced (arrival : Tick) (u : State) (n : SlotName) :
      roundless (announceAt src start arrival m u n) = roundless u := by
    unfold announceAt
    split
    · exact iteInduction (motive := fun v => roundless v = roundless u) (fun _ => roundless_putSlot _ _ _) fun _ => rfl
    · rfl
  show roundless (takeTrack src start t m) = roundless t
  unfold takeTrack
  refine iteInduction (motive := fun v => roundless v = roundless t) (fun _ => ?_) fun _ => rfl
  refine iteInduction (motive := fun v => roundless v = roundless t)
    (fun _ => foldl_read (P := roundless) (announced _) _ _) fun _ => ?_
  refine iteInduction (motive := fun v => roundless v = roundless t) (fun _ => roundless_putSlot _ _ _) fun _ => ?_
  exact iteInduction (motive := fun v => roundless v = roundless t) (fun _ => roundless_putSlot _ _ _) fun _ => rfl

/-! ## The station as the keeper rule is applied -/

/-- The station once a beacon's fields and tracks have been taken. -/
def beaconTaken (h : Header) (m : BeaconMsg) (start : Tick) (s : State) : State :=
  takeTracks h.src start m.tracks (modPeer h.src (Peer.beaconed h.hold m) (beforeContents (.beacon h m) h start s))

/-- What the beacon of another station leaves of a HOLDING station before the keeper rule. -/
structure HeldStill (src : Nat) (s w : State) : Prop where
  only : Only [.pins, .wire, .hold, .noise, .ports, .outs] s w
  length : w.wire.control.length = s.wire.control.length
  data : w.wire.data = s.wire.data
  dropped : w.wire.dropped = s.wire.dropped
  state : w.hold.state = s.hold.state
  eligible : w.hold.eligible = s.hold.eligible
  degraded : w.hold.degraded = s.hold.degraded
  known : w.hold.known.isSome = true
  port : ∀ n, w.port n = feedHolder src s.now (s.port n)

theorem beaconTaken_still (calm : Calm s) (holding : s.holding = true) :
    HeldStill h.src s (beaconTaken h m start s) := by
  have known : s.hold.known.isSome = true := by
    rw [← (Calm.first calm).holder]
    exact computeHolder_isSome_of_holding holding
  have noted : beforeContents (.beacon h m) h start s = holderNoted (heardNow h start s) :=
    settleHolder_holding (s := heardNow h start s) holding known
  let u := modPeer h.src (Peer.beaconed h.hold m) (holderNoted (heardNow h start s))
  have taken := takeTracks_only h.src start m.tracks u
  have wire := roundless_takeTracks h.src start m.tracks u
  have shape : beaconTaken h m start s = takeTracks h.src start m.tracks u := by rw [beaconTaken, noted]
  have peers : Only [.pins, .wire, .hold, .ports, .outs] s u :=
    (State.modHold_only _ _).after ((State.modHold_only _ _).after ((heardNow_only h start s).mono (by decide))
      (by decide)) (by decide)
  rw [shape]
  refine ⟨taken.after (peers.mono (by decide)) (by decide), congrArg (·.2.2) wire, congrArg (·.1) wire,
    congrArg (·.2.1) wire, by rw [taken.hold]; rfl, by rw [taken.hold]; rfl, by rw [taken.hold]; rfl, ?_,
    fun n => (port_congr taken.ports n).trans (heardNow_port h start s n)⟩
  rw [taken.hold]
  exact computeHolder_isSome_of_holding (s := heardNow h start s) holding

theorem HeldStill.holds (still : HeldStill h.src s w) (holding : s.holding = true) : w.holding = true := by
  rw [State.holding, still.state]
  exact holding

section
variable (still : HeldStill h.src s w) (calm : Calm s)
include still calm

theorem HeldStill.eligibleNow : w.eligibleNow = w.hold.eligible := by
  rw [eligibleNow_congr still.only.straps still.only.power (by rw [State.cond, still.only.fault]; rfl) still.state,
    still.eligible]
  exact (Calm.first calm).eligible

theorem HeldStill.head : headSettled w = true := (headSettled_congr still.data).trans (Calm.rest calm).head

theorem HeldStill.inert_drops : ∀ d ∈ w.wire.dropped, inert d = true := by
  simp [still.dropped, Calm.dropped calm]

variable (holding : s.holding = true)
include holding

/-- The station that keeps the line stays HOLDING. -/
theorem HeldStill.finish_keeps : (finish w).hold.state = .holding := by
  have there := still.holds holding
  have noted : Noted w := by
    refine ⟨still.eligibleNow calm, ?_, .inr ⟨there, still.known⟩, still.inert_drops calm⟩
    have degraded := (Calm.first calm).degraded
    rw [there, still.degraded, still.only.call]
    rwa [holding] at degraded
  have held : (clearNotices (holderNoted w)).holding = true := there
  rw [finish_noted noted, (settleRest_only (staysUp_of_holding held)).hold]
  exact holding_iff.mp held

theorem HeldStill.leaving (short : s.wire.control.length ≤ 4) (ok : RecordOk s) :
    Leaving (endRecord (some .dual) w) := by
  refine leaving_endRecord (still.eligibleNow calm) (still.holds holding) still.known
    (still.head calm) (still.inert_drops calm) (by rw [still.length]; exact short) fun r there => ?_
  rw [still.only.call] at there
  obtain ⟨-, record⟩ := ok
  exact (record r there).2.2

/-- The station that loses the line to the other yields, and its parties are told. -/
theorem HeldStill.finish_loses (short : s.wire.control.length ≤ 4) (ok : RecordOk s)
    (ended : t = finish (enterYielding (some .dual) w)) :
    t.hold.state = .yielding ∧ t.call.record = none ∧ t.sup.state = .off ∧ t.sup.map = [] ∧
      t.report.queue = [] ∧ t.fault.test = none ∧ t.fault.due = none ∧
      newEntry (some 0) .yield s.now ∈ t.wire.control ∧
      (∀ r p, s.call.record = some r → p ∈ r.parties → OwnPartyCleared p r.id .dual s t ∧ (p.station ≠ s.own →
        newEntry (some p.station) (.clear ⟨r.id, p.port, .dual⟩) s.now ∈ t.wire.control)) := by
  have now : w.now = s.now := still.only.now
  have own : w.own = s.own := by rw [State.own, State.own, still.only.straps]
  have left : LeftFor (endRecord (some .dual) w) t := by
    rw [ended, enterYielding_endRecord]
    exact finish_leaving (still.leaving calm holding short ok)
  have sent := left.sent
  rw [(endRecord_only (some .dual) w).now, now] at sent
  refine ⟨left.state, left.record, left.off, left.map, left.queue, left.test, left.due, sent,
    fun r p there listed => ?_⟩
  obtain ⟨-, record⟩ := ok
  have few := (record r there).2.2
  obtain ⟨cleared, queued⟩ := endRecord_told (w := w) (by rw [still.only.call]; exact there) few
    (by rw [still.length]; exact short) (still.holds holding) left p listed
  rw [own, now] at queued
  refine ⟨fun n inside port ref => ?_, queued⟩
  have there : (w.port n).callRef = some (.outside w.own r.id) := by
    obtain ⟨x, fed⟩ := feedHolder_eq h.src s.now (s.port n)
    rw [still.port, fed, own]
    exact ref
  rw [cleared n (by rw [own]; exact inside) port there]
  exact ⟨rfl, rfl, rfl, rfl, rfl⟩

end

/-! ## The beacon -/

theorem keeperRule_eq {b : HolderBlock} (still : HeldStill h.src s w) (holding : s.holding = true)
    (announced : h.hold = .listed .holding) (block : m.holder = some b) (other : h.src ≠ s.own) :
    keeperRule h.src h.hold m w =
      if (b.call = true ∧ s.call.record = none) ∨ (b.call = s.call.record.isSome ∧ h.src < s.own) then
        enterYielding (some .dual) w
      else w := by
  have there : w.holding = true := by
    rw [State.holding, still.state]
    exact holding
  have own : w.own = s.own := by rw [State.own, State.own, still.only.straps]
  have pair := keeper_pair other s.call.record.isSome b.call
  have loses : (w.holding && decide (h.hold = .listed .holding) &&
      !keeps w h.src (match m.holder with | some b => b.call | none => false)) = true ↔
        (b.call = true ∧ s.call.record = none) ∨ (b.call = s.call.record.isSome ∧ h.src < s.own) := by
    rw [there, announced, block, keeps, own, still.only.call, decide_eq_true rfl, Bool.true_and, Bool.true_and,
      Bool.not_eq_true', decide_eq_false_iff_not]
    refine pair.trans (or_congr_left (and_congr_right fun _ => ?_))
    cases s.call.record <;> simp
  unfold keeperRule
  exact if_congr loses rfl rfl

theorem exec_beacon (calm : Calm s) (hear : Hearing s start) (us : ForUs s h) :
    exec (.beacon h m) s = .next (finish (keeperRule h.src h.hold m (beaconTaken h m start s))) :=
  exec_heard calm hear us rfl

end

/-- Settles O25: the keeper of a list is its lowest id in a call, else its lowest; a holder that the rule gives the line
to another yields with its record ended. -/
theorem keeperRule_holds : Obligations.KeeperRule := by
  unfold Obligations.KeeperRule
  refine ⟨keeper_among, fun s h m b start calm hear us announced block holding ok short => ?_⟩
  have still := beaconTaken_still (h := h) (m := m) (start := start) calm holding
  refine answers_of (exec_beacon calm hear us) ?_
  rw [keeperRule_eq still holding announced block us.1]
  split
  · exact still.finish_loses calm holding short ok rfl
  · exact still.finish_keeps calm holding

end Sys2Proof.Machine
end

section
/-! PROOFS. A station asleep (R45, R66, R169): entry to WATCH, and the end of the command that brings it about. -/

set_option Elab.async false

namespace Sys2Proof.Machine

open Sys2Proof

section
variable {s t v w : State}

/-! ## Entry to WATCH -/

/-- A station that has just entered WATCH is asleep. -/
theorem asleep_enterWatch (s : State) : Asleep (enterWatch s) := by
  have power := enterWatch_power s
  have hold := enterWatch_hold s
  have wire := enterWatch_wire s
  have ended {c : Cond} (h : c = .noiseTracked ∨ c = .peerLost ∨ c = .noHolder) : (enterWatch s).cond c = false :=
    (enterWatch_cond s c).trans (if_pos h)
  unfold Asleep
  rw [power, hold, wire, enterWatch_noise, ended (.inl rfl), ended (.inr (.inl rfl)), ended (.inr (.inr rfl))]
  exact ⟨rfl, rfl, rfl, rfl, rfl, rfl, rfl, rfl, rfl, rfl, rfl, rfl, rfl, rfl, rfl, flushQueue_all _,
    flushQueue_all _, flushQueue_all _, rfl, rfl, rfl⟩

theorem enterWatch_away (s : State) : (enterWatch s).holding = false := by
  rw [State.holding, enterWatch_hold, watchHold]
  dsimp only
  split <;> rfl

theorem setCond_outstanding (c : Cond) (b : Bool) (s : State) :
    (setCond c b s).report.outstanding = s.report.outstanding := by
  obtain ⟨r, l, q, eq, -⟩ := setConds_shape (writeCond s.fault.conds c b) s
  rw [setCond, eq]
  rfl

theorem enterWatch_outstanding (s : State) : (enterWatch s).report.outstanding = s.report.outstanding := by
  unfold enterWatch
  dsimp only
  rw [setCond_outstanding, setCond_outstanding, setCond_outstanding]
  rfl

/-! ## What keeps a station asleep -/

/-- What makes a station asleep is read from the power, the hold controller, the tracker, the wire controller but its
notices, and three conditions. -/
theorem asleep_congr (a : Asleep s) (power : t.power = s.power) (hold : t.hold = s.hold) (noise : t.noise = s.noise)
    (wire : t.wire = { s.wire with dropped := t.wire.dropped })
    (conds : ∀ c ∈ [Cond.noHolder, .peerLost, .noiseTracked], t.cond c = s.cond c) : Asleep t := by
  unfold Asleep at a ⊢
  rw [wire, power, hold, noise, conds .noHolder (by decide), conds .peerLost (by decide),
    conds .noiseTracked (by decide)]
  exact a

theorem known_of_asleep (a : Asleep s) : s.hold.known = none := by
  obtain ⟨-, -, -, -, -, known, -⟩ := a
  exact known

theorem idleHolds_of_asleep (a : Asleep s) : s.idleHolds = false := by
  obtain ⟨state, -⟩ := a
  simp [State.idleHolds, state]

theorem headSettled_of_sending (data : s.wire.data.all (·.inTx) = true) : headSettled s = true := by
  unfold headSettled
  split
  · next e l queue => rw [List.all_eq_true.mp data e (by rw [queue]; exact List.mem_cons_self), Bool.or_true]
  · rfl

theorem headSettled_of_asleep (a : Asleep s) : headSettled s = true := by
  obtain ⟨-, -, -, -, -, -, -, -, -, -, -, -, -, -, -, -, -, data, -⟩ := a
  exact headSettled_of_sending data

/-! ## The rules after the condition rules at a station that sleeps -/

theorem settleReports_unknown (away : s.holding = false) (known : s.hold.known = none) : settleReports s = s := by
  rw [settleReports, if_neg (by rw [away]; decide), sendReport, known]

/-- The rules from the reports on at a station with no holder known. -/
theorem settleLater_unknown (away : s.holding = false) (known : s.hold.known = none) :
    Only [.sup, .call, .fault, .outs] s (settleLater s) := by
  rw [settleLater, settleReports_unknown away known]
  exact (settleLamp_only _).after ((settleLoss_only _).after ((startOutpulse_only _).after
    ((startTransfer_only _).after ((mailboxOffer_only s).mono (by decide)) (by decide)) (by decide)) (by decide))
      (by decide)

theorem settleRest_conds (s : State) : (settleRest s).fault.conds = (settleMiddle s).fault.conds := by
  rw [settleRest, (clearNotices_only _).fault, (settleTones_only _).fault, settleLater_conds]

/-- Where the station is asleep before the reports' rule, the rest of the rules leaves it asleep. -/
theorem asleep_settleRest (a : Asleep (settleMiddle s)) (away : (settleMiddle s).holding = false) :
    Asleep (settleRest s) ∧ (settleRest s).hold = (settleMiddle s).hold ∧
      (settleRest s).report = (settleMiddle s).report := by
  have later : Only [.wire, .sup, .ports, .call, .fault, .outs] (settleMiddle s) (settleRest s) :=
    (clearNotices_only _).after ((settleTones_only _).after ((settleLater_unknown away (known_of_asleep a)).mono (by decide))
      (by decide)) (by decide)
  have wire : (settleRest s).wire = { (settleMiddle s).wire with dropped := (settleRest s).wire.dropped } := by
    show { (settleTones (settleLater (settleMiddle s))).wire with dropped := [] } = _
    rw [(settleTones_only _).wire, (settleLater_unknown away (known_of_asleep a)).wire]
    rfl
  have conds := settleRest_conds s
  exact ⟨asleep_congr a later.power later.hold later.noise wire fun c _ => by rw [State.cond, State.cond, conds],
    later.hold, later.report⟩

/-! ## A station that falls asleep as its command ends (R168) -/

/-- Where the idle timer's conditions hold with battery low asserted, the middle rules enter WATCH. -/
theorem settleMiddle_sleeps (holds : s.idleHolds = true) (low : s.pins.battLow = true) :
    settleMiddle s = enterWatch (settleConds (settleDataHead s)) := by
  have pins : (settleConds (settleDataHead s)).pins = s.pins :=
    (settleConds_only _).pins.trans (settleDataHead_only s).pins
  rw [settleMiddle, settleIdle, settleDataHead_idleHolds, if_pos holds, pins, if_pos low]

/-- The conditions at the end of a command that entry to WATCH does not end. -/
def Cond.survivesWatch : Cond → Bool
  | .noiseTracked | .peerLost | .noHolder => false
  | _ => true

theorem settleRest_sleeps (holds : s.idleHolds = true) (low : s.pins.battLow = true) :
    Asleep (settleRest s) ∧ (settleRest s).hold = watchHold s.hold ∧
      ∀ c, Cond.survivesWatch c = true → (settleRest s).cond c = condWanted (settleDataHead s) c := by
  have middle := settleMiddle_sleeps holds low
  obtain ⟨asleep, hold, -⟩ := asleep_settleRest (s := s) (by rw [middle]; exact asleep_enterWatch _)
    (by rw [middle]; exact enterWatch_away _)
  refine ⟨asleep, ?_, fun c survives => ?_⟩
  · rw [hold, middle, enterWatch_hold, (settleConds_only _).hold, (settleDataHead_only s).hold]
  · have other : ¬ (c = .noiseTracked ∨ c = .peerLost ∨ c = .noHolder) := by
      rintro (rfl | rfl | rfl) <;> cases survives
    rw [State.cond, settleRest_conds, middle, ← State.cond, enterWatch_cond, if_neg other, settleConds_cond]

theorem settleRest_survivor {c : Cond} (s : State) (survives : Cond.survivesWatch c = true) :
    (settleRest s).cond c = condWanted (settleDataHead s) c := by
  by_cases asleep : s.idleHolds = true ∧ s.pins.battLow = true
  · obtain ⟨holds, low⟩ := asleep
    obtain ⟨-, -, conds⟩ := settleRest_sleeps holds low
    exact conds c survives
  · exact settleRest_cond (fun holds => Bool.eq_false_iff.mpr fun low => asleep ⟨holds, low⟩) c

theorem settleRest_rejoin (s : State) : (settleRest s).power.rejoin = s.power.rejoin := by
  have before : Only [.wire, .sup, .fault, .report] s (settleConds (settleDataHead s)) :=
    (settleConds_only _).after ((settleDataHead_only s).mono (by decide)) (by decide)
  rw [settleRest, (clearNotices_only _).power, (settleTones_only _).power, (settleLater_only _).power, settleMiddle]
  rcases settleIdle_cases (settleConds (settleDataHead s)) with ⟨x, eq⟩ | ⟨eq, -, -⟩
  · rw [eq, State.modPower_power, before.power]
  · rw [eq, enterWatch_power, before.power]

/-! ## A command that ends at a station already asleep -/

/-- A station asleep away from the line stays asleep to the command's end. -/
theorem settleRest_asleep (a : Asleep s) (away : s.holding = false) :
    Asleep (settleRest s) ∧ (settleRest s).hold = s.hold ∧
      (settleRest s).report.outstanding = s.report.outstanding := by
  have only := settleConds_only s
  have quiet : (settleConds s).idleHolds = false := (idleHolds_congr only.power only.ports (by rw [only.hold])).trans
    (idleHolds_of_asleep a)
  have middle : settleMiddle s = (settleConds s).modPower fun p => { p with idle := none } := by
    rw [settleMiddle, settleDataHead_of (headSettled_of_asleep a), settleIdle, quiet, if_neg (by decide)]
  have ⟨_, _, idle, _, lost, _, _, _, _, _, _, noise, _, _, _, _, _, _, _, peerLost, tracked⟩ := a
  have power : (settleMiddle s).power = s.power := by rw [middle, State.modPower_power, only.power, ← idle]
  have hold : (settleMiddle s).hold = s.hold := by rw [middle, State.modPower_hold, only.hold]
  have tracker : (settleMiddle s).noise = s.noise := by rw [middle, State.modPower_noise, only.noise]
  have wire : (settleMiddle s).wire = s.wire := by rw [middle, State.modPower_wire, only.wire]
  have cond (c : Cond) : (settleMiddle s).cond c = condWanted s c := by
    rw [State.cond, middle, State.modPower_fault, ← State.cond, settleConds_cond]
  have outstanding : (settleMiddle s).report.outstanding = s.report.outstanding := by
    obtain ⟨r, l, q, eq, -⟩ := settleConds_shape s
    rw [middle, State.modPower_report, eq]
    rfl
  have asleep : Asleep (settleMiddle s) := by
    refine asleep_congr (t := settleMiddle s) a power hold tracker (by rw [wire]) fun c listed => (cond c).trans ?_
    rcases List.mem_cons.mp listed with rfl | listed
    · rfl
    rcases List.mem_cons.mp listed with rfl | listed
    · rw [peerLost, condWanted, lost]
      rfl
    rcases List.mem_singleton.mp listed with rfl
    rw [tracked, condWanted, noise]
    rfl
  have away' : (settleMiddle s).holding = false := by rw [State.holding, hold, ← State.holding, away]
  obtain ⟨asleep', hold', report⟩ := asleep_settleRest asleep away'
  exact ⟨asleep', hold'.trans hold, by rw [report, outstanding]⟩

/-! ## The call record -/

/-- With its dialling and its loss settled the call controller stands as it is. -/
theorem settleRest_call_of (outpulse : outpulseSettled s = true) (loss : lossSettled s = true) :
    (settleRest s).call = s.call := by
  have middle := settleMiddle_only s
  have before : Only [.wire, .sup, .fault, .report, .outs] (settleMiddle s)
      (startTransfer (mailboxOffer (settleReports (settleMiddle s)))) :=
    (startTransfer_only _).after ((mailboxOffer_only _).after ((settleReports_only _).mono (by decide)) (by decide))
      (by decide)
  have call := before.call.trans middle.call
  have pins := before.pins.trans middle.pins
  rw [settleRest, (clearNotices_only _).call, (settleTones_only _).call, settleLater, (settleLamp_only _).call,
    startOutpulse_of ((outpulseSettled_congr call).trans outpulse),
    settleLoss_of ((lossSettled_congr call pins).trans loss), call]

end

end Sys2Proof.Machine
end

section
/-! PROOFS. The ways into WATCH (R45, R66, R165, R166, R168, R169): battery low, the idle timer, a start on battery, a
fall of the mains. -/

set_option Elab.async false

namespace Sys2Proof.Machine

open Sys2Proof

section
variable {s t v w : State} {c : Cfg} {i : Bool}

/-! ## The idle timer at a settled station -/

/-- A settled station's idle timer runs exactly while its conditions hold (R168, log 20). -/
theorem idleHolds_iff_idle (calm : Calm s) : s.idleHolds = true ↔ s.power.idle.isSome = true := by
  have settled := (Calm.rest calm).idle
  unfold idleSettled at settled
  by_cases holds : s.idleHolds = true
  · rw [if_pos holds, Bool.and_eq_true] at settled
    exact ⟨fun _ => settled.2, fun _ => holds⟩
  · rw [if_neg holds] at settled
    refine ⟨fun h => absurd h holds, fun some => ?_⟩
    rw [Option.isNone_iff_eq_none.mp settled] at some
    cases some

/-! ## Battery low (R135, R168, R170) -/

/-- The level of battery low as told, with the outputs of the command before gone. -/
def lowTold (level : Bool) (s : State) : State := { s with pins := { s.pins with battLow := level }, outs := [] }

theorem firstSettled_lowTold (level : Bool) (calm : Calm s) : FirstSettled (lowTold level s) := by
  have first := Calm.first calm
  exact .of_none first.eligible first.degraded first.holder (Calm.dropped (s := s) calm)

theorem finish_lowTold (level : Bool) (calm : Calm s) : finish (lowTold level s) = settleRest (lowTold level s) := by
  rw [finish_eq, settleFirst_of (firstSettled_lowTold level calm),
    clearNotices_of_none (s := lowTold level s) (Calm.dropped (s := s) calm)]

theorem batteryLow_answers (level : Bool) (calm : Calm s) : Answers (.batteryLowChange (.low level)) s fun t =>
     t.pins.battLow = level ∧ t.cond .batteryLow = level ∧
       (level = true → s.power.idle.isSome = true → Asleep t) ∧
       (level = false ∨ s.power.idle = none → t.power = { s.power with idle := t.power.idle } ∧
         t.hold = s.hold ∧ t.ports.one.state = s.ports.one.state ∧ t.call = s.call) := by
  have run : exec (.batteryLowChange (.low level)) s = .next (finish (lowTold level s)) :=
    congrArg Host.Outcome.next (running_active calm.active)
  have rest := Calm.rest calm
  have head : headSettled (lowTold level s) = true := rest.head
  have pins : (finish (lowTold level s)).pins = (lowTold level s).pins := (finish_only _).pins
  have call : (settleRest (lowTold level s)).call = s.call :=
    settleRest_call_of (s := lowTold level s) rest.outpulse rest.loss
  have same : (lowTold level s).idleHolds = s.idleHolds := rfl
  refine answers_of run ⟨by rw [pins]; rfl, ?_, fun low idle => ?_, fun stays => ?_⟩
  · rw [finish_lowTold level calm, settleRest_survivor _ rfl, settleDataHead_of head]
    rfl
  · obtain ⟨asleep, -, -⟩ :=
      settleRest_sleeps (s := lowTold level s) (same.trans ((idleHolds_iff_idle calm).mpr idle)) low
    rw [finish_lowTold level calm]
    exact asleep
  · have up : StaysUp (lowTold level s) := by
      intro holds
      obtain low | idle := stays
      · exact low
      · have runs := (idleHolds_iff_idle calm).mp (same.symm.trans holds)
        rw [idle] at runs
        cases runs
    obtain ⟨x, k, a, port⟩ := settleRest_port (lowTold level s) .one
    have state : ((settleRest (lowTold level s)).port .one).state = s.ports.one.state := by
      rw [port]
      rfl
    have power := settleRest_power up
    have hold := (settleRest_only up).hold
    rw [finish_lowTold level calm]
    generalize settleRest (lowTold level s) = t at power hold state call
    exact ⟨by rw [power]; rfl, hold, state, call⟩

/-! ## The idle timer runs out (R45, R66, R169) -/

theorem dueIdle_of_timer {x : Tick} (calm : Calm s) (timer : s.power.idle = some x)
    (due : 4800000 ≤ elapsed s.now x) : dueIdle s = true := by
  rw [dueIdle, (idleHolds_iff_idle calm).mpr (by rw [timer]; rfl), timer]
  exact decide_eq_true due

/-- With the idle timer's conditions holding no notice of a frame dropped means anything: the station does not claim or
yield, and no port waits for an answer. -/
theorem droppedNotice_idle (holds : s.idleHolds = true) (hold : t.hold.state = .halted ∨ t.hold.state = .listen)
    (ports : t.ports = s.ports) (b : Body) : droppedNotice t b = t := by
  simp only [State.idleHolds, portIdle, Bool.and_eq_true, Option.isNone_iff_eq_none] at holds
  obtain ⟨⟨⟨-, -, one⟩, -, two⟩, -⟩ := holds
  have none (n : PortNo) : (t.port n).outReq = none := by
    rw [port_congr ports]
    cases n
    · exact one
    · exact two
  cases b with
  | claim x n => exact if_neg fun claims => by rcases hold with h | h <;> rw [h] at claims <;> cases claims.1
  | yield => exact if_neg fun yields => by rcases hold with h | h <;> rw [h] at yields <;> cases yields
  | request k m => exact eachPort_fixed fun n => by rw [requestDropped, none n]
  | _ => rfl

theorem watchHold_state (h : Hold) : (watchHold h).state = .halted ∨ (watchHold h).state = .listen := by
  unfold watchHold
  dsimp only
  split
  · exact .inl rfl
  · exact .inr rfl

theorem enterWatch_eligibleNow (s : State) : (enterWatch s).eligibleNow = false := by
  simp [State.eligibleNow, State.full, enterWatch_power]

theorem firstSettled_enterWatch (holds : s.idleHolds = true) (eligible : s.hold.eligible = false) :
    FirstSettled (enterWatch s) := by
  have hold := enterWatch_hold s
  have away := enterWatch_away s
  refine ⟨?_, by rw [away]; rfl, ?_, fun b _ => ?_⟩
  · rw [enterWatch_eligibleNow, hold]
    exact eligible.symm
  · rw [State.computeHolder, candidates_eq, away, hold]
    rfl
  · exact droppedNotice_idle (t := clearNotices (enterWatch s)) holds (hold ▸ watchHold_state s.hold) (enterWatch_only s).ports b

theorem idleTimerExpiry_answers {x : Tick} (calm : Calm s) (timer : s.power.idle = some x)
    (due : 4800000 ≤ elapsed s.now x) : Answers .idleTimerExpiry s fun t =>
       Asleep t ∧ t.hold.state = (if s.hold.state = .halted then .halted else .listen) ∧
         t.hold.tiebreak = s.hold.tiebreak ∧ t.report.outstanding = s.report.outstanding ∧ t.call = s.call := by
  have holds : s.idleHolds = true := (idleHolds_iff_idle calm).mpr (by rw [timer]; rfl)
  have run : exec .idleTimerExpiry s = .next (finish (enterWatch s.quiet)) :=
    congrArg Host.Outcome.next ((running_active calm.active).trans
      (congrArg finish (if_pos (dueIdle_of_timer (s := s.quiet) calm timer due))))
  have eligible : s.hold.eligible = false := by
    rw [← (Calm.first calm).eligible]
    simp only [State.idleHolds, Bool.and_eq_true, decide_eq_true_eq] at holds
    obtain ⟨⟨⟨⟨battery, -⟩, -⟩, -⟩, -⟩ := holds
    simp [State.eligibleNow, State.full, battery]
  have first : settleFirst (enterWatch s.quiet) = clearNotices (enterWatch s.quiet) :=
    settleFirst_of (firstSettled_enterWatch (s := s.quiet) holds eligible)
  have asleep : Asleep (clearNotices (enterWatch s.quiet)) :=
    asleep_congr (asleep_enterWatch s.quiet) rfl rfl rfl rfl fun _ _ => rfl
  obtain ⟨asleep', hold, outstanding⟩ := settleRest_asleep asleep (enterWatch_away s.quiet)
  have only := enterWatch_only s.quiet
  have rest := Calm.rest calm
  have hold' : (settleRest (clearNotices (enterWatch s.quiet))).hold = watchHold s.hold :=
    hold.trans (enterWatch_hold s.quiet)
  refine answers_of run ?_
  rw [finish_eq, first, hold', outstanding]
  refine ⟨asleep', rfl, rfl, enterWatch_outstanding s.quiet, ?_⟩
  have call : (clearNotices (enterWatch s.quiet)).call = s.call := only.call
  rw [settleRest_call_of ((outpulseSettled_congr call).trans rest.outpulse)
    ((lossSettled_congr call only.pins).trans rest.loss), call]

end

end Sys2Proof.Machine
end

section
/-! PROOFS. WATCH at once (R165, R166, R168): a start on battery and a fall of the mains, with battery low asserted. -/

set_option Elab.async false

namespace Sys2Proof.Machine

open Sys2Proof

section
variable {s t v w : State} {c : Cfg} {i : Bool}

/-- The rules after the notices leave the phase and the inputs. -/
theorem settleRest_steady (s : State) : (settleRest s).phase = s.phase ∧ (settleRest s).pins = s.pins := by
  have after : Only [.wire, .sup, .ports, .call, .fault, .report, .outs] (settleMiddle s) (settleRest s) :=
    (clearNotices_only _).after ((settleTones_only _).after ((settleLater_only _).mono (by decide)) (by decide))
      (by decide)
  exact ⟨after.phase.trans (settleMiddle_only s).phase, after.pins.trans (settleMiddle_only s).pins⟩

/-- The idle timer's conditions, one by one (R168). -/
theorem idleHolds_of (battery : s.power.state = .battery) (live : s.power.frontEnd = .live)
    (ports : ∀ n, portIdle (s.port n) = true)
    (away : s.hold.state ≠ .holding ∧ s.hold.state ≠ .claiming ∧ s.hold.state ≠ .yielding) : s.idleHolds = true := by
  have one : portIdle s.ports.one = true := ports .one
  have two : portIdle s.ports.two = true := ports .two
  simp [State.idleHolds, State.live, State.holding, battery, live, one, two, away]

/-! ## A start on battery -/

/-- At completion no port is busy before its off-hook is looked at (R89). -/
theorem portIdle_complete (h : StartsUp s) (code : Option HaltCode) (m : PortNo) :
    portIdle ((complete code (takeConfig c i s.quiet)).port m) = true := by
  have start := port_completing (c := c) (i := i) h m
  rw [complete_eq code h.readyTimer]
  cases code with
  | none =>
    show portIdle ((completing c i s).port m) = true
    rw [start]
    rfl
  | some k =>
    obtain ⟨awake, free⟩ := completing_awake (c := c) (i := i) h
    have window : (completing c i s).power.window = none := h.window
    show portIdle ((enterHalted k (completing c i s)).port m) = true
    rw [enterHalted_eq awake free window, port_congr (offerControl_only _ _ _).ports, port_halting, start]
    split <;> rfl

theorem eachPort_startHook_onHook (one : s.pins.hook1 = false) (two : s.pins.hook2 = false) :
    s.eachPort startHook = s := by
  refine eachPort_fixed fun n => if_neg ?_
  cases n
  · exact Bool.eq_false_iff.mp one
  · exact Bool.eq_false_iff.mp two

theorem startAsleep_answers {r : ConfigRead} (h : StartsUp s) (charged : s.pins.battEmpty = false)
    (mains : s.pins.mains = false) (low : s.pins.battLow = true) (one : s.pins.hook1 = false)
    (two : s.pins.hook2 = false) : Answers (.configurationReadEnd r i) s fun t =>
       t.phase = .running ∧ Asleep t ∧
         t.hold.state = (if (readConfig r).2 || (s.straps.modem && !i) then .halted else .listen) ∧
         t.cond .mainsOff = true ∧ t.cond .batteryLow = true := by
  have battery : firstPower s.pins = .battery := by rw [firstPower, charged, mains]; rfl
  have run := exec_configurationRead (i := i) (r := r) h.phase
  have idle := portIdle_complete (c := (readConfig r).1) (i := i) h (startCode s.straps.modem (readConfig r).2 i)
  obtain ⟨w, completes, begun, halted, -⟩ := begun_completes (c := (readConfig r).1) (i := i) h
    (startCode s.straps.modem (readConfig r).2 i)
  rw [completes] at run idle
  have run := run.trans (congrArg Host.Outcome.next (if_neg (by rw [charged]; decide)))
  rw [eachPort_startHook_onHook (by rw [begun.pins]; exact one) (by rw [begun.pins]; exact two), begun.finish_eq] at run
  refine answers_of run ?_
  have state : (eligibleNoted w).hold.state = .listen ∨ (eligibleNoted w).hold.state = .halted := begun.state
  have holds : (eligibleNoted w).idleHolds = true :=
    idleHolds_of (congrArg Power.state begun.power |>.trans battery) (congrArg Power.frontEnd begun.power) idle
      (by rcases state with h | h <;> rw [h] <;> decide)
  have lowNow : (eligibleNoted w).pins.battLow = true := (congrArg Pins.battLow begun.pins).trans low
  obtain ⟨asleep, hold, conds⟩ := settleRest_sleeps holds lowNow
  have phase : (settleRest (eligibleNoted w)).phase = .running := (settleRest_steady _).1.trans begun.phase
  refine ⟨phase, asleep, ?_, ?_, ?_⟩
  · rw [startCode_isSome] at halted
    rw [hold, ← halted]
    exact if_congr decide_eq_true_iff.symm rfl rfl
  · rw [conds _ rfl, settleDataHead_of begun.head]
    show (!decide (w.power.state = .full)) = true
    rw [begun.power, battery]
    rfl
  · rw [conds _ rfl, settleDataHead_of begun.head]
    exact lowNow

/-! ## A fall of the mains -/

/-- The hold controller at a fall of the mains that only takes the eligibility from it. -/
theorem losesEligibility_state {h : Hold} (claims : h.state ≠ .claiming) : h.losesEligibility.state = h.state := by
  unfold Hold.losesEligibility
  split
  · rfl
  · next claiming => exact absurd claiming claims
  · rfl
  · rfl

/-- The end of a fall of the mains at a station that neither holds the line nor claims it: the rules after the notices
find the hold controller but for what the eligibility takes with it. -/
theorem Lost.finish_away (lost : Lost s v) (calm : Calm s) (away : s.holding = false)
    (claims : s.hold.state ≠ .claiming) :
    ∃ q : Hold, q.state = s.hold.state ∧ Machine.finish v = settleRest { v with hold := q } := by
  have none_dropped : v.wire.dropped = [] := lost.dropped.trans (Calm.dropped calm)
  have handed {q : Hold} (step : Machine.settleEligible v = { v with hold := q })
      (first : FirstSettled { v with hold := q }) : Machine.finish v = settleRest { v with hold := q } := by
    have same := settleFirst_of first
    rw [settleFirst, settleEligible_of first.eligible] at same
    rw [finish_eq, settleFirst, step, same, clearNotices_of_none (s := { v with hold := q }) none_dropped]
  cases was : s.hold.eligible with
  | false =>
    refine ⟨s.hold, rfl, handed ?_ (lost.first calm s.hold was rfl rfl rfl (.inl rfl))⟩
    rw [settleEligible_of (by rw [lost.ineligible, lost.only.hold, was]), ← lost.only.hold]
  | true =>
    obtain ⟨known, roster, -⟩ := losesEligibility_kept s.hold
    refine ⟨s.hold.losesEligibility, losesEligibility_state claims,
      handed (lost.settleEligible was fun no => ?_) (lost.first calm _ (losesEligibility_eligible _)
        (losesEligibility_holding _) known roster (.inr (.inl away)))⟩
    rw [away] at no
    exact nomatch no.1

theorem fallAsleep_answers (calm : Calm s) (full : s.power.state = .full) (low : s.pins.battLow = true)
    (live : s.power.frontEnd = .live) (one : portIdle s.ports.one = true) (two : portIdle s.ports.two = true)
    (quiet : s.hold.state = .listen ∨ s.hold.state = .passive ∨ s.hold.state = .seeking ∨ s.hold.state = .halted) :
    Answers .mainsPresentFall s fun t =>
       t.pins.mains = false ∧ Asleep t ∧ t.hold.state = (if s.halted then .halted else .listen) ∧
         t.power.rejoin = none ∧ t.sup.state = .off ∧ t.cond .mainsOff = true := by
  let w : State := { s with pins := { s.pins with mains := false }, outs := [] }
  have away : s.hold.state ≠ .holding ∧ s.hold.state ≠ .claiming ∧ s.hold.state ≠ .yielding := by
    rcases quiet with h | h | h | h <;> rw [h] <;> decide
  have run : exec .mainsPresentFall s = .next (finish (mainsLost w)) := by
    rw [← mainsFall_eq (s := w) full]
    exact congrArg Host.Outcome.next (running_active (s := s.tell fun p => { p with mains := false }) calm.active)
  have lost := lost_mainsLost w
  generalize mainsLost w = v at run lost
  obtain ⟨q, state, ends⟩ := lost.finish_away (calm_mains false calm) (decide_eq_false away.1) away.2.1
  let u : State := { v with hold := q }
  have power : u.power = { s.power with state := .battery, rejoin := none } := lost.power
  have holds : u.idleHolds = true := by
    refine idleHolds_of (by rw [power]) (by rw [power]; exact live) (fun n => ?_)
      (by rw [show u.hold.state = _ from state]; exact away)
    rw [port_congr (s := s) (t := u) lost.only.ports]
    cases n
    · exact one
    · exact two
  have pins : u.pins = w.pins := lost.only.pins
  have head : headSettled u = true := headSettled_of_sending lost.data
  obtain ⟨asleep, hold, conds⟩ := settleRest_sleeps holds (by rw [pins]; exact low)
  have off : u.sup.state = .off := lost.off
  have sup := (supSettled_settleRest head).away (by rw [off]; nofun)
  have mainsOff : condWanted u .mainsOff = true := by
    show (!u.full) = true
    rw [State.full, power]
    rfl
  have shown := (conds .mainsOff rfl).trans ((congrArg (condWanted · .mainsOff) (settleDataHead_of head)).trans mainsOff)
  have rejoin := settleRest_rejoin u
  obtain ⟨-, inputs⟩ := settleRest_steady u
  have run : exec .mainsPresentFall s = .next (settleRest u) := run.trans (congrArg Host.Outcome.next ends)
  generalize settleRest u = t at run asleep hold sup shown rejoin inputs
  refine answers_of run ⟨by rw [inputs, pins], asleep, ?_, by rw [rejoin, power], by rw [sup, off], shown⟩
  rw [hold, watchHold, show u.hold.state = s.hold.state from state]
  exact if_congr decide_eq_true_iff.symm rfl rfl

end

/-- Settles O15. -/
theorem sleepEntered : Obligations.SleepEntered := by
  unfold Obligations.SleepEntered
  exact ⟨fun _ level calm => batteryLow_answers level calm,
    fun _ _ calm timer due => idleTimerExpiry_answers calm timer due,
    fun _ _ _ starting charged mains low one two => startAsleep_answers (startsUp starting) charged mains low one two,
    fun _ calm full low live one two quiet => fallAsleep_answers calm full low live one two quiet⟩

end Sys2Proof.Machine
end
